-- ==== Sys2Proof/Word.lean ====
section
/-! DEFINITION. The word types of the Rinelo E80 and their plainest arithmetic (R2, R3). -/

namespace Sys2Proof

/-- One byte (R2). -/
abbrev Byte := BitVec 8
/-- A 64-bit word: an s register, an address register (R199). -/
abbrev Word := BitVec 64
/-- A 256-B quantity: a vector register, a scratchpad row, a chunk (R33, R199, R20). -/
abbrev Wide := BitVec 2048
/-- A sparse table: pairs of key and value, keys rising. -/
abbrev SMap (β : Type) := List (Nat × β)

/-- Bits `hi` down to `lo` of a natural number, the `bits` function of R7. -/
def bitsN (v hi lo : Nat) : Nat := (v >>> lo) % 2 ^ (hi + 1 - lo)

/-- One bit of a natural number. -/
def bitN (v i : Nat) : Bool := (v >>> i) % 2 == 1

end Sys2Proof
end

