-- ==== Sys2Proof/Syntax.lean ====
section
/-! DEFINITION. The instructions: one constructor for each row of the table of operations and events. A slot operation
carries its slot word's head (N, G, W of R216), the unit it stands in where its class has two (R215, R220), and its
operand fields (R217). A task carries its header and operand words (R168, R169). An event carries the names of the parts
it concerns; an event that is a write by an agent outside the part's hardware carries the writer and the value. -/

namespace Sys2Proof

/-- The head of a slot word: guard negate N, guard predicate G and W (R216). -/
structure Hd where
  n : Bool
  g : BitVec 4
  w : Bool
  deriving DecidableEq, Repr

/-- Which of its class's two positions a V or C operation stands in: V0 or V1, C0 or C1 (R215). -/
inductive Unit2 where
  | zero
  | one
  deriving DecidableEq, Repr

/-- A task header without its opcode and operand count (R168). -/
structure TaskHdr where
  fb : Bool
  scope : BitVec 2
  fbk : Bool
  prot : Bool
  pcl : BitVec 4
  ppos : BitVec 4
  qd : BitVec 4
  cond : BitVec 3
  imm : BitVec 32
  deriving DecidableEq, Repr

/-- One box of an operand word: the tile numbers of its corners (R169). -/
structure TBox where
  first : BitVec 24
  last : BitVec 24
  deriving DecidableEq, Repr

/-- An operand word, with its extension word's boxes (R169). -/
structure Operand where
  ref : BitVec 16
  kind : Bool
  mode : BitVec 2
  qo : Bool
  qr : BitVec 4
  boxes : List TBox
  deriving DecidableEq, Repr

/-- Who makes a control-space write: a firmware core, an application core with its world, or the test access port. -/
inductive Writer where
  | firmware
  | app (secure : Bool)
  | tap
  deriving DecidableEq, Repr

/-- What a coherent access does to its word (R100, R318, R319). -/
inductive AccKind where
  | load
  | store (v : Word)
  | aadd (v : Word)
  | aswap (v : Word)
  | acas (cmp new : Word)
  | amin (v : Word)
  | amax (v : Word)
  | aand (v : Word)
  | aor (v : Word)
  deriving DecidableEq, Repr

/-- A coherent access of an application or firmware core to a physical address: one naturally aligned word (R101). -/
structure MemOp where
  addr : Nat
  /-- log2 of the width in bytes -/
  lw : BitVec 2
  kind : AccKind
  deriving DecidableEq, Repr

/-- An inbound PCI Express request: at most one 256-B chunk of a frame, read or written (R392). -/
structure Inbound where
  addr : Nat
  len : Nat
  write : Bool
  /-- the bytes of a write, the first lowest; at most 512 (R390) -/
  data : BitVec 4096
  /-- owner, key and secure flag of an end-to-end prefix -/
  pfx : Option (BitVec 4 × BitVec 6 × Bool)
  deriving DecidableEq, Repr

/-- Who asks for a pre-emption (R361). -/
inductive Preemptor where
  | dispatcher
  | watchdog
  | debugHalt
  | ownership
  | fault
  deriving DecidableEq, Repr

/-- The instructions and events of the part. -/
inductive Instr where
  /-- POWER_ON (R394): Power-on: the timebase and FCYC start from 0, the fuses are sensed and the boot sequence begins. -/
  | powerOn
  /-- WARM_RESET (R394): A write of WRST requests a warm reset, which discards streams, jobs, park entries and events and reruns boot from step 2. -/
  | warmReset (w : Writer)
  /-- SELF_TEST_COMPLETE (R373): Self-test ends; scratchpads are zeroed, CMAPN is loaded into CMAP, HBM is trained and keys are cleared before boot goes on. -/
  | selfTestComplete
  /-- BOOT_GO (R394): A write of BOOTGO in state waiting makes the ROM copy the image from the host aperture and start verifying it. -/
  | bootGo (w : Writer)
  /-- BOOT_VERIFY_COMPLETE (R395): Image verification ends: on success FWMODE is latched, the measurement is recorded, the clock goes to 1.6 GHz and the firmware cores start; otherwise BOOTSTAT reads failed. -/
  | bootVerifyComplete
  /-- CMAPN_WRITE (R12): A secure firmware write of CMAPN is checked for range, duplicate sites and writer, and is either stored or refused. -/
  | cmapnWrite (w : Writer) (cl : Nat) (v : BitVec 32)
  /-- CONTROL_REGISTER_WRITE (R24): A control-space write to a register with no behaviour of its own is checked for writer and reserved values and then stored, or it ends with a control-space error. -/
  | controlRegisterWrite (w : Writer) (off : Nat) (v : BitVec 512)
  /-- HOST_DEVICE_ACCESS (R38): An application-core load, store or atomic to device memory is served under the bias bit and takes a logical time. -/
  | hostDeviceAccess (app : Nat) (secure : Bool) (a : MemOp)
  /-- HOST_INTERRUPT (R389): A write of HIRQ raises application-core interrupt line i. -/
  | hostInterrupt (w : Writer) (line : BitVec 6)
  /-- INBOUND_REQUEST (R392): An inbound PCI Express request is accepted or refused by INEN, checked under R31 checks 5 to 9 and served on the owner's slots. -/
  | inboundRequest (port : Nat) (q : Inbound)
  /-- DIAGDATA_READ (R60): A read of DIAGDATA returns the row selected by DIAGSEL without ECC correction, or ends with an error while the group is held. -/
  | diagdataRead (w : Writer) (core : Nat)
  /-- DIAGDATA_WRITE (R61): A write of DIAGDATA stores the selected row with fresh check bits and touches no parity, queue or stale bit. -/
  | diagdataWrite (w : Writer) (core : Nat) (v : Wide)
  /-- CECNT_CLEAR (R60): Any write to CECNTb clears the corrected-error count of bank b. -/
  | cecntClear (w : Writer) (core bank : Nat)
  /-- GCTL_FORMAT_WRITE (R62): A GCTLg write of FMT sets the format of group g, and is refused for a reserved code or while a job holds the group with a different format. -/
  | gctlFormatWrite (w : Writer) (core grp : Nat) (fmt : BitVec 4)
  /-- RETIRE_DATA_BANK (R55): A GCTLg write with RETEN and RETB requests retirement of a data bank, and is refused if it would leave two retired banks or the parity is lost. -/
  | retireDataBank (w : Writer) (core grp : Nat) (retb : BitVec 2)
  /-- RETIRE_PARITY_BANK (R55): A GCTLg write with PRET requests retirement of the parity bank of the group. -/
  | retireParityBank (w : Writer) (core grp : Nat)
  /-- RETIREMENT_EFFECT (R55): Once the group's queue is empty, an accepted retirement takes effect and GSTS shows DEG or NOSEC. -/
  | retirementEffect (core grp : Nat)
  /-- REBUILD (R58): A GCTLg write of REBUILD starts recomputation of every parity row of the group, or is refused. -/
  | rebuild (w : Writer) (core grp : Nat)
  /-- REBUILD_ROW_STEP (R58): Each cycle of a rebuild recomputes one parity row; after the last of 512, PLOST and REBUILD clear. -/
  | rebuildRowStep (core grp : Nat)
  /-- GROUP_DISABLE (R59): A GCTLg write of DIS disables the group for placement, refused while the group is held. -/
  | groupDisable (w : Writer) (core grp : Nat)
  /-- PARITY_DRAIN (R51): In a cycle in which the parity bank is idle, the head entry of the group's parity update queue is XORed into its parity row and leaves the queue. -/
  | parityDrain (core grp : Nat)
  /-- BUNDLE_DECODE (R433): The running context's next bundle is decoded through the ordered checks and either issues, holds, blocks or traps. -/
  | bundleDecode (core : Nat)
  /-- HELD_BUNDLE_ISSUE (R46): A bundle held on stale parity, a full queue, a port hold or a retirement issues once its hold has passed. -/
  | heldBundleIssue (core : Nat)
  /-- CONTEXT_READY (R150): A blocked context's condition clears and it becomes ready; an idle core issues it in the next cycle. -/
  | contextReady (core ctx : Nat)
  /-- ISSUE_LIMIT_EXPIRY (R151): A context that has issued on 4,096 consecutive cycles while a sibling was ready gives up the issue slot. -/
  | issueLimitExpiry (core : Nat)
  /-- BUNDLE_CHUNK_ARRIVAL (R435): A missed code chunk arrives in the bundle cache and the waiting context becomes ready. -/
  | bundleChunkArrival (core ctx : Nat)
  /-- REGISTER_RESULT_LANDING (R203): The result of a producer of latency above 1 is written and its register marked full. -/
  | registerResultLanding (core ctx id : Nat)
  /-- DOMAIN_WAKE_COMPLETE (R214): A vector power domain turned on or woken comes on 32 cycles after the request and blocked accesses proceed. -/
  | domainWakeComplete (core dom : Nat)
  /-- BEAT_LANDING (R297): An MSHIFT beat writes its accumulator row at the end of cycle t + 19 and raises its flags. -/
  | beatLanding (core : Nat)
  /-- COPY_ACCEPTANCE (R310): When a missed descriptor arrives, the copy makes its acceptance checks and takes its issue effects or traps. -/
  | copyAcceptance (id : Nat)
  /-- DESCRIPTOR_FETCH_RETURN (R85): A descriptor read for a layout unit's descriptor cache returns and is cached. -/
  | descriptorFetchReturn (unit : Nat)
  /-- CHUNK_TRANSLATE (R31): A layout unit translates the next chunk in ordinal order, applying the checks of R31 to the cached or acquired entry. -/
  | chunkTranslate (id : Nat)
  /-- HOLD_ACQUISITION (R86): An atomic read-modify-write of a tile entry acquires a hold by incrementing RDCNT and caches the entry, or retries or faults. -/
  | holdAcquisition (id : Nat)
  /-- HOLD_IDLE_EXPIRY (R86): A cached entry with no chunk in flight for 64 cycles releases its hold by a posted RDCNT decrement. -/
  | holdIdleExpiry (unit : Nat)
  /-- PARK_RETRY (R90): A faulting request waiting for room in the park table or fault ring parks once both have room. -/
  | parkRetry (id : Nat)
  /-- WATCH_TRAP (R97): A context takes a watch trap at its first bundle boundary after the layout unit reports the hit. -/
  | watchTrap (core ctx : Nat)
  /-- PEER_CHUNK_COMPLETION (R88): A peer chunk's completion returns over PCI Express, or a refusal faults the chunk with the peer's cause. -/
  | peerChunkCompletion (id ord : Nat)
  /-- PEER_COMPLETION_TIMEOUT (R88): A peer chunk whose link errors or times out faults with cause peer unreachable. -/
  | peerCompletionTimeout (id ord : Nat)
  /-- PEER_FLUSH_COMPLETE (R118): The zero-length read after a task's last peer write completes, acknowledging the peer writes. -/
  | peerFlushComplete (queue coach : Nat)
  /-- CHUNK_COMPLETE (R312): A chunk's lines have all returned or been acknowledged and the chunk is performed. -/
  | chunkComplete (id ord : Nat)
  /-- COPY_ROW_WRITE (R312): A copy engine writes one tile row in a bank cycle left free by the bundle, once every byte of it has arrived. -/
  | copyRowWrite (id row : Nat)
  /-- COPY_ROW_READ (R312): A COPYO engine reads the tile rows a translated chunk needs in a free bank cycle. -/
  | copyRowRead (id row : Nat)
  /-- COHERENT_ACCESS_COMPLETE (R318): A GLD, GST or atomic is performed at its line's home and its data returns to the destination register. -/
  | coherentAccessComplete (id : Nat)
  /-- WRITEBACK_ACK (R71): A write-back's acknowledgement arrives and its entry leaves the write-back buffer. -/
  | writebackAck (cl line : Nat)
  /-- REFRESH_SLOT (R78): A pseudo-channel timetable position owned by refresh refreshes the HBM. -/
  | refreshSlot (pc : Nat)
  /-- WAYPART_WRITE (R73): A control-space write of WAYPART starts a grow or shrink of the window, has no effect, or is refused. -/
  | waypartWrite (w : Writer) (cl : Nat) (v : Word)
  /-- WINDOW_GROW_VISIT (R74): The grow sweep visits one line per cycle, writing back a dirty line and zeroing it. -/
  | windowGrowVisit (cl : Nat)
  /-- WINDOW_SHRINK_VISIT (R75): After chunks translated before the shrink complete, the sweep invalidates and zeroes one line per cycle without write-back. -/
  | windowShrinkVisit (cl : Nat)
  /-- COMMIT (R80): A write of COMMIT schedules every shadow timetable of the block to replace its live table at the next 64-cycle boundary. -/
  | commit (w : Writer) (blk : Nat)
  /-- TIMETABLE_SWITCH (R80): At the first cycle with FCYC mod 64 = 0 after a commit, the shadows become the live timetables. -/
  | timetableSwitch (blk : Nat)
  /-- SWAP_TAIL_WRITE (R82): Firmware writes SWTAIL, giving the swap engine new commands. -/
  | swapTailWrite (w : Writer) (v : BitVec 12)
  /-- SWAP_COMMAND (R83): The swap engine takes the next command in ring order, checks its entries and posts drain requests. -/
  | swapCommand
  /-- SWAP_MARK (R83): Once RDCNT is 0 the engine marks the tile migrating and copies its chunks to the other frame. -/
  | swapMark
  /-- SWAP_COPY_COMPLETE (R83): The tile copy ends; the engine writes the new FRAME, invalidates, clears MIG and writes STATUS, or fails with code 3 or 4. -/
  | swapCopyComplete
  /-- REPLAY (R92): A write of REPLAY makes every parked request re-enter its layout unit and resume at its cursor. -/
  | replay (w : Writer)
  /-- PARKEND (R93): A write of PARKEND discards the parked request in a place and faults its task with cause translation. -/
  | parkend (w : Writer) (place : Nat)
  /-- INVALIDATE_IDENTIFIER (R95): INVCMD GO with KIND 0b00 invalidates one identifier's descriptor and every tile in every layout unit. -/
  | invalidateIdentifier (w : Writer) (tid : BitVec 16)
  /-- INVALIDATE_TILE_RANGE (R95): INVCMD GO with KIND 0b01 invalidates a tile range of one identifier. -/
  | invalidateTileRange (w : Writer) (tid : BitVec 16)
  /-- INVALIDATE_EVERYTHING (R95): INVCMD GO with KIND 0b10 invalidates every cached descriptor and entry. -/
  | invalidateEverything (w : Writer)
  /-- INVALIDATION_REPORT (R95): When every unit has drained and dropped the entries, GO clears and INVSEQ increments. -/
  | invalidationReport
  /-- BIAS_FLIP (R98): A write of BFCMD checks the entry and posts a drain request to start a bias flip. -/
  | biasFlip (w : Writer) (entry : Nat)
  /-- BIAS_FLIP_MARK (R98): Once RDCNT is 0 the flip sets MIG to 0b10 and drains the losing side. -/
  | biasFlipMark
  /-- BIAS_FLIP_INVERT (R98): After the losing side is drained, the frame's bias bit is inverted and BFSTAT reads waiting. -/
  | biasFlipInvert
  /-- BIAS_FLIP_END (R98): A write of BFEND clears MIG and invalidates the entry, or ends with an error when the flip is not waiting. -/
  | biasFlipEnd (w : Writer)
  /-- CLOCK_ADVANCE (R105): Every CADV.PER cycles each placed context, stream engine and firmware core adds 1 to its logical clock. -/
  | clockAdvance
  /-- ROLLOVER_REQUEST (R106): A write of ROLL requests a rollover of every clock and stamp. -/
  | rolloverRequest (w : Writer)
  /-- ROLLOVER_START (R106): At the next 64-cycle boundary a rollover starts: no slot is taken, leases are dropped and every clock and stamp is set to 0. -/
  | rolloverStart
  /-- ROLLOVER_END (R106): 128 cycles after it started, the rollover ends and EPOCH increments. -/
  | rolloverEnd
  /-- COACH_ISSUE (R191): The engine issues the oldest waiting coach whose resource can take it. -/
  | coachIssue (queue : Nat)
  /-- JOB_PLACEMENT (R434): The kernel header returns and the dispatcher places the job, reading the tile map and entry chunk and resetting state. -/
  | jobPlacement (job : Nat)
  /-- JOB_START (R434): The placed job's contexts become ready once p + 16 has passed and the reads have returned. -/
  | jobStart (job : Nat)
  /-- GANG_BUNDLE_SEND (R153): The cluster sequencer sends the next bundle to every gang member at the earliest cycle all can issue it. -/
  | gangBundleSend (job : Nat)
  /-- ROLLBACK (R160): A rollback event stops issue on the context, squashes producers and waits for inbound copies, or becomes a task fault. -/
  | rollback (core ctx : Nat)
  /-- ROLLBACK_RESTORE (R160): After inbound copies finish, held outbound copies are discarded, the checkpoint is restored and the context resumes at segment entry. -/
  | rollbackRestore (core ctx : Nat)
  /-- PREEMPTION_REQUEST (R360): Pre-emption of a job is requested, or withdrawn when the siding lacks frames. -/
  | preemptionRequest (job : Nat) (who : Preemptor)
  /-- PREEMPTION_HALT (R360): The job's contexts halt at a bundle boundary within 96 cycles of the request. -/
  | preemptionHalt (job : Nat)
  /-- JOB_SWAP_OUT (R360): After outstanding work completes, the job's image is written to HBM frames. -/
  | jobSwapOut (job : Nat)
  /-- JOB_RESTORE (R360): A swapped-out job is restored whole onto free positions from its complete image. -/
  | jobRestore (job : Nat)
  /-- COACH_COMPLETE (R114): A coach completes when its job or engine has finished and its writes are performed at its completion scope. -/
  | coachComplete (queue coach : Nat)
  /-- COACH_RETIRE (R192): The oldest completed coach retires, freeing wagons it releases and discarding its deltas. -/
  | coachRetire (queue : Nat)
  /-- WAGON_FREE (R187): A released wagon whose reader count is zero is invalidated, its frames sent for zeroing and it returns to the siding. -/
  | wagonFree (wagon : Nat)
  /-- WAGON_FILL (R187): A read-write wagon is filled from its old wagon by a front-end copy engine before its job is placed. -/
  | wagonFill (queue coach : Nat)
  /-- TWAIT_LOAD_RETURN (R181): A TWAIT load returns and either satisfies the condition, completing the coach, or issues the next load. -/
  | twaitLoadReturn (queue : Nat)
  /-- DECODE_READ_RETURN (R190): A template, raw descriptor or TLDQ read made at decode returns and decode goes on. -/
  | decodeReadReturn (queue : Nat)
  /-- TFENCE_COMPLETE (R179): Every older coach has completed and its writes are visible at scope, so decode resumes. -/
  | tfenceComplete (queue : Nat)
  /-- STREAM_FAULT (R197): A coach reports a fault; the engine stops decode and kills younger issued coaches. -/
  | streamFault (queue coach : Nat)
  /-- FAULT_DELTA_RESTORE (R197): Once older coaches retire and stopped work has ended, deltas are undone, wagons freed and the stream fault record written. -/
  | faultDeltaRestore (queue : Nat)
  /-- FRAME_ZEROING (R186): A zeroing request takes the next free front-end copy engine to zero a frame. -/
  | frameZeroing
  /-- FRAME_ZEROED (R186): The last zeroing write is acknowledged and the frame enters its siding. -/
  | frameZeroed (fe : Nat)
  /-- XBAR_OP_START (R330): A queued crossbar operation starts at the first bank tick at which its arrays are idle and the converter limit allows. -/
  | xbarOpStart (core id : Nat)
  /-- XMVM_LANDING (R332): An XMVM lands at tick k0 + 136, writing its reserved result entries. -/
  | xmvmLanding (core id : Nat)
  /-- XBAR_OP_COMPLETE (R331): An XPROG, XVER, XMON or XCAL.mon reaches its completion tick and updates the code image, record or status. -/
  | xbarOpComplete (core id : Nat)
  /-- AUTO_MONITOR_RUN (R339): Every MONPER timebase ticks the controller runs the drift monitor on each array of a powered bank. -/
  | autoMonitorRun (core : Nat)
  /-- BANK_WAKE_COMPLETE (R346): 1,999 cycles after XWAKE the bank is on again, or goes gated if XGATE was issued while waking. -/
  | bankWakeComplete (core : Nat)
  /-- QTAIL_WRITE (R351): A write of QTAIL starts the copy of new ring bytes into the task buffer and sets the wake latch. -/
  | qtailWrite (w : Writer) (queue : Nat) (v : BitVec 16)
  /-- RING_LINE_RETURN (R351): A ring line read by the command processor returns and its bytes become visible to decode. -/
  | ringLineReturn (queue : Nat)
  /-- QUEUE_WAKE (R349): A write of QWAKE sets the queue's wake latch. -/
  | queueWake (w : Writer) (queue : Nat)
  /-- QUEUE_REQUEST (R353): A write of QREQ posts a request event with the value written. -/
  | queueRequest (w : Writer) (queue : Nat) (v : Word)
  /-- QUEUE_ENABLE (R350): A QCTL write of EN = 1 creates the queue's stream and zeroes QTAIL. -/
  | queueEnable (w : Writer) (queue : Nat)
  /-- QUEUE_DISABLE (R350): A QCTL write of EN = 0 disables an idle, faulted or ended queue, or is refused. -/
  | queueDisable (w : Writer) (queue : Nat)
  /-- STREAM_RESUME (R365): A QCTL write of RESUME makes a faulted stream runnable again from TADDR. -/
  | streamResume (w : Writer) (queue : Nat)
  /-- STREAM_DISCARD (R365): A QCTL write of DISCARD ends a faulted stream, releasing its names. -/
  | streamDiscard (w : Writer) (queue : Nat)
  /-- EVENT_TAKE (R354): A firmware core's read of EVTAKE returns the oldest event with a free key and takes its ordering lock. -/
  | eventTake (fw : Nat)
  /-- EVENT_DONE (R354): A write of EVDONE releases the ordering lock of the event's queue. -/
  | eventDone (fw : Nat)
  /-- FIRMWARE_PAIR_MISMATCH (R355): A firmware pair's signatures differ; the pair stops and its event returns to the queue, and freeze follows if no pair remains. -/
  | firmwarePairMismatch (pair : Nat)
  /-- MAPPING_DECISION (R357): The scheduler gives a free engine to the first candidate queue, or unmaps a queue at the end of its slice. -/
  | mappingDecision
  /-- MAPPING_COMPLETE (R357): 8,192 cycles after mapping began, the window and buffer are loaded and the engine decodes. -/
  | mappingComplete (eng : Nat)
  /-- SLICE_EXPIRY (R357): A mapped queue's slice of QSLICE ticks ends and a mapping decision follows. -/
  | sliceExpiry (eng : Nat)
  /-- UNMAP (R358): A write of UNMAP starts the five-step unmapping of the engine's queue. -/
  | unmap (w : Writer) (eng : Nat)
  /-- UNMAP_SAVE_COMPLETE (R358): After the save, the mapping is removed, deferred copies go to the image and the wake latch is checked again. -/
  | unmapSaveComplete (eng : Nat)
  /-- DISPATCH (R359): The dispatcher places an issued job in an open cluster or chooses a victim to pre-empt, or makes it wait. -/
  | dispatch (job : Nat)
  /-- WATCHDOG_STAGE_1 (R362): At WD1 the watchdog requests pre-emption of the oldest coach's job and posts an event. -/
  | watchdogStage1 (queue : Nat)
  /-- WATCHDOG_STAGE_2 (R362): At WD2 the oldest coach faults with cause killed. -/
  | watchdogStage2 (queue : Nat)
  /-- WATCHDOG_STAGE_3 (R362): At WD3 cores not halted are fenced, their contexts discarded and marked suspect. -/
  | watchdogStage3 (queue : Nat)
  /-- CLUSTER_MOVE_START (R364): A CLOWN write with GO stops placement of the old owner and pre-empts every job of the cluster. -/
  | clusterMoveStart (w : Writer) (cl : Nat) (new : BitVec 4)
  /-- CLUSTER_MOVE_SWAPPED (R364): Once every job is swapped out or killed, the window shrinks to 0 and the old owner's lines are written back. -/
  | clusterMoveSwapped (cl : Nat)
  /-- CLUSTER_MOVE_COMPLETE (R364): Scratchpads and vector files are cleared, banks reset, shadow timetables committed and OWNER set to NEW. -/
  | clusterMoveComplete (cl : Nat)
  /-- TRAP_RESUME (R369): TACT resume re-decodes the trapped bundle with DONEMASK slots as NOP. -/
  | trapResume (w : Writer) (agent : Nat)
  /-- TRAP_FATAL (R369): TACT fatal faults the job's coach with cause 12. -/
  | trapFatal (w : Writer) (agent : Nat)
  /-- KNOWN_ANSWER_CHECK (R372): Every PER cycles a known-answer check is injected into empty M and V slots; a mismatch faults the job and marks the core suspect. -/
  | knownAnswerCheck (core : Nat)
  /-- DUMP_REQUEST (R374): A write of DUMPREQ queues a dump of an agent. -/
  | dumpRequest (w : Writer) (agent : Nat)
  /-- DUMP_START (R374): The dump engine takes the next request and starts writing the context image to the dump ring. -/
  | dumpStart
  /-- DUMP_COMPLETE (R374): A dump finishes and the faulting job may be discarded. -/
  | dumpComplete
  /-- DUMP_ABORT (R375): An error in the dump engine's path ends the dump with a minimal record in the on-die area. -/
  | dumpAbort (code : Nat)
  /-- DMASK_WRITE (R377): A write of DMASKn sets the DONEMASK of a trapped agent, refused if it is not trapped. -/
  | dmaskWrite (w : Writer) (agent : Nat) (v : BitVec 8)
  /-- DEBUG_HALT (R378): A write of DHALT stops the agent's job at a bundle boundary with a class 13 trap. -/
  | debugHalt (w : Writer) (agent : Nat)
  /-- BRAKE_VAN_ENABLE (R380): A BVCTL write of EN = 1 starts accepting records, clearing STOPPED after a disable and zeroing BVHEAD. -/
  | brakeVanEnable (w : Writer)
  /-- BRAKE_VAN_DISABLE (R380): A BVCTL write of EN = 0 stops accepting records. -/
  | brakeVanDisable (w : Writer)
  /-- BRAKE_VAN_STOP (R380): A BVCTL write of STOP, or an event in STOPON, sets STOPPED. -/
  | brakeVanStop (w : Writer)
  /-- BRAKE_VAN_WRITE (R384): A record leaves the merge FIFO and is written to the ring in HBM. -/
  | brakeVanWrite
  /-- SAMPLE (R385): Every SPER cycles a core writes a SAMPLE record of the bundle at decode. -/
  | sample (core : Nat)
  /-- LOOP_COUNTER_CLEAR (R386): A write of LPCLR clears an agent's seven level records. -/
  | loopCounterClear (w : Writer) (agent : Nat)
  /-- FREEZE (R387): A write of FREEZE stops every clock of the part, the timebase included. -/
  | freeze (w : Writer)
  /-- ATTESTATION_REQUEST (R396): ATTREQ GO makes the security block build and sign a report of the current state. -/
  | attestationRequest (w : Writer)
  /-- ATTESTATION_COMPLETE (R396): The report's writes are visible at device scope and GO reads 0. -/
  | attestationComplete
  /-- KEY_LOAD (R398): A write of KEYLD loads key k from KEYBUF and sets VALID, refused if VALID is 1. -/
  | keyLoad (w : Writer) (k : BitVec 6)
  /-- KEY_REVOKE (R398): A write of KCLR stops translation through entries with the key and waits for its chunks and swaps. -/
  | keyRevoke (w : Writer) (k : BitVec 6)
  /-- KEY_REVOKE_COMPLETE (R398): The key's chunks have completed; VALID is cleared, the key erased and GO reads 0. -/
  | keyRevokeComplete
  /-- THERMAL_WARNING (R400): A temperature reading reaching TWARN posts a thermal event. -/
  | thermalWarning (c : Nat) (t : BitVec 12)
  /-- THERMAL_CRITICAL (R400): A cluster reading reaching TCRIT forces THRL to 7 on its cores. -/
  | thermalCritical (c : Nat) (t : BitVec 12)
  /-- THERMAL_SHUTDOWN (R400): A reading reaching TSHUT enters freeze and drops the supply request. -/
  | thermalShutdown (c : Nat) (t : BitVec 12)
  /-- FIRMWARE_CORE_ACCESS (R100): A firmware core's load, store or atomic to device memory is a coherent access that takes a logical time and is published to every agent when performed. -/
  | firmwareCoreAccess (fw : Nat) (a : MemOp)
  /-- READING_BELOW_TWARN (R400): A cluster temperature reading falls back below TWARN, ending the period in which MTS writes to THRL on its cores are discarded. -/
  | readingBelowTwarn (c : Nat) (t : BitVec 12)
  /-- SIDING_TRIM (R186): Firmware trims a frame siding, taking frames out of it. -/
  | sidingTrim (w : Writer) (siding : Nat) (frame : Nat)
  /-- KERN (R172): Task that runs a kernel as a job on one context, placed by the dispatcher. -/
  | kern (t : TaskHdr) (ops : List Operand)
  /-- GANG (R172): Task that runs a kernel as a gang of 2 to 8 contexts in one cluster. -/
  | gang (t : TaskHdr) (ops : List Operand)
  /-- TCOPY (R174): Task that copies boxes between tensors on a front-end copy engine. -/
  | tcopy (t : TaskHdr) (ops : List Operand)
  /-- TFILL (R175): Task that writes a constant into every element of the operand's boxes. -/
  | tfill (t : TaskHdr) (ops : List Operand)
  /-- TDEF (R176): Task that reads a descriptor as a name's template. -/
  | tdef (t : TaskHdr) (ops : List Operand)
  /-- TBIND (R176): Task that binds a name to a raw tensor identifier. -/
  | tbind (t : TaskHdr) (ops : List Operand)
  /-- TDROP (R176): Task that drops a name's wagon or raw binding. -/
  | tdrop (t : TaskHdr) (ops : List Operand)
  /-- TSIG (R178): Task that stores a task register into a signal word as a release when oldest. -/
  | tsig (t : TaskHdr) (ops : List Operand)
  /-- TWAIT (R181): Task that polls a signal word until a condition against a task register holds. -/
  | twait (t : TaskHdr) (ops : List Operand)
  /-- TFENCE (R179): Task that stops decode until older coaches complete with writes visible at scope. -/
  | tfence (t : TaskHdr) (ops : List Operand)
  /-- TSET (R182): Task that sets a task register to an immediate. -/
  | tset (t : TaskHdr) (ops : List Operand)
  /-- TADD (R182): Task that adds an immediate to a task register. -/
  | tadd (t : TaskHdr) (ops : List Operand)
  /-- TLDQ (R180): Task that loads a signal word into a task register at decode. -/
  | tldq (t : TaskHdr) (ops : List Operand)
  /-- TLOOP (R182): Task that decrements a task register and jumps while it is nonzero. -/
  | tloop (t : TaskHdr) (ops : List Operand)
  /-- TJMP (R182): Task that jumps to a task address. -/
  | tjmp (t : TaskHdr) (ops : List Operand)
  /-- TBRZ (R182): Task that jumps when a task register is zero. -/
  | tbrz (t : TaskHdr) (ops : List Operand)
  /-- TMARK (R183): Task that writes a brake-van marker record when oldest. -/
  | tmark (t : TaskHdr) (ops : List Operand)
  /-- TPRI (R183): Task that sets the queue's priority when oldest. -/
  | tpri (t : TaskHdr) (ops : List Operand)
  /-- THALT (R183): Task that stops decode and ends the stream when it retires. -/
  | thalt (t : TaskHdr) (ops : List Operand)
  /-- NOP (R216): The all-zero slot word does nothing. -/
  | nop
  /-- ADD (R239): d := a + b modulo 2^64. -/
  | add (h : Hd) (d : BitVec 6) (a : BitVec 6) (b : BitVec 6)
  /-- SUB (R239): d := a - b modulo 2^64. -/
  | sub (h : Hd) (d : BitVec 6) (a : BitVec 6) (b : BitVec 6)
  /-- AND (R239): d := a AND b. -/
  | and (h : Hd) (d : BitVec 6) (a : BitVec 6) (b : BitVec 6)
  /-- OR (R239): d := a OR b. -/
  | or (h : Hd) (d : BitVec 6) (a : BitVec 6) (b : BitVec 6)
  /-- XOR (R239): d := a XOR b. -/
  | xor (h : Hd) (d : BitVec 6) (a : BitVec 6) (b : BitVec 6)
  /-- ANDN (R239): d := a AND NOT b. -/
  | andn (h : Hd) (d : BitVec 6) (a : BitVec 6) (b : BitVec 6)
  /-- SHL (R239): Shift left by b[5:0]. -/
  | shl (h : Hd) (d : BitVec 6) (a : BitVec 6) (b : BitVec 6)
  /-- SHR (R239): Logical shift right by b[5:0]. -/
  | shr (h : Hd) (d : BitVec 6) (a : BitVec 6) (b : BitVec 6)
  /-- SAR (R239): Arithmetic shift right by b[5:0]. -/
  | sar (h : Hd) (d : BitVec 6) (a : BitVec 6) (b : BitVec 6)
  /-- MUL (R239): Low 64 bits of a × b. -/
  | mul (h : Hd) (d : BitVec 6) (a : BitVec 6) (b : BitVec 6)
  /-- MULH (R239): High 64 bits of the signed product. -/
  | mulh (h : Hd) (d : BitVec 6) (a : BitVec 6) (b : BitVec 6)
  /-- MULHN (R239): High 64 bits of the unsigned product. -/
  | mulhn (h : Hd) (d : BitVec 6) (a : BitVec 6) (b : BitVec 6)
  /-- DIV (R240): Signed quotient, 0 for division by zero. -/
  | div (h : Hd) (d : BitVec 6) (a : BitVec 6) (b : BitVec 6)
  /-- DIVN (R240): Unsigned quotient. -/
  | divn (h : Hd) (d : BitVec 6) (a : BitVec 6) (b : BitVec 6)
  /-- REM (R240): Signed remainder. -/
  | rem (h : Hd) (d : BitVec 6) (a : BitVec 6) (b : BitVec 6)
  /-- REMN (R240): Unsigned remainder. -/
  | remn (h : Hd) (d : BitVec 6) (a : BitVec 6) (b : BitVec 6)
  /-- MIN (R239): Signed minimum. -/
  | min (h : Hd) (d : BitVec 6) (a : BitVec 6) (b : BitVec 6)
  /-- MAX (R239): Signed maximum. -/
  | max (h : Hd) (d : BitVec 6) (a : BitVec 6) (b : BitVec 6)
  /-- MINN (R239): Unsigned minimum. -/
  | minn (h : Hd) (d : BitVec 6) (a : BitVec 6) (b : BitVec 6)
  /-- MAXN (R239): Unsigned maximum. -/
  | maxn (h : Hd) (d : BitVec 6) (a : BitVec 6) (b : BitVec 6)
  /-- ADD_IMM (R241): d := a + sign-extended imm6. -/
  | addImm (h : Hd) (d : BitVec 6) (a : BitVec 6) (i : BitVec 6)
  /-- AND_IMM (R241): d := a AND sign-extended imm6. -/
  | andImm (h : Hd) (d : BitVec 6) (a : BitVec 6) (i : BitVec 6)
  /-- OR_IMM (R241): d := a OR sign-extended imm6. -/
  | orImm (h : Hd) (d : BitVec 6) (a : BitVec 6) (i : BitVec 6)
  /-- XOR_IMM (R241): d := a XOR sign-extended imm6. -/
  | xorImm (h : Hd) (d : BitVec 6) (a : BitVec 6) (i : BitVec 6)
  /-- SHL_IMM (R241): Shift left by an unsigned imm6 count. -/
  | shlImm (h : Hd) (d : BitVec 6) (a : BitVec 6) (i : BitVec 6)
  /-- SHR_IMM (R241): Logical shift right by imm6. -/
  | shrImm (h : Hd) (d : BitVec 6) (a : BitVec 6) (i : BitVec 6)
  /-- SAR_IMM (R241): Arithmetic shift right by imm6. -/
  | sarImm (h : Hd) (d : BitVec 6) (a : BitVec 6) (i : BitVec 6)
  /-- SETW_0 (R242): Replace bits [11:0] of d with imm12. -/
  | setw0 (h : Hd) (d : BitVec 6) (i : BitVec 12)
  /-- SETW_1 (R242): Replace bits [23:12] of d with imm12. -/
  | setw1 (h : Hd) (d : BitVec 6) (i : BitVec 12)
  /-- SETW_2 (R242): Replace bits [35:24] of d with imm12. -/
  | setw2 (h : Hd) (d : BitVec 6) (i : BitVec 12)
  /-- SETW_3 (R242): Replace bits [47:36] of d with imm12. -/
  | setw3 (h : Hd) (d : BitVec 6) (i : BitVec 12)
  /-- SETW_4 (R242): Replace bits [59:48] of d with imm12. -/
  | setw4 (h : Hd) (d : BitVec 6) (i : BitVec 12)
  /-- SETW_5 (R242): Replace bits [63:60] of d with imm12[3:0]. -/
  | setw5 (h : Hd) (d : BitVec 6) (i : BitVec 4)
  /-- SEXT (R242): Sign-extend the low 8, 16 or 32 bits of a. -/
  | sext (h : Hd) (d : BitVec 6) (a : BitVec 6) (z : BitVec 2)
  /-- CLZ (R242): Count leading zero bits of a. -/
  | clz (h : Hd) (d : BitVec 6) (a : BitVec 6)
  /-- POPC (R242): Count one bits of a. -/
  | popc (h : Hd) (d : BitVec 6) (a : BitVec 6)
  /-- CMP_EQ (R243): Write a predicate pair from a = b. -/
  | cmpEq (h : Hd) (p : BitVec 4) (m : BitVec 2) (a : BitVec 6) (b : BitVec 6)
  /-- CMP_NE (R243): Write a predicate pair from a ≠ b. -/
  | cmpNe (h : Hd) (p : BitVec 4) (m : BitVec 2) (a : BitVec 6) (b : BitVec 6)
  /-- CMP_LT (R243): Write a predicate pair from signed a < b. -/
  | cmpLt (h : Hd) (p : BitVec 4) (m : BitVec 2) (a : BitVec 6) (b : BitVec 6)
  /-- CMP_LE (R243): Write a predicate pair from signed a ≤ b. -/
  | cmpLe (h : Hd) (p : BitVec 4) (m : BitVec 2) (a : BitVec 6) (b : BitVec 6)
  /-- CMP_LTN (R243): Write a predicate pair from unsigned a < b. -/
  | cmpLtn (h : Hd) (p : BitVec 4) (m : BitVec 2) (a : BitVec 6) (b : BitVec 6)
  /-- CMP_LEN (R243): Write a predicate pair from unsigned a ≤ b. -/
  | cmpLen (h : Hd) (p : BitVec 4) (m : BitVec 2) (a : BitVec 6) (b : BitVec 6)
  /-- CMP_EQ_IMM (R243): Compare a = sign-extended imm6. -/
  | cmpEqImm (h : Hd) (p : BitVec 4) (m : BitVec 2) (a : BitVec 6) (i : BitVec 6)
  /-- CMP_NE_IMM (R243): Compare a ≠ sign-extended imm6. -/
  | cmpNeImm (h : Hd) (p : BitVec 4) (m : BitVec 2) (a : BitVec 6) (i : BitVec 6)
  /-- CMP_LT_IMM (R243): Compare signed a < imm6. -/
  | cmpLtImm (h : Hd) (p : BitVec 4) (m : BitVec 2) (a : BitVec 6) (i : BitVec 6)
  /-- CMP_LE_IMM (R243): Compare signed a ≤ imm6. -/
  | cmpLeImm (h : Hd) (p : BitVec 4) (m : BitVec 2) (a : BitVec 6) (i : BitVec 6)
  /-- CMP_LTN_IMM (R243): Compare unsigned a < zero-extended imm6. -/
  | cmpLtnImm (h : Hd) (p : BitVec 4) (m : BitVec 2) (a : BitVec 6) (i : BitVec 6)
  /-- CMP_LEN_IMM (R243): Compare unsigned a ≤ zero-extended imm6. -/
  | cmpLenImm (h : Hd) (p : BitVec 4) (m : BitVec 2) (a : BitVec 6) (i : BitVec 6)
  /-- FADD_F32 (R244): FP32 add rounded once. -/
  | faddF32 (h : Hd) (d : BitVec 6) (a : BitVec 6) (b : BitVec 6)
  /-- FADD_F16 (R244): FP16 add. -/
  | faddF16 (h : Hd) (d : BitVec 6) (a : BitVec 6) (b : BitVec 6)
  /-- FADD_B16 (R244): BF16 add. -/
  | faddB16 (h : Hd) (d : BitVec 6) (a : BitVec 6) (b : BitVec 6)
  /-- FSUB_F32 (R244): FP32 subtract. -/
  | fsubF32 (h : Hd) (d : BitVec 6) (a : BitVec 6) (b : BitVec 6)
  /-- FSUB_F16 (R244): FP16 subtract. -/
  | fsubF16 (h : Hd) (d : BitVec 6) (a : BitVec 6) (b : BitVec 6)
  /-- FSUB_B16 (R244): BF16 subtract. -/
  | fsubB16 (h : Hd) (d : BitVec 6) (a : BitVec 6) (b : BitVec 6)
  /-- FMUL_F32 (R244): FP32 multiply. -/
  | fmulF32 (h : Hd) (d : BitVec 6) (a : BitVec 6) (b : BitVec 6)
  /-- FMUL_F16 (R244): FP16 multiply. -/
  | fmulF16 (h : Hd) (d : BitVec 6) (a : BitVec 6) (b : BitVec 6)
  /-- FMUL_B16 (R244): BF16 multiply. -/
  | fmulB16 (h : Hd) (d : BitVec 6) (a : BitVec 6) (b : BitVec 6)
  /-- FFMA_F32 (R244): FP32 fused multiply-add into d. -/
  | ffmaF32 (h : Hd) (d : BitVec 6) (a : BitVec 6) (b : BitVec 6)
  /-- FFMA_F16 (R244): FP16 fused multiply-add. -/
  | ffmaF16 (h : Hd) (d : BitVec 6) (a : BitVec 6) (b : BitVec 6)
  /-- FFMA_B16 (R244): BF16 fused multiply-add. -/
  | ffmaB16 (h : Hd) (d : BitVec 6) (a : BitVec 6) (b : BitVec 6)
  /-- FMIN_F32 (R244): FP32 minimumNumber. -/
  | fminF32 (h : Hd) (d : BitVec 6) (a : BitVec 6) (b : BitVec 6)
  /-- FMIN_F16 (R244): FP16 minimumNumber. -/
  | fminF16 (h : Hd) (d : BitVec 6) (a : BitVec 6) (b : BitVec 6)
  /-- FMIN_B16 (R244): BF16 minimumNumber. -/
  | fminB16 (h : Hd) (d : BitVec 6) (a : BitVec 6) (b : BitVec 6)
  /-- FMAX_F32 (R244): FP32 maximumNumber. -/
  | fmaxF32 (h : Hd) (d : BitVec 6) (a : BitVec 6) (b : BitVec 6)
  /-- FMAX_F16 (R244): FP16 maximumNumber. -/
  | fmaxF16 (h : Hd) (d : BitVec 6) (a : BitVec 6) (b : BitVec 6)
  /-- FMAX_B16 (R244): BF16 maximumNumber. -/
  | fmaxB16 (h : Hd) (d : BitVec 6) (a : BitVec 6) (b : BitVec 6)
  /-- FCMP_EQ_F32 (R245): FP32 equal compare into a predicate pair. -/
  | fcmpEqF32 (h : Hd) (p : BitVec 4) (m : BitVec 2) (a : BitVec 6) (b : BitVec 6)
  /-- FCMP_EQ_F16 (R245): FP16 equal compare. -/
  | fcmpEqF16 (h : Hd) (p : BitVec 4) (m : BitVec 2) (a : BitVec 6) (b : BitVec 6)
  /-- FCMP_EQ_B16 (R245): BF16 equal compare. -/
  | fcmpEqB16 (h : Hd) (p : BitVec 4) (m : BitVec 2) (a : BitVec 6) (b : BitVec 6)
  /-- FCMP_LT_F32 (R245): FP32 less-than compare. -/
  | fcmpLtF32 (h : Hd) (p : BitVec 4) (m : BitVec 2) (a : BitVec 6) (b : BitVec 6)
  /-- FCMP_LT_F16 (R245): FP16 less-than compare. -/
  | fcmpLtF16 (h : Hd) (p : BitVec 4) (m : BitVec 2) (a : BitVec 6) (b : BitVec 6)
  /-- FCMP_LT_B16 (R245): BF16 less-than compare. -/
  | fcmpLtB16 (h : Hd) (p : BitVec 4) (m : BitVec 2) (a : BitVec 6) (b : BitVec 6)
  /-- FCMP_LE_F32 (R245): FP32 less-or-equal compare. -/
  | fcmpLeF32 (h : Hd) (p : BitVec 4) (m : BitVec 2) (a : BitVec 6) (b : BitVec 6)
  /-- FCMP_LE_F16 (R245): FP16 less-or-equal compare. -/
  | fcmpLeF16 (h : Hd) (p : BitVec 4) (m : BitVec 2) (a : BitVec 6) (b : BitVec 6)
  /-- FCMP_LE_B16 (R245): BF16 less-or-equal compare. -/
  | fcmpLeB16 (h : Hd) (p : BitVec 4) (m : BitVec 2) (a : BitVec 6) (b : BitVec 6)
  /-- FCVT (R246): Convert between floating-point formats with a rounding mode. -/
  | fcvt (h : Hd) (d : BitVec 6) (a : BitVec 6) (r : BitVec 2) (x : BitVec 2) (y : BitVec 2)
  /-- ITOF (R246): Convert a signed or unsigned 64-bit integer to floating point. -/
  | itof (h : Hd) (d : BitVec 6) (a : BitVec 6) (r : BitVec 2) (u : BitVec 1) (y : BitVec 2)
  /-- FTOI (R246): Convert floating point to a signed integer of W bits. -/
  | ftoi (h : Hd) (d : BitVec 6) (a : BitVec 6) (r : BitVec 2) (x : BitVec 2) (z : BitVec 2)
  /-- FTOI_N (R246): Convert floating point to an unsigned integer of W bits. -/
  | ftoiN (h : Hd) (d : BitVec 6) (a : BitVec 6) (r : BitVec 2) (x : BitVec 2) (z : BitVec 2)
  /-- PAND (R247): Pd := Pa AND Pb. -/
  | pand (h : Hd) (p : BitVec 4) (a : BitVec 4) (b : BitVec 4)
  /-- POR (R247): Pd := Pa OR Pb. -/
  | por (h : Hd) (p : BitVec 4) (a : BitVec 4) (b : BitVec 4)
  /-- PXOR (R247): Pd := Pa XOR Pb. -/
  | pxor (h : Hd) (p : BitVec 4) (a : BitVec 4) (b : BitVec 4)
  /-- PANDN (R247): Pd := Pa AND NOT Pb. -/
  | pandn (h : Hd) (p : BitVec 4) (a : BitVec 4) (b : BitVec 4)
  /-- PMOV (R247): Pd := Pa. -/
  | pmov (h : Hd) (p : BitVec 4) (a : BitVec 4)
  /-- SEL (R248): d := a if the guard is true, else b; always writes. -/
  | sel (h : Hd) (d : BitVec 6) (a : BitVec 6) (b : BitVec 6)
  /-- MOVA (R249): Copy an address register into an s register. -/
  | mova (h : Hd) (d : BitVec 6) (f : BitVec 1) (r : BitVec 4)
  /-- MFS (R249): Read a special register into an s register. -/
  | mfs (h : Hd) (d : BitVec 6) (i : BitVec 12)
  /-- MTS (R249): Write an s register into a special register, subject to the traps of R35. -/
  | mts (h : Hd) (s : BitVec 6) (i : BitVec 12)
  /-- VADD_I8 (R269): Element-wise i8 add. -/
  | vaddI8 (h : Hd) (u : Unit2) (d : BitVec 6) (a : BitVec 6) (b : BitVec 6)
  /-- VADD_I16 (R269): Element-wise i16 add. -/
  | vaddI16 (h : Hd) (u : Unit2) (d : BitVec 6) (a : BitVec 6) (b : BitVec 6)
  /-- VADD_I32 (R269): Element-wise i32 add. -/
  | vaddI32 (h : Hd) (u : Unit2) (d : BitVec 6) (a : BitVec 6) (b : BitVec 6)
  /-- VADD_F16 (R269): Element-wise FP16 add. -/
  | vaddF16 (h : Hd) (u : Unit2) (d : BitVec 6) (a : BitVec 6) (b : BitVec 6)
  /-- VADD_B16 (R269): Element-wise BF16 add. -/
  | vaddB16 (h : Hd) (u : Unit2) (d : BitVec 6) (a : BitVec 6) (b : BitVec 6)
  /-- VADD_F32 (R269): Element-wise FP32 add. -/
  | vaddF32 (h : Hd) (u : Unit2) (d : BitVec 6) (a : BitVec 6) (b : BitVec 6)
  /-- VSUB_I8 (R269): Element-wise i8 subtract. -/
  | vsubI8 (h : Hd) (u : Unit2) (d : BitVec 6) (a : BitVec 6) (b : BitVec 6)
  /-- VSUB_I16 (R269): Element-wise i16 subtract. -/
  | vsubI16 (h : Hd) (u : Unit2) (d : BitVec 6) (a : BitVec 6) (b : BitVec 6)
  /-- VSUB_I32 (R269): Element-wise i32 subtract. -/
  | vsubI32 (h : Hd) (u : Unit2) (d : BitVec 6) (a : BitVec 6) (b : BitVec 6)
  /-- VSUB_F16 (R269): Element-wise FP16 subtract. -/
  | vsubF16 (h : Hd) (u : Unit2) (d : BitVec 6) (a : BitVec 6) (b : BitVec 6)
  /-- VSUB_B16 (R269): Element-wise BF16 subtract. -/
  | vsubB16 (h : Hd) (u : Unit2) (d : BitVec 6) (a : BitVec 6) (b : BitVec 6)
  /-- VSUB_F32 (R269): Element-wise FP32 subtract. -/
  | vsubF32 (h : Hd) (u : Unit2) (d : BitVec 6) (a : BitVec 6) (b : BitVec 6)
  /-- VMUL_I8 (R269): Element-wise i8 multiply, low bits. -/
  | vmulI8 (h : Hd) (u : Unit2) (d : BitVec 6) (a : BitVec 6) (b : BitVec 6)
  /-- VMUL_I16 (R269): Element-wise i16 multiply. -/
  | vmulI16 (h : Hd) (u : Unit2) (d : BitVec 6) (a : BitVec 6) (b : BitVec 6)
  /-- VMUL_I32 (R269): Element-wise i32 multiply. -/
  | vmulI32 (h : Hd) (u : Unit2) (d : BitVec 6) (a : BitVec 6) (b : BitVec 6)
  /-- VMUL_F16 (R269): Element-wise FP16 multiply. -/
  | vmulF16 (h : Hd) (u : Unit2) (d : BitVec 6) (a : BitVec 6) (b : BitVec 6)
  /-- VMUL_B16 (R269): Element-wise BF16 multiply. -/
  | vmulB16 (h : Hd) (u : Unit2) (d : BitVec 6) (a : BitVec 6) (b : BitVec 6)
  /-- VMUL_F32 (R269): Element-wise FP32 multiply. -/
  | vmulF32 (h : Hd) (u : Unit2) (d : BitVec 6) (a : BitVec 6) (b : BitVec 6)
  /-- VFMA_I8 (R269): Element-wise i8 multiply-add into d. -/
  | vfmaI8 (h : Hd) (u : Unit2) (d : BitVec 6) (a : BitVec 6) (b : BitVec 6)
  /-- VFMA_I16 (R269): Element-wise i16 multiply-add. -/
  | vfmaI16 (h : Hd) (u : Unit2) (d : BitVec 6) (a : BitVec 6) (b : BitVec 6)
  /-- VFMA_I32 (R269): Element-wise i32 multiply-add. -/
  | vfmaI32 (h : Hd) (u : Unit2) (d : BitVec 6) (a : BitVec 6) (b : BitVec 6)
  /-- VFMA_F16 (R269): Element-wise FP16 fused multiply-add. -/
  | vfmaF16 (h : Hd) (u : Unit2) (d : BitVec 6) (a : BitVec 6) (b : BitVec 6)
  /-- VFMA_B16 (R269): Element-wise BF16 fused multiply-add. -/
  | vfmaB16 (h : Hd) (u : Unit2) (d : BitVec 6) (a : BitVec 6) (b : BitVec 6)
  /-- VFMA_F32 (R269): Element-wise FP32 fused multiply-add. -/
  | vfmaF32 (h : Hd) (u : Unit2) (d : BitVec 6) (a : BitVec 6) (b : BitVec 6)
  /-- VMIN_I8 (R269): Element-wise i8 minimum. -/
  | vminI8 (h : Hd) (u : Unit2) (d : BitVec 6) (a : BitVec 6) (b : BitVec 6)
  /-- VMIN_I16 (R269): Element-wise i16 minimum. -/
  | vminI16 (h : Hd) (u : Unit2) (d : BitVec 6) (a : BitVec 6) (b : BitVec 6)
  /-- VMIN_I32 (R269): Element-wise i32 minimum. -/
  | vminI32 (h : Hd) (u : Unit2) (d : BitVec 6) (a : BitVec 6) (b : BitVec 6)
  /-- VMIN_N8 (R269): Element-wise unsigned 8-bit minimum. -/
  | vminN8 (h : Hd) (u : Unit2) (d : BitVec 6) (a : BitVec 6) (b : BitVec 6)
  /-- VMIN_N16 (R269): Element-wise unsigned 16-bit minimum. -/
  | vminN16 (h : Hd) (u : Unit2) (d : BitVec 6) (a : BitVec 6) (b : BitVec 6)
  /-- VMIN_N32 (R269): Element-wise unsigned 32-bit minimum. -/
  | vminN32 (h : Hd) (u : Unit2) (d : BitVec 6) (a : BitVec 6) (b : BitVec 6)
  /-- VMIN_F16 (R269): Element-wise FP16 minimumNumber. -/
  | vminF16 (h : Hd) (u : Unit2) (d : BitVec 6) (a : BitVec 6) (b : BitVec 6)
  /-- VMIN_B16 (R269): Element-wise BF16 minimumNumber. -/
  | vminB16 (h : Hd) (u : Unit2) (d : BitVec 6) (a : BitVec 6) (b : BitVec 6)
  /-- VMIN_F32 (R269): Element-wise FP32 minimumNumber. -/
  | vminF32 (h : Hd) (u : Unit2) (d : BitVec 6) (a : BitVec 6) (b : BitVec 6)
  /-- VMAX_I8 (R269): Element-wise i8 maximum. -/
  | vmaxI8 (h : Hd) (u : Unit2) (d : BitVec 6) (a : BitVec 6) (b : BitVec 6)
  /-- VMAX_I16 (R269): Element-wise i16 maximum. -/
  | vmaxI16 (h : Hd) (u : Unit2) (d : BitVec 6) (a : BitVec 6) (b : BitVec 6)
  /-- VMAX_I32 (R269): Element-wise i32 maximum. -/
  | vmaxI32 (h : Hd) (u : Unit2) (d : BitVec 6) (a : BitVec 6) (b : BitVec 6)
  /-- VMAX_N8 (R269): Element-wise unsigned 8-bit maximum. -/
  | vmaxN8 (h : Hd) (u : Unit2) (d : BitVec 6) (a : BitVec 6) (b : BitVec 6)
  /-- VMAX_N16 (R269): Element-wise unsigned 16-bit maximum. -/
  | vmaxN16 (h : Hd) (u : Unit2) (d : BitVec 6) (a : BitVec 6) (b : BitVec 6)
  /-- VMAX_N32 (R269): Element-wise unsigned 32-bit maximum. -/
  | vmaxN32 (h : Hd) (u : Unit2) (d : BitVec 6) (a : BitVec 6) (b : BitVec 6)
  /-- VMAX_F16 (R269): Element-wise FP16 maximumNumber. -/
  | vmaxF16 (h : Hd) (u : Unit2) (d : BitVec 6) (a : BitVec 6) (b : BitVec 6)
  /-- VMAX_B16 (R269): Element-wise BF16 maximumNumber. -/
  | vmaxB16 (h : Hd) (u : Unit2) (d : BitVec 6) (a : BitVec 6) (b : BitVec 6)
  /-- VMAX_F32 (R269): Element-wise FP32 maximumNumber. -/
  | vmaxF32 (h : Hd) (u : Unit2) (d : BitVec 6) (a : BitVec 6) (b : BitVec 6)
  /-- VSADD_I8 (R269): Saturating i8 add. -/
  | vsaddI8 (h : Hd) (u : Unit2) (d : BitVec 6) (a : BitVec 6) (b : BitVec 6)
  /-- VSADD_I16 (R269): Saturating i16 add. -/
  | vsaddI16 (h : Hd) (u : Unit2) (d : BitVec 6) (a : BitVec 6) (b : BitVec 6)
  /-- VSADD_I32 (R269): Saturating i32 add. -/
  | vsaddI32 (h : Hd) (u : Unit2) (d : BitVec 6) (a : BitVec 6) (b : BitVec 6)
  /-- VSADD_N8 (R269): Saturating unsigned 8-bit add. -/
  | vsaddN8 (h : Hd) (u : Unit2) (d : BitVec 6) (a : BitVec 6) (b : BitVec 6)
  /-- VSADD_N16 (R269): Saturating unsigned 16-bit add. -/
  | vsaddN16 (h : Hd) (u : Unit2) (d : BitVec 6) (a : BitVec 6) (b : BitVec 6)
  /-- VSADD_N32 (R269): Saturating unsigned 32-bit add. -/
  | vsaddN32 (h : Hd) (u : Unit2) (d : BitVec 6) (a : BitVec 6) (b : BitVec 6)
  /-- VSSUB_I8 (R269): Saturating i8 subtract. -/
  | vssubI8 (h : Hd) (u : Unit2) (d : BitVec 6) (a : BitVec 6) (b : BitVec 6)
  /-- VSSUB_I16 (R269): Saturating i16 subtract. -/
  | vssubI16 (h : Hd) (u : Unit2) (d : BitVec 6) (a : BitVec 6) (b : BitVec 6)
  /-- VSSUB_I32 (R269): Saturating i32 subtract. -/
  | vssubI32 (h : Hd) (u : Unit2) (d : BitVec 6) (a : BitVec 6) (b : BitVec 6)
  /-- VSSUB_N8 (R269): Saturating unsigned 8-bit subtract. -/
  | vssubN8 (h : Hd) (u : Unit2) (d : BitVec 6) (a : BitVec 6) (b : BitVec 6)
  /-- VSSUB_N16 (R269): Saturating unsigned 16-bit subtract. -/
  | vssubN16 (h : Hd) (u : Unit2) (d : BitVec 6) (a : BitVec 6) (b : BitVec 6)
  /-- VSSUB_N32 (R269): Saturating unsigned 32-bit subtract. -/
  | vssubN32 (h : Hd) (u : Unit2) (d : BitVec 6) (a : BitVec 6) (b : BitVec 6)
  /-- VCMP_I8 (R273): Compare i8 elements into a lane mask. -/
  | vcmpI8 (h : Hd) (u : Unit2) (d : BitVec 3) (c : BitVec 3) (a : BitVec 6) (b : BitVec 6)
  /-- VCMP_I16 (R273): Compare i16 elements into a lane mask. -/
  | vcmpI16 (h : Hd) (u : Unit2) (d : BitVec 3) (c : BitVec 3) (a : BitVec 6) (b : BitVec 6)
  /-- VCMP_I32 (R273): Compare i32 elements into a lane mask. -/
  | vcmpI32 (h : Hd) (u : Unit2) (d : BitVec 3) (c : BitVec 3) (a : BitVec 6) (b : BitVec 6)
  /-- VCMP_N8 (R273): Compare unsigned 8-bit elements into a lane mask. -/
  | vcmpN8 (h : Hd) (u : Unit2) (d : BitVec 3) (c : BitVec 3) (a : BitVec 6) (b : BitVec 6)
  /-- VCMP_N16 (R273): Compare unsigned 16-bit elements into a lane mask. -/
  | vcmpN16 (h : Hd) (u : Unit2) (d : BitVec 3) (c : BitVec 3) (a : BitVec 6) (b : BitVec 6)
  /-- VCMP_N32 (R273): Compare unsigned 32-bit elements into a lane mask. -/
  | vcmpN32 (h : Hd) (u : Unit2) (d : BitVec 3) (c : BitVec 3) (a : BitVec 6) (b : BitVec 6)
  /-- VCMP_F16 (R273): Compare FP16 elements into a lane mask. -/
  | vcmpF16 (h : Hd) (u : Unit2) (d : BitVec 3) (c : BitVec 3) (a : BitVec 6) (b : BitVec 6)
  /-- VCMP_B16 (R273): Compare BF16 elements into a lane mask. -/
  | vcmpB16 (h : Hd) (u : Unit2) (d : BitVec 3) (c : BitVec 3) (a : BitVec 6) (b : BitVec 6)
  /-- VCMP_F32 (R273): Compare FP32 elements into a lane mask. -/
  | vcmpF32 (h : Hd) (u : Unit2) (d : BitVec 3) (c : BitVec 3) (a : BitVec 6) (b : BitVec 6)
  /-- VSHL_8 (R270): Shift 8-bit elements left by per-element counts. -/
  | vshl8 (h : Hd) (u : Unit2) (d : BitVec 6) (a : BitVec 6) (b : BitVec 6)
  /-- VSHL_16 (R270): Shift 16-bit elements left. -/
  | vshl16 (h : Hd) (u : Unit2) (d : BitVec 6) (a : BitVec 6) (b : BitVec 6)
  /-- VSHL_32 (R270): Shift 32-bit elements left. -/
  | vshl32 (h : Hd) (u : Unit2) (d : BitVec 6) (a : BitVec 6) (b : BitVec 6)
  /-- VSHR_8 (R270): Logical right shift of 8-bit elements. -/
  | vshr8 (h : Hd) (u : Unit2) (d : BitVec 6) (a : BitVec 6) (b : BitVec 6)
  /-- VSHR_16 (R270): Logical right shift of 16-bit elements. -/
  | vshr16 (h : Hd) (u : Unit2) (d : BitVec 6) (a : BitVec 6) (b : BitVec 6)
  /-- VSHR_32 (R270): Logical right shift of 32-bit elements. -/
  | vshr32 (h : Hd) (u : Unit2) (d : BitVec 6) (a : BitVec 6) (b : BitVec 6)
  /-- VSAR_8 (R270): Arithmetic right shift of 8-bit elements. -/
  | vsar8 (h : Hd) (u : Unit2) (d : BitVec 6) (a : BitVec 6) (b : BitVec 6)
  /-- VSAR_16 (R270): Arithmetic right shift of 16-bit elements. -/
  | vsar16 (h : Hd) (u : Unit2) (d : BitVec 6) (a : BitVec 6) (b : BitVec 6)
  /-- VSAR_32 (R270): Arithmetic right shift of 32-bit elements. -/
  | vsar32 (h : Hd) (u : Unit2) (d : BitVec 6) (a : BitVec 6) (b : BitVec 6)
  /-- VREDS (R282): Pairwise-tree sum of all elements into lane 0. -/
  | vreds (h : Hd) (u : Unit2) (d : BitVec 6) (a : BitVec 6) (t : BitVec 4)
  /-- VREDM (R282): Pairwise-tree maximum into lane 0. -/
  | vredm (h : Hd) (u : Unit2) (d : BitVec 6) (a : BitVec 6) (t : BitVec 4)
  /-- VREDN (R282): Pairwise-tree minimum into lane 0. -/
  | vredn (h : Hd) (u : Unit2) (d : BitVec 6) (a : BitVec 6) (t : BitVec 4)
  /-- VABS (R269): Element-wise absolute value. -/
  | vabs (h : Hd) (u : Unit2) (d : BitVec 6) (a : BitVec 6) (t : BitVec 4)
  /-- VNEG (R269): Element-wise negation. -/
  | vneg (h : Hd) (u : Unit2) (d : BitVec 6) (a : BitVec 6) (t : BitVec 4)
  /-- VSPLAT (R272): Write the low bits of an s register into every element. -/
  | vsplat (h : Hd) (u : Unit2) (d : BitVec 6) (a : BitVec 6) (t : BitVec 4)
  /-- VSET_8 (R272): Write an immediate into every 8-bit element. -/
  | vset8 (h : Hd) (u : Unit2) (d : BitVec 6) (i : BitVec 12)
  /-- VSET_16 (R272): Write an immediate into every 16-bit element. -/
  | vset16 (h : Hd) (u : Unit2) (d : BitVec 6) (i : BitVec 12)
  /-- VSET_32 (R272): Write an immediate into every 32-bit element. -/
  | vset32 (h : Hd) (u : Unit2) (d : BitVec 6) (i : BitVec 12)
  /-- VAND (R271): Bitwise AND of active lanes. -/
  | vand (h : Hd) (u : Unit2) (d : BitVec 6) (a : BitVec 6) (b : BitVec 6)
  /-- VOR (R271): Bitwise OR of active lanes. -/
  | vor (h : Hd) (u : Unit2) (d : BitVec 6) (a : BitVec 6) (b : BitVec 6)
  /-- VXOR (R271): Bitwise XOR of active lanes. -/
  | vxor (h : Hd) (u : Unit2) (d : BitVec 6) (a : BitVec 6) (b : BitVec 6)
  /-- VSEL (R274): Lane-wise select from a into d under mask k. -/
  | vsel (h : Hd) (u : Unit2) (d : BitVec 6) (a : BitVec 6) (k : BitVec 3)
  /-- VPERM (R283): Byte permute of a by indices in b. -/
  | vperm (h : Hd) (u : Unit2) (d : BitVec 6) (a : BitVec 6) (b : BitVec 6)
  /-- VROT (R283): Rotate lanes of a by imm6. -/
  | vrot (h : Hd) (u : Unit2) (d : BitVec 6) (a : BitVec 6) (i : BitVec 6)
  /-- XFER (R284): Copy a register from the other vector file. -/
  | xfer (h : Hd) (u : Unit2) (d : BitVec 6) (a : BitVec 6)
  /-- VTEST (R276): Test lanes for any, none and all set, delivering predicates and VCOUNT at t + 2. -/
  | vtest (h : Hd) (u : Unit2) (p : BitVec 4) (e : BitVec 4) (a : BitVec 6)
  /-- VFRAME (R285): Move the slot's frame base by a signed step of 64 registers. -/
  | vframe (h : Hd) (u : Unit2) (s : BitVec 7)
  /-- KOP_AND (R275): kd := ka AND kb. -/
  | kopAnd (h : Hd) (u : Unit2) (d : BitVec 3) (a : BitVec 3) (b : BitVec 3)
  /-- KOP_OR (R275): kd := ka OR kb. -/
  | kopOr (h : Hd) (u : Unit2) (d : BitVec 3) (a : BitVec 3) (b : BitVec 3)
  /-- KOP_XOR (R275): kd := ka XOR kb. -/
  | kopXor (h : Hd) (u : Unit2) (d : BitVec 3) (a : BitVec 3) (b : BitVec 3)
  /-- KOP_ANDN (R275): kd := ka AND NOT kb. -/
  | kopAndn (h : Hd) (u : Unit2) (d : BitVec 3) (a : BitVec 3) (b : BitVec 3)
  /-- KOP_NOT (R275): kd := NOT ka. -/
  | kopNot (h : Hd) (u : Unit2) (d : BitVec 3) (a : BitVec 3)
  /-- KOP_MOV (R275): kd := ka. -/
  | kopMov (h : Hd) (u : Unit2) (d : BitVec 3) (a : BitVec 3)
  /-- VEXP2 (R281): Correctly rounded 2^x of FP32 elements. -/
  | vexp2 (h : Hd) (u : Unit2) (d : BitVec 6) (a : BitVec 6)
  /-- VLOG2 (R281): Correctly rounded log2 x of FP32 elements. -/
  | vlog2 (h : Hd) (u : Unit2) (d : BitVec 6) (a : BitVec 6)
  /-- VRCP (R281): Correctly rounded 1/x of FP32 elements. -/
  | vrcp (h : Hd) (u : Unit2) (d : BitVec 6) (a : BitVec 6)
  /-- VRSQ (R281): Correctly rounded 1/√x of FP32 elements. -/
  | vrsq (h : Hd) (u : Unit2) (d : BitVec 6) (a : BitVec 6)
  /-- VSCL_F16 (R278): Scale FP16 elements by powers of two from b. -/
  | vsclF16 (h : Hd) (u : Unit2) (d : BitVec 6) (a : BitVec 6) (b : BitVec 6)
  /-- VSCL_B16 (R278): Scale BF16 elements by powers of two. -/
  | vsclB16 (h : Hd) (u : Unit2) (d : BitVec 6) (a : BitVec 6) (b : BitVec 6)
  /-- VSCL_F32 (R278): Scale FP32 elements by powers of two. -/
  | vsclF32 (h : Hd) (u : Unit2) (d : BitVec 6) (a : BitVec 6) (b : BitVec 6)
  /-- VCVT_RN (R277): Convert elements between classes, round to nearest. -/
  | vcvtRn (h : Hd) (u : Unit2) (d : BitVec 6) (a : BitVec 6) (dc : BitVec 3) (sc : BitVec 3)
  /-- VCVT_RZ (R277): Convert elements between classes, round toward zero. -/
  | vcvtRz (h : Hd) (u : Unit2) (d : BitVec 6) (a : BitVec 6) (dc : BitVec 3) (sc : BitVec 3)
  /-- VCVT_RU (R277): Convert elements between classes, round up. -/
  | vcvtRu (h : Hd) (u : Unit2) (d : BitVec 6) (a : BitVec 6) (dc : BitVec 3) (sc : BitVec 3)
  /-- VCVT_RD (R277): Convert elements between classes, round down. -/
  | vcvtRd (h : Hd) (u : Unit2) (d : BitVec 6) (a : BitVec 6) (dc : BitVec 3) (sc : BitVec 3)
  /-- VQMX_RN (R279): Quantise 128 FP32 values into MXINT8 layout, round to nearest. -/
  | vqmxRn (h : Hd) (u : Unit2) (d : BitVec 6) (a : BitVec 6) (b : BitVec 6)
  /-- VQMX_RZ (R279): Quantise to MXINT8, round toward zero. -/
  | vqmxRz (h : Hd) (u : Unit2) (d : BitVec 6) (a : BitVec 6) (b : BitVec 6)
  /-- VQMX_RU (R279): Quantise to MXINT8, round up. -/
  | vqmxRu (h : Hd) (u : Unit2) (d : BitVec 6) (a : BitVec 6) (b : BitVec 6)
  /-- VQMX_RD (R279): Quantise to MXINT8, round down. -/
  | vqmxRd (h : Hd) (u : Unit2) (d : BitVec 6) (a : BitVec 6) (b : BitVec 6)
  /-- VDQ (R280): Decode two Q4 blocks into 128 FP16 elements. -/
  | vdq (h : Hd) (u : Unit2) (d : BitVec 6) (a : BitVec 6) (b : BitVec 6)
  /-- LDV_X (R305): Load a scratchpad row into an x register. -/
  | ldvX (h : Hd) (u : Unit2) (d : BitVec 6) (b : BitVec 5) (r : BitVec 4) (i : BitVec 3)
  /-- LDV_Y (R305): Load a scratchpad row into a y register. -/
  | ldvY (h : Hd) (u : Unit2) (d : BitVec 6) (b : BitVec 5) (r : BitVec 4) (i : BitVec 3)
  /-- STV_X (R305): Store an x register into a scratchpad row. -/
  | stvX (h : Hd) (u : Unit2) (d : BitVec 6) (b : BitVec 5) (r : BitVec 4) (i : BitVec 3)
  /-- STV_Y (R305): Store a y register into a scratchpad row. -/
  | stvY (h : Hd) (u : Unit2) (d : BitVec 6) (b : BitVec 5) (r : BitVec 4) (i : BitVec 3)
  /-- LDS (R305): Load one scratchpad element into an s register. -/
  | lds (h : Hd) (u : Unit2) (d : BitVec 6) (b : BitVec 5) (r : BitVec 4) (i : BitVec 3)
  /-- STS (R305): Store one element from an s register into a scratchpad row. -/
  | sts (h : Hd) (u : Unit2) (d : BitVec 6) (b : BitVec 5) (r : BitVec 4) (i : BitVec 3)
  /-- COPY (R310): Copy a tensor box into a scratchpad tile asynchronously. -/
  | copy (h : Hd) (u : Unit2) (c : BitVec 4) (t : BitVec 8) (hint : BitVec 2) (q : BitVec 2)
  /-- COPYO (R310): Copy a scratchpad tile out into a tensor box. -/
  | copyo (h : Hd) (u : Unit2) (c : BitVec 4) (t : BitVec 8) (hint : BitVec 2) (q : BitVec 2)
  /-- COPYN (R315): Run the six-level copy sequencer on a nest descriptor. -/
  | copyn (h : Hd) (u : Unit2) (c : BitVec 4) (t : BitVec 8) (hint : BitVec 2) (q : BitVec 2)
  /-- WFILL (R316): Copy one tensor tile into a weight-buffer unit. -/
  | wfill (h : Hd) (u : Unit2) (c : BitVec 4) (t : BitVec 6) (hint : BitVec 2) (q : BitVec 2)
  /-- TREL (R317): Release a scratchpad tile to empty. -/
  | trel (h : Hd) (u : Unit2) (t : BitVec 8)
  /-- TSTAT (R317): Write a tile's ready and empty state into a predicate pair. -/
  | tstat (h : Hd) (u : Unit2) (p : BitVec 4) (t : BitVec 8)
  /-- GLD (R318): Coherent load of one tensor word into an address register. -/
  | gld (h : Hd) (u : Unit2) (d : BitVec 4) (hint : BitVec 2) (q : BitVec 2) (z : BitVec 2)
  /-- GST (R318): Coherent store of one tensor word. -/
  | gst (h : Hd) (u : Unit2) (d : BitVec 4) (hint : BitVec 2) (q : BitVec 2) (z : BitVec 2)
  /-- AADD (R319): Atomic add, returning the old word. -/
  | aadd (h : Hd) (u : Unit2) (d : BitVec 4) (e : BitVec 4) (hint : BitVec 2) (q : BitVec 2) (z : BitVec 1)
  /-- ASWAP (R319): Atomic swap. -/
  | aswap (h : Hd) (u : Unit2) (d : BitVec 4) (e : BitVec 4) (hint : BitVec 2) (q : BitVec 2) (z : BitVec 1)
  /-- ACAS (R319): Atomic compare-and-swap. -/
  | acas (h : Hd) (u : Unit2) (d : BitVec 4) (e : BitVec 4) (hint : BitVec 2) (q : BitVec 2) (z : BitVec 1)
  /-- AMIN (R319): Atomic signed minimum. -/
  | amin (h : Hd) (u : Unit2) (d : BitVec 4) (e : BitVec 4) (hint : BitVec 2) (q : BitVec 2) (z : BitVec 1)
  /-- AMAX (R319): Atomic signed maximum. -/
  | amax (h : Hd) (u : Unit2) (d : BitVec 4) (e : BitVec 4) (hint : BitVec 2) (q : BitVec 2) (z : BitVec 1)
  /-- AAND (R319): Atomic AND. -/
  | aand (h : Hd) (u : Unit2) (d : BitVec 4) (e : BitVec 4) (hint : BitVec 2) (q : BitVec 2) (z : BitVec 1)
  /-- AOR (R319): Atomic OR. -/
  | aor (h : Hd) (u : Unit2) (d : BitVec 4) (e : BitVec 4) (hint : BitVec 2) (q : BitVec 2) (z : BitVec 1)
  /-- ASET (R308): Set an address register from an s register. -/
  | aset (h : Hd) (u : Unit2) (d : BitVec 4) (s : BitVec 6)
  /-- AADDI (R308): Add a signed immediate to an address register. -/
  | aaddi (h : Hd) (u : Unit2) (d : BitVec 4) (i : BitVec 12)
  /-- ASTR (R308): Set an address register's stride. -/
  | astr (h : Hd) (u : Unit2) (d : BitVec 4) (i : BitVec 12)
  /-- CFENCE (R321): Wait for earlier accesses and chunks to be performed at scope and raise lc. -/
  | cfence (h : Hd) (u : Unit2) (s : BitVec 2)
  /-- PREF (R320): Prefetch a box's lines into the cluster slice. -/
  | pref (h : Hd) (u : Unit2) (hint : BitVec 2) (q : BitVec 2)
  /-- MCFG (R292): Set the matrix A format, B format and default cell operation. -/
  | mcfg (h : Hd) (a : BitVec 4) (b : BitVec 4) (o : BitVec 2)
  /-- MPUSH (R293): Decode a weight-buffer column into a shadow weight column. -/
  | mpush (h : Hd) (c : BitVec 6) (u : BitVec 12)
  /-- MSWAP (R294): Exchange shadow and active weight sets. -/
  | mswap (h : Hd)
  /-- MSHIFT (R295): Issue one matrix beat into an accumulator row, landing 20 cycles later. -/
  | mshift (h : Hd) (v : BitVec 6) (f : BitVec 1) (o : BitVec 2) (t : BitVec 2) (r : BitVec 7)
  /-- MDRAIN_F32 (R299): Read an accumulator row into a vector register as FP32. -/
  | mdrainF32 (h : Hd) (d : BitVec 6) (f : BitVec 1) (t : BitVec 2) (r : BitVec 7)
  /-- MDRAIN_F16 (R299): Read an accumulator row converted to FP16. -/
  | mdrainF16 (h : Hd) (d : BitVec 6) (f : BitVec 1) (t : BitVec 2) (r : BitVec 7)
  /-- MDRAIN_B16 (R299): Read an accumulator row converted to BF16. -/
  | mdrainB16 (h : Hd) (d : BitVec 6) (f : BitVec 1) (t : BitVec 2) (r : BitVec 7)
  /-- MCLR (R300): Clear an accumulator tile to +0. -/
  | mclr (h : Hd) (t : BitVec 2)
  /-- MFLUSH (R301): Wait until every in-flight beat has landed. -/
  | mflush (h : Hd)
  /-- BR (R251): Branch to a relative target after two delay bundles. -/
  | br (h : Hd) (o : BitVec 18)
  /-- BRX (R251): Branch to the address in an s register. -/
  | brx (h : Hd) (s : BitVec 6)
  /-- CALL (R252): Push b + 3 and branch to a relative target. -/
  | call (h : Hd) (o : BitVec 18)
  /-- CALLX (R252): Push b + 3 and branch to an s-register address. -/
  | callx (h : Hd) (s : BitVec 6)
  /-- RET (R252): Pop the return stack and branch there. -/
  | ret (h : Hd)
  /-- LOOP (R254): Push a hardware loop level with an immediate trip count. -/
  | loop (h : Hd) (l : BitVec 6) (c : BitVec 11)
  /-- LOOP_REG (R254): Push a hardware loop level with a trip count from an s register. -/
  | loopReg (h : Hd) (l : BitVec 6) (s : BitVec 6)
  /-- STAGE (R256): Set the pending stage flag and epilogue count for the next LOOP. -/
  | stage (h : Hd) (e : BitVec 3)
  /-- SEG (R258): Close the current segment, release held copies and open a new one with a checkpoint. -/
  | seg (h : Hd) (s : BitVec 6)
  /-- RDV (R259): Barrier across the contexts of the job. -/
  | rdv (h : Hd)
  /-- WAITC (R260): Wait until a copy counter is at or below a limit. -/
  | waitc (h : Hd) (c : BitVec 4) (l : BitVec 14)
  /-- YIELD (R261): Give the issue slot to another ready context. -/
  | yield (h : Hd)
  /-- HALT (R262): End the context's issue and close the segment. -/
  | halt (h : Hd)
  /-- SYS (R263): Post a system event to the firmware event queue. -/
  | sys (h : Hd) (i : BitVec 12)
  /-- FBREG (R251): Set the context's fallback target. -/
  | fbreg (h : Hd) (o : BitVec 18)
  /-- BKPT (R264): Raise a breakpoint trap at decode. -/
  | bkpt (h : Hd) (i : BitVec 12)
  /-- VGATE_ON (R214): Turn vector power domains on. -/
  | vgateOn (h : Hd) (f : BitVec 1) (m : BitVec 8)
  /-- VGATE_RET (R214): Put vector power domains in retention. -/
  | vgateRet (h : Hd) (f : BitVec 1) (m : BitVec 8)
  /-- VGATE_OFF (R214): Turn vector power domains off, losing content. -/
  | vgateOff (h : Hd) (f : BitVec 1) (m : BitVec 8)
  /-- XMVM (R337): Take coupling entries and queue a crossbar matrix-vector product. -/
  | xmvm (h : Hd) (a : BitVec 6) (d : BitVec 2) (s : BitVec 3) (c : BitVec 4) (o : BitVec 2)
  /-- XPUSH (R335): Append a vector as an input entry to the coupling. -/
  | xpush (h : Hd) (v : BitVec 6) (f : BitVec 1) (c : BitVec 1)
  /-- XPOP (R336): Remove the landed head result entry into a vector register. -/
  | xpop (h : Hd) (v : BitVec 6) (f : BitVec 1)
  /-- XPROG (R341): Queue one programming pulse on each cell of a physical column. -/
  | xprog (h : Hd) (a : BitVec 6) (f : BitVec 1) (v : BitVec 6) (k : BitVec 4)
  /-- XVER (R342): Queue a verify of a column against targets. -/
  | xver (h : Hd) (a : BitVec 6) (f : BitVec 1) (v : BitVec 6)
  /-- XREMAP (R343): Map a logical column onto a verified reserve column. -/
  | xremap (h : Hd) (a : BitVec 6) (k : BitVec 5)
  /-- XREMAP_CLR (R343): Clear the remap entry of a logical column. -/
  | xremapClr (h : Hd) (a : BitVec 6)
  /-- XMON (R339): Queue a drift-monitor run on an array. -/
  | xmon (h : Hd) (a : BitVec 6)
  /-- XCAL_OFF (R345): Write offsets of 64 logical columns. -/
  | xcalOff (h : Hd) (a : BitVec 6) (f : BitVec 1) (v : BitVec 6) (j : BitVec 3)
  /-- XCAL_GAIN (R345): Write gains of 64 logical columns. -/
  | xcalGain (h : Hd) (a : BitVec 6) (f : BitVec 1) (v : BitVec 6) (j : BitVec 3)
  /-- XCAL_MON (R345): Queue programming of the monitor columns and storing of expectations. -/
  | xcalMon (h : Hd) (a : BitVec 6)
  /-- XGATE (R346): Gate the crossbar bank, via gating when operations are incomplete. -/
  | xgate (h : Hd)
  /-- XWAKE (R346): Wake a gated bank or return a gating bank to on. -/
  | xwake (h : Hd)
  /-- XSTAT (R345): Read an array's status into an s register. -/
  | xstat (h : Hd) (d : BitVec 6) (a : BitVec 6)
  /-- XLDC_CODE (R344): Read a column's code image into a vector register. -/
  | xldcCode (h : Hd) (a : BitVec 6) (f : BitVec 1) (v : BitVec 6)
  /-- XLDC_VER (R344): Read an array's verify record into a vector register. -/
  | xldcVer (h : Hd) (a : BitVec 6) (f : BitVec 1) (v : BitVec 6)
  deriving DecidableEq, Repr

end Sys2Proof
end

