-- ==== Sys2Proof/WellFormed.lean ====
section
/-! DEFINITION. Which instructions are well formed: no reserved field value in a slot operation (R217, R219, R225), the
limits of R168 to R171, R176 and R183 for a task, and names of parts that exist for an event. -/

namespace Sys2Proof

/-! ## Tasks (R168 to R171) -/

/-- An operand without a reserved value: a name below 128, a mode, at most four boxes (R169). -/
def operandOk (o : Operand) : Bool := (o.kind || o.ref.toNat < 128) && o.mode != 0 && o.boxes.length ≤ 4
/-- Header fields that an opcode does not use are zero (R170). -/
def hdrZero (t : TaskHdr) (scope job qd cond imm : Bool) : Bool :=
  (scope || t.scope == 0) && (job || (!t.fbk && !t.prot && t.pcl == 0 && t.ppos == 0)) && (qd || t.qd == 0) &&
  (cond || t.cond == 0) && (imm || t.imm == 0)
/-- Placement fields without a reserved value (R168). -/
def placeOk (t : TaskHdr) : Bool := (t.pcl.toNat ≤ 9 || t.pcl == 15) && (t.ppos.toNat ≤ 7 || t.ppos == 15)
/-- One operand of a mode, a whole tensor; `name` asks for a logical name. -/
def oneOp (mode : BitVec 2) (name : Bool) : List Operand → Bool
  | [o] => operandOk o && o.mode == mode && o.boxes.isEmpty && (!name || !o.kind)
  | _ => false

def taskOkKern (t : TaskHdr) (ops : List Operand) : Bool :=
  hdrZero t true true false false true && placeOk t && (t.ppos == 15 || t.pcl != 15) && ops.length ≤ 8 && ops.all operandOk
def taskOkGang (t : TaskHdr) (ops : List Operand) : Bool :=
  hdrZero t true true false false true && placeOk t && t.ppos == 15 && ops.length ≤ 8 && ops.all operandOk
def taskOkTcopy (t : TaskHdr) (ops : List Operand) : Bool :=
  hdrZero t true false false false true &&
  match ops with
  | [a, b] => operandOk a && operandOk b && a.mode == 1 && b.mode == 2
  | _ => false
def taskOkTfill (t : TaskHdr) (ops : List Operand) : Bool :=
  hdrZero t true false false false true &&
  match ops with
  | [a] => operandOk a && a.mode == 2
  | _ => false
/-- TDEF: IMM[31:21] zero, and an existing cluster for the window class (R176). -/
def taskOkTdef (t : TaskHdr) (ops : List Operand) : Bool :=
  hdrZero t false false false false true && oneOp 2 true ops && bitsN t.imm.toNat 31 21 == 0 &&
  (!bitN t.imm.toNat 16 || bitsN t.imm.toNat 20 17 ≤ 9)
def taskOkTbind (t : TaskHdr) (ops : List Operand) : Bool :=
  hdrZero t false false false false true && oneOp 2 true ops && bitsN t.imm.toNat 31 16 == 0
def taskOkTdrop (t : TaskHdr) (ops : List Operand) : Bool := hdrZero t false false false false false && oneOp 2 true ops
def taskOkTsig (t : TaskHdr) (ops : List Operand) : Bool := hdrZero t true false true false true && oneOp 2 false ops
def taskOkTwait (t : TaskHdr) (ops : List Operand) : Bool :=
  hdrZero t true false true true true && t.cond.toNat ≤ 5 && oneOp 1 false ops
def taskOkTfence (t : TaskHdr) (ops : List Operand) : Bool := hdrZero t true false false false false && ops.isEmpty
def taskOkTset (t : TaskHdr) (ops : List Operand) : Bool := hdrZero t false false true false true && ops.isEmpty
def taskOkTadd (t : TaskHdr) (ops : List Operand) : Bool := hdrZero t false false true false true && ops.isEmpty
def taskOkTldq (t : TaskHdr) (ops : List Operand) : Bool := hdrZero t false false true false true && oneOp 1 false ops
def taskOkTloop (t : TaskHdr) (ops : List Operand) : Bool := hdrZero t false false true false true && ops.isEmpty
def taskOkTjmp (t : TaskHdr) (ops : List Operand) : Bool := hdrZero t false false false false true && ops.isEmpty
def taskOkTbrz (t : TaskHdr) (ops : List Operand) : Bool := hdrZero t false false true false true && ops.isEmpty
def taskOkTmark (t : TaskHdr) (ops : List Operand) : Bool := hdrZero t false false false false true && ops.isEmpty
/-- TPRI: IMM[31:3] zero (R183). -/
def taskOkTpri (t : TaskHdr) (ops : List Operand) : Bool :=
  hdrZero t false false false false true && ops.isEmpty && bitsN t.imm.toNat 31 3 == 0
def taskOkThalt (t : TaskHdr) (ops : List Operand) : Bool := hdrZero t false false false false false && ops.isEmpty

/-! ## All instructions -/

/-- Whether an instruction is well formed. -/
def wellFormed (i : Instr) : Bool :=
  match i with
  | .nop => true
  | .add _ _ _ _ => true
  | .sub _ _ _ _ => true
  | .and _ _ _ _ => true
  | .or _ _ _ _ => true
  | .xor _ _ _ _ => true
  | .andn _ _ _ _ => true
  | .shl _ _ _ _ => true
  | .shr _ _ _ _ => true
  | .sar _ _ _ _ => true
  | .mul _ _ _ _ => true
  | .mulh _ _ _ _ => true
  | .mulhn _ _ _ _ => true
  | .div _ _ _ _ => true
  | .divn _ _ _ _ => true
  | .rem _ _ _ _ => true
  | .remn _ _ _ _ => true
  | .min _ _ _ _ => true
  | .max _ _ _ _ => true
  | .minn _ _ _ _ => true
  | .maxn _ _ _ _ => true
  | .addImm _ _ _ _ => true
  | .andImm _ _ _ _ => true
  | .orImm _ _ _ _ => true
  | .xorImm _ _ _ _ => true
  | .shlImm _ _ _ _ => true
  | .shrImm _ _ _ _ => true
  | .sarImm _ _ _ _ => true
  | .setw0 _ _ _ => true
  | .setw1 _ _ _ => true
  | .setw2 _ _ _ => true
  | .setw3 _ _ _ => true
  | .setw4 _ _ _ => true
  | .setw5 _ _ _ => true
  | .sext _ _ _ z => z != 3
  | .clz _ _ _ => true
  | .popc _ _ _ => true
  | .cmpEq _ _ _ _ _ => true
  | .cmpNe _ _ _ _ _ => true
  | .cmpLt _ _ _ _ _ => true
  | .cmpLe _ _ _ _ _ => true
  | .cmpLtn _ _ _ _ _ => true
  | .cmpLen _ _ _ _ _ => true
  | .cmpEqImm _ _ _ _ _ => true
  | .cmpNeImm _ _ _ _ _ => true
  | .cmpLtImm _ _ _ _ _ => true
  | .cmpLeImm _ _ _ _ _ => true
  | .cmpLtnImm _ _ _ _ _ => true
  | .cmpLenImm _ _ _ _ _ => true
  | .faddF32 _ _ _ _ => true
  | .faddF16 _ _ _ _ => true
  | .faddB16 _ _ _ _ => true
  | .fsubF32 _ _ _ _ => true
  | .fsubF16 _ _ _ _ => true
  | .fsubB16 _ _ _ _ => true
  | .fmulF32 _ _ _ _ => true
  | .fmulF16 _ _ _ _ => true
  | .fmulB16 _ _ _ _ => true
  | .ffmaF32 _ _ _ _ => true
  | .ffmaF16 _ _ _ _ => true
  | .ffmaB16 _ _ _ _ => true
  | .fminF32 _ _ _ _ => true
  | .fminF16 _ _ _ _ => true
  | .fminB16 _ _ _ _ => true
  | .fmaxF32 _ _ _ _ => true
  | .fmaxF16 _ _ _ _ => true
  | .fmaxB16 _ _ _ _ => true
  | .fcmpEqF32 _ _ _ _ _ => true
  | .fcmpEqF16 _ _ _ _ _ => true
  | .fcmpEqB16 _ _ _ _ _ => true
  | .fcmpLtF32 _ _ _ _ _ => true
  | .fcmpLtF16 _ _ _ _ _ => true
  | .fcmpLtB16 _ _ _ _ _ => true
  | .fcmpLeF32 _ _ _ _ _ => true
  | .fcmpLeF16 _ _ _ _ _ => true
  | .fcmpLeB16 _ _ _ _ _ => true
  | .fcvt _ _ _ _ x y => x != 3 && y != 3
  | .itof _ _ _ _ _ y => y != 3
  | .ftoi _ _ _ _ x _ => x != 3
  | .ftoiN _ _ _ _ x _ => x != 3
  | .pand _ _ _ _ => true
  | .por _ _ _ _ => true
  | .pxor _ _ _ _ => true
  | .pandn _ _ _ _ => true
  | .pmov _ _ _ => true
  | .sel _ _ _ _ => true
  | .mova _ _ _ _ => true
  | .mfs _ _ _ => true
  | .mts _ _ _ => true
  | .vaddI8 _ _ _ _ _ => true
  | .vaddI16 _ _ _ _ _ => true
  | .vaddI32 _ _ _ _ _ => true
  | .vaddF16 _ _ _ _ _ => true
  | .vaddB16 _ _ _ _ _ => true
  | .vaddF32 _ _ _ _ _ => true
  | .vsubI8 _ _ _ _ _ => true
  | .vsubI16 _ _ _ _ _ => true
  | .vsubI32 _ _ _ _ _ => true
  | .vsubF16 _ _ _ _ _ => true
  | .vsubB16 _ _ _ _ _ => true
  | .vsubF32 _ _ _ _ _ => true
  | .vmulI8 _ _ _ _ _ => true
  | .vmulI16 _ _ _ _ _ => true
  | .vmulI32 _ _ _ _ _ => true
  | .vmulF16 _ _ _ _ _ => true
  | .vmulB16 _ _ _ _ _ => true
  | .vmulF32 _ _ _ _ _ => true
  | .vfmaI8 _ _ _ _ _ => true
  | .vfmaI16 _ _ _ _ _ => true
  | .vfmaI32 _ _ _ _ _ => true
  | .vfmaF16 _ _ _ _ _ => true
  | .vfmaB16 _ _ _ _ _ => true
  | .vfmaF32 _ _ _ _ _ => true
  | .vminI8 _ _ _ _ _ => true
  | .vminI16 _ _ _ _ _ => true
  | .vminI32 _ _ _ _ _ => true
  | .vminN8 _ _ _ _ _ => true
  | .vminN16 _ _ _ _ _ => true
  | .vminN32 _ _ _ _ _ => true
  | .vminF16 _ _ _ _ _ => true
  | .vminB16 _ _ _ _ _ => true
  | .vminF32 _ _ _ _ _ => true
  | .vmaxI8 _ _ _ _ _ => true
  | .vmaxI16 _ _ _ _ _ => true
  | .vmaxI32 _ _ _ _ _ => true
  | .vmaxN8 _ _ _ _ _ => true
  | .vmaxN16 _ _ _ _ _ => true
  | .vmaxN32 _ _ _ _ _ => true
  | .vmaxF16 _ _ _ _ _ => true
  | .vmaxB16 _ _ _ _ _ => true
  | .vmaxF32 _ _ _ _ _ => true
  | .vsaddI8 _ _ _ _ _ => true
  | .vsaddI16 _ _ _ _ _ => true
  | .vsaddI32 _ _ _ _ _ => true
  | .vsaddN8 _ _ _ _ _ => true
  | .vsaddN16 _ _ _ _ _ => true
  | .vsaddN32 _ _ _ _ _ => true
  | .vssubI8 _ _ _ _ _ => true
  | .vssubI16 _ _ _ _ _ => true
  | .vssubI32 _ _ _ _ _ => true
  | .vssubN8 _ _ _ _ _ => true
  | .vssubN16 _ _ _ _ _ => true
  | .vssubN32 _ _ _ _ _ => true
  | .vcmpI8 _ _ _ c _ _ => c.toNat ≤ 3
  | .vcmpI16 _ _ _ c _ _ => c.toNat ≤ 3
  | .vcmpI32 _ _ _ c _ _ => c.toNat ≤ 3
  | .vcmpN8 _ _ _ c _ _ => c.toNat ≤ 3
  | .vcmpN16 _ _ _ c _ _ => c.toNat ≤ 3
  | .vcmpN32 _ _ _ c _ _ => c.toNat ≤ 3
  | .vcmpF16 _ _ _ c _ _ => c.toNat ≤ 3
  | .vcmpB16 _ _ _ c _ _ => c.toNat ≤ 3
  | .vcmpF32 _ _ _ c _ _ => c.toNat ≤ 3
  | .vshl8 _ _ _ _ _ => true
  | .vshl16 _ _ _ _ _ => true
  | .vshl32 _ _ _ _ _ => true
  | .vshr8 _ _ _ _ _ => true
  | .vshr16 _ _ _ _ _ => true
  | .vshr32 _ _ _ _ _ => true
  | .vsar8 _ _ _ _ _ => true
  | .vsar16 _ _ _ _ _ => true
  | .vsar32 _ _ _ _ _ => true
  | .vreds _ _ _ _ t => t.toNat ≤ 8
  | .vredm _ _ _ _ t => t.toNat ≤ 8
  | .vredn _ _ _ _ t => t.toNat ≤ 8
  | .vabs _ _ _ _ t => t.toNat ≤ 2 || (6 ≤ t.toNat && t.toNat ≤ 8)
  | .vneg _ _ _ _ t => t.toNat ≤ 2 || (6 ≤ t.toNat && t.toNat ≤ 8)
  | .vsplat _ _ _ _ t => t.toNat ≤ 8
  | .vset8 _ _ _ _ => true
  | .vset16 _ _ _ _ => true
  | .vset32 _ _ _ _ => true
  | .vand _ _ _ _ _ => true
  | .vor _ _ _ _ _ => true
  | .vxor _ _ _ _ _ => true
  | .vsel _ _ _ _ _ => true
  | .vperm _ _ _ _ _ => true
  | .vrot _ _ _ _ _ => true
  | .xfer _ _ _ _ => true
  | .vtest _ _ _ _ _ => true
  | .vframe _ _ _ => true
  | .kopAnd _ _ _ _ _ => true
  | .kopOr _ _ _ _ _ => true
  | .kopXor _ _ _ _ _ => true
  | .kopAndn _ _ _ _ _ => true
  | .kopNot _ _ _ _ => true
  | .kopMov _ _ _ _ => true
  | .vexp2 _ _ _ _ => true
  | .vlog2 _ _ _ _ => true
  | .vrcp _ _ _ _ => true
  | .vrsq _ _ _ _ => true
  | .vsclF16 _ _ _ _ _ => true
  | .vsclB16 _ _ _ _ _ => true
  | .vsclF32 _ _ _ _ _ => true
  | .vcvtRn _ _ _ _ _ _ => true
  | .vcvtRz _ _ _ _ _ _ => true
  | .vcvtRu _ _ _ _ _ _ => true
  | .vcvtRd _ _ _ _ _ _ => true
  | .vqmxRn _ _ _ _ _ => true
  | .vqmxRz _ _ _ _ _ => true
  | .vqmxRu _ _ _ _ _ => true
  | .vqmxRd _ _ _ _ _ => true
  | .vdq _ _ _ _ _ => true
  | .ldvX _ _ _ _ _ _ => true
  | .ldvY _ _ _ _ _ _ => true
  | .stvX _ _ _ _ _ _ => true
  | .stvY _ _ _ _ _ _ => true
  | .lds _ _ _ _ _ _ => true
  | .sts _ _ _ _ _ _ => true
  | .copy _ _ _ _ hint _ => hint != 3
  | .copyo _ _ _ _ hint _ => hint != 3
  | .copyn _ _ _ _ hint _ => hint != 3
  | .wfill _ _ _ _ hint _ => hint != 3
  | .trel _ _ _ => true
  | .tstat _ _ _ _ => true
  | .gld _ _ _ hint _ _ => hint != 3
  | .gst _ _ _ hint _ _ => hint != 3
  | .aadd _ _ _ _ hint _ _ => hint != 3
  | .aswap _ _ _ _ hint _ _ => hint != 3
  | .acas _ _ _ _ hint _ _ => hint != 3
  | .amin _ _ _ _ hint _ _ => hint != 3
  | .amax _ _ _ _ hint _ _ => hint != 3
  | .aand _ _ _ _ hint _ _ => hint != 3
  | .aor _ _ _ _ hint _ _ => hint != 3
  | .aset _ _ _ _ => true
  | .aaddi _ _ _ _ => true
  | .astr _ _ _ _ => true
  | .cfence _ _ _ => true
  | .pref _ _ hint _ => hint != 3
  | .mcfg _ a b o => a.toNat ≤ 10 && b.toNat ≤ 10 && o != 3
  | .mpush _ _ _ => true
  | .mswap _ => true
  | .mshift _ _ _ _ _ _ => true
  | .mdrainF32 _ _ _ _ _ => true
  | .mdrainF16 _ _ _ _ _ => true
  | .mdrainB16 _ _ _ _ _ => true
  | .mclr _ _ => true
  | .mflush _ => true
  | .br _ _ => true
  | .brx _ _ => true
  | .call _ _ => true
  | .callx _ _ => true
  | .ret _ => true
  | .loop _ _ _ => true
  | .loopReg _ _ _ => true
  | .stage _ _ => true
  | .seg _ _ => true
  | .rdv _ => true
  | .waitc _ _ _ => true
  | .yield _ => true
  | .halt _ => true
  | .sys _ _ => true
  | .fbreg _ _ => true
  | .bkpt _ _ => true
  | .vgateOn _ _ _ => true
  | .vgateRet _ _ _ => true
  | .vgateOff _ _ _ => true
  | .xmvm _ _ _ _ _ _ => true
  | .xpush _ _ _ _ => true
  | .xpop _ _ _ => true
  | .xprog _ _ _ _ k => k != 0
  | .xver _ _ _ _ => true
  | .xremap _ _ k => k.toNat ≤ 23
  | .xremapClr _ _ => true
  | .xmon _ _ => true
  | .xcalOff _ _ _ _ _ => true
  | .xcalGain _ _ _ _ _ => true
  | .xcalMon _ _ => true
  | .xgate _ => true
  | .xwake _ => true
  | .xstat _ _ _ => true
  | .xldcCode _ _ _ _ => true
  | .xldcVer _ _ _ _ => true
  | .kern t ops => taskOkKern t ops
  | .gang t ops => taskOkGang t ops
  | .tcopy t ops => taskOkTcopy t ops
  | .tfill t ops => taskOkTfill t ops
  | .tdef t ops => taskOkTdef t ops
  | .tbind t ops => taskOkTbind t ops
  | .tdrop t ops => taskOkTdrop t ops
  | .tsig t ops => taskOkTsig t ops
  | .twait t ops => taskOkTwait t ops
  | .tfence t ops => taskOkTfence t ops
  | .tset t ops => taskOkTset t ops
  | .tadd t ops => taskOkTadd t ops
  | .tldq t ops => taskOkTldq t ops
  | .tloop t ops => taskOkTloop t ops
  | .tjmp t ops => taskOkTjmp t ops
  | .tbrz t ops => taskOkTbrz t ops
  | .tmark t ops => taskOkTmark t ops
  | .tpri t ops => taskOkTpri t ops
  | .thalt t ops => taskOkThalt t ops
  | .powerOn => true
  | .warmReset _ => true
  | .selfTestComplete => true
  | .bootGo _ => true
  | .bootVerifyComplete => true
  | .cmapnWrite _ cl _ => cl < 10
  | .controlRegisterWrite _ _ _ => true
  | .hostDeviceAccess _ _ _ => true
  | .hostInterrupt _ _ => true
  | .inboundRequest _ _ => true
  | .diagdataRead _ core => core < 80
  | .diagdataWrite _ core _ => core < 80
  | .cecntClear _ core bank => core < 80 && bank < 40
  | .gctlFormatWrite _ core grp _ => core < 80 && grp < 8
  | .retireDataBank _ core grp _ => core < 80 && grp < 8
  | .retireParityBank _ core grp => core < 80 && grp < 8
  | .retirementEffect core grp => core < 80 && grp < 8
  | .rebuild _ core grp => core < 80 && grp < 8
  | .rebuildRowStep core grp => core < 80 && grp < 8
  | .groupDisable _ core grp => core < 80 && grp < 8
  | .parityDrain core grp => core < 80 && grp < 8
  | .bundleDecode core => core < 80
  | .heldBundleIssue core => core < 80
  | .contextReady core ctx => core < 80 && ctx < 4
  | .issueLimitExpiry core => core < 80
  | .bundleChunkArrival core ctx => core < 80 && ctx < 4
  | .registerResultLanding core ctx _ => core < 80 && ctx < 4
  | .domainWakeComplete core dom => core < 80 && dom < 1024
  | .beatLanding core => core < 80
  | .copyAcceptance _ => true
  | .descriptorFetchReturn _ => true
  | .chunkTranslate _ => true
  | .holdAcquisition _ => true
  | .holdIdleExpiry _ => true
  | .parkRetry _ => true
  | .watchTrap core ctx => core < 80 && ctx < 4
  | .peerChunkCompletion _ _ => true
  | .peerCompletionTimeout _ _ => true
  | .peerFlushComplete queue _ => queue < 96
  | .chunkComplete _ _ => true
  | .copyRowWrite _ _ => true
  | .copyRowRead _ _ => true
  | .coherentAccessComplete _ => true
  | .writebackAck cl _ => cl < 10
  | .refreshSlot pc => pc < 256
  | .waypartWrite _ cl _ => cl < 10
  | .windowGrowVisit cl => cl < 10
  | .windowShrinkVisit cl => cl < 10
  | .commit _ _ => true
  | .timetableSwitch _ => true
  | .swapTailWrite _ _ => true
  | .swapCommand => true
  | .swapMark => true
  | .swapCopyComplete => true
  | .replay _ => true
  | .parkend _ _ => true
  | .invalidateIdentifier _ _ => true
  | .invalidateTileRange _ _ => true
  | .invalidateEverything _ => true
  | .invalidationReport => true
  | .biasFlip _ _ => true
  | .biasFlipMark => true
  | .biasFlipInvert => true
  | .biasFlipEnd _ => true
  | .clockAdvance => true
  | .rolloverRequest _ => true
  | .rolloverStart => true
  | .rolloverEnd => true
  | .coachIssue queue => queue < 96
  | .jobPlacement _ => true
  | .jobStart _ => true
  | .gangBundleSend _ => true
  | .rollback core ctx => core < 80 && ctx < 4
  | .rollbackRestore core ctx => core < 80 && ctx < 4
  | .preemptionRequest _ _ => true
  | .preemptionHalt _ => true
  | .jobSwapOut _ => true
  | .jobRestore _ => true
  | .coachComplete queue _ => queue < 96
  | .coachRetire queue => queue < 96
  | .wagonFree wagon => wagon < 8192
  | .wagonFill queue _ => queue < 96
  | .twaitLoadReturn queue => queue < 96
  | .decodeReadReturn queue => queue < 96
  | .tfenceComplete queue => queue < 96
  | .streamFault queue _ => queue < 96
  | .faultDeltaRestore queue => queue < 96
  | .frameZeroing => true
  | .frameZeroed fe => fe < 8
  | .xbarOpStart core _ => core < 80
  | .xmvmLanding core _ => core < 80
  | .xbarOpComplete core _ => core < 80
  | .autoMonitorRun core => core < 80
  | .bankWakeComplete core => core < 80
  | .qtailWrite _ queue _ => queue < 96
  | .ringLineReturn queue => queue < 96
  | .queueWake _ queue => queue < 96
  | .queueRequest _ queue _ => queue < 96
  | .queueEnable _ queue => queue < 96
  | .queueDisable _ queue => queue < 96
  | .streamResume _ queue => queue < 96
  | .streamDiscard _ queue => queue < 96
  | .eventTake fw => fw < 12
  | .eventDone fw => fw < 12
  | .firmwarePairMismatch pair => pair < 6
  | .mappingDecision => true
  | .mappingComplete eng => eng < 24
  | .sliceExpiry eng => eng < 24
  | .unmap _ eng => eng < 24
  | .unmapSaveComplete eng => eng < 24
  | .dispatch _ => true
  | .watchdogStage1 queue => queue < 96
  | .watchdogStage2 queue => queue < 96
  | .watchdogStage3 queue => queue < 96
  | .clusterMoveStart _ cl _ => cl < 10
  | .clusterMoveSwapped cl => cl < 10
  | .clusterMoveComplete cl => cl < 10
  | .trapResume _ agent => agent < 320
  | .trapFatal _ agent => agent < 320
  | .knownAnswerCheck core => core < 80
  | .dumpRequest _ agent => agent < 320
  | .dumpStart => true
  | .dumpComplete => true
  | .dumpAbort _ => true
  | .dmaskWrite _ agent _ => agent < 320
  | .debugHalt _ agent => agent < 320
  | .brakeVanEnable _ => true
  | .brakeVanDisable _ => true
  | .brakeVanStop _ => true
  | .brakeVanWrite => true
  | .sample core => core < 80
  | .loopCounterClear _ agent => agent < 320
  | .freeze _ => true
  | .attestationRequest _ => true
  | .attestationComplete => true
  | .keyLoad _ _ => true
  | .keyRevoke _ _ => true
  | .keyRevokeComplete => true
  | .thermalWarning _ _ => true
  | .thermalCritical _ _ => true
  | .thermalShutdown _ _ => true
  | .firmwareCoreAccess fw _ => fw < 12
  | .readingBelowTwarn _ _ => true
  | .sidingTrim _ siding _ => siding < 27 || (decide (32 ≤ siding) && decide (siding < 59))

end Sys2Proof
end

