-- ==== Sys2Proof/Decode.lean ====
section
/-! DEFINITION. Decoding slot words and tasks, and the encoder beside it (R168, R169, R215 to R224). Every word is either an
instruction or refused; a reserved value is refused. -/

namespace Sys2Proof

/-! ## Slot words -/

/-- The head of a slot word (R216). -/
def headOf (w : BitVec 32) : Hd := { n := w.getLsbD 31, g := w.extractLsb' 27 4, w := w.getLsbD 26 }

noncomputable section

/-- The S-class operation of an opcode and operand bits (R220 to R224). -/
def decS (op : Nat) (h : Hd) (x : BitVec 18) : Option Instr :=
  if op < 43 then
    if op < 22 then
      if op < 11 then
        if op < 6 then
          if op < 3 then
            if op < 2 then
              some (.add h (x.extractLsb' 12 6) (x.extractLsb' 6 6) (x.extractLsb' 0 6))
            else
              some (.sub h (x.extractLsb' 12 6) (x.extractLsb' 6 6) (x.extractLsb' 0 6))
          else
            if op < 4 then
              some (.and h (x.extractLsb' 12 6) (x.extractLsb' 6 6) (x.extractLsb' 0 6))
            else
              if op < 5 then
                some (.or h (x.extractLsb' 12 6) (x.extractLsb' 6 6) (x.extractLsb' 0 6))
              else
                some (.xor h (x.extractLsb' 12 6) (x.extractLsb' 6 6) (x.extractLsb' 0 6))
        else
          if op < 8 then
            if op < 7 then
              some (.andn h (x.extractLsb' 12 6) (x.extractLsb' 6 6) (x.extractLsb' 0 6))
            else
              some (.shl h (x.extractLsb' 12 6) (x.extractLsb' 6 6) (x.extractLsb' 0 6))
          else
            if op < 9 then
              some (.shr h (x.extractLsb' 12 6) (x.extractLsb' 6 6) (x.extractLsb' 0 6))
            else
              if op < 10 then
                some (.sar h (x.extractLsb' 12 6) (x.extractLsb' 6 6) (x.extractLsb' 0 6))
              else
                some (.mul h (x.extractLsb' 12 6) (x.extractLsb' 6 6) (x.extractLsb' 0 6))
      else
        if op < 16 then
          if op < 13 then
            if op < 12 then
              some (.mulh h (x.extractLsb' 12 6) (x.extractLsb' 6 6) (x.extractLsb' 0 6))
            else
              some (.mulhn h (x.extractLsb' 12 6) (x.extractLsb' 6 6) (x.extractLsb' 0 6))
          else
            if op < 14 then
              some (.div h (x.extractLsb' 12 6) (x.extractLsb' 6 6) (x.extractLsb' 0 6))
            else
              if op < 15 then
                some (.divn h (x.extractLsb' 12 6) (x.extractLsb' 6 6) (x.extractLsb' 0 6))
              else
                some (.rem h (x.extractLsb' 12 6) (x.extractLsb' 6 6) (x.extractLsb' 0 6))
        else
          if op < 19 then
            if op < 17 then
              some (.remn h (x.extractLsb' 12 6) (x.extractLsb' 6 6) (x.extractLsb' 0 6))
            else
              if op < 18 then
                some (.min h (x.extractLsb' 12 6) (x.extractLsb' 6 6) (x.extractLsb' 0 6))
              else
                some (.max h (x.extractLsb' 12 6) (x.extractLsb' 6 6) (x.extractLsb' 0 6))
          else
            if op < 20 then
              some (.minn h (x.extractLsb' 12 6) (x.extractLsb' 6 6) (x.extractLsb' 0 6))
            else
              if op < 21 then
                some (.maxn h (x.extractLsb' 12 6) (x.extractLsb' 6 6) (x.extractLsb' 0 6))
              else
                some (.addImm h (x.extractLsb' 12 6) (x.extractLsb' 6 6) (x.extractLsb' 0 6))
    else
      if op < 32 then
        if op < 27 then
          if op < 24 then
            if op < 23 then
              some (.andImm h (x.extractLsb' 12 6) (x.extractLsb' 6 6) (x.extractLsb' 0 6))
            else
              some (.orImm h (x.extractLsb' 12 6) (x.extractLsb' 6 6) (x.extractLsb' 0 6))
          else
            if op < 25 then
              some (.xorImm h (x.extractLsb' 12 6) (x.extractLsb' 6 6) (x.extractLsb' 0 6))
            else
              if op < 26 then
                some (.shlImm h (x.extractLsb' 12 6) (x.extractLsb' 6 6) (x.extractLsb' 0 6))
              else
                some (.shrImm h (x.extractLsb' 12 6) (x.extractLsb' 6 6) (x.extractLsb' 0 6))
        else
          if op < 29 then
            if op < 28 then
              some (.sarImm h (x.extractLsb' 12 6) (x.extractLsb' 6 6) (x.extractLsb' 0 6))
            else
              some (.setw0 h (x.extractLsb' 12 6) (x.extractLsb' 0 12))
          else
            if op < 30 then
              some (.setw1 h (x.extractLsb' 12 6) (x.extractLsb' 0 12))
            else
              if op < 31 then
                some (.setw2 h (x.extractLsb' 12 6) (x.extractLsb' 0 12))
              else
                some (.setw3 h (x.extractLsb' 12 6) (x.extractLsb' 0 12))
      else
        if op < 37 then
          if op < 34 then
            if op < 33 then
              some (.setw4 h (x.extractLsb' 12 6) (x.extractLsb' 0 12))
            else
              if x &&& 4080#18 = 0#18 then some (.setw5 h (x.extractLsb' 12 6) (x.extractLsb' 0 4)) else none
          else
            if op < 35 then
              if x &&& 60#18 = 0#18 then some (.sext h (x.extractLsb' 12 6) (x.extractLsb' 6 6) (x.extractLsb' 0 2)) else none
            else
              if op < 36 then
                if x &&& 63#18 = 0#18 then some (.clz h (x.extractLsb' 12 6) (x.extractLsb' 6 6)) else none
              else
                if x &&& 63#18 = 0#18 then some (.popc h (x.extractLsb' 12 6) (x.extractLsb' 6 6)) else none
        else
          if op < 40 then
            if op < 38 then
              some (.cmpEq h (x.extractLsb' 14 4) (x.extractLsb' 12 2) (x.extractLsb' 6 6) (x.extractLsb' 0 6))
            else
              if op < 39 then
                some (.cmpNe h (x.extractLsb' 14 4) (x.extractLsb' 12 2) (x.extractLsb' 6 6) (x.extractLsb' 0 6))
              else
                some (.cmpLt h (x.extractLsb' 14 4) (x.extractLsb' 12 2) (x.extractLsb' 6 6) (x.extractLsb' 0 6))
          else
            if op < 41 then
              some (.cmpLe h (x.extractLsb' 14 4) (x.extractLsb' 12 2) (x.extractLsb' 6 6) (x.extractLsb' 0 6))
            else
              if op < 42 then
                some (.cmpLtn h (x.extractLsb' 14 4) (x.extractLsb' 12 2) (x.extractLsb' 6 6) (x.extractLsb' 0 6))
              else
                some (.cmpLen h (x.extractLsb' 14 4) (x.extractLsb' 12 2) (x.extractLsb' 6 6) (x.extractLsb' 0 6))
  else
    if op < 64 then
      if op < 53 then
        if op < 48 then
          if op < 45 then
            if op < 44 then
              some (.cmpEqImm h (x.extractLsb' 14 4) (x.extractLsb' 12 2) (x.extractLsb' 6 6) (x.extractLsb' 0 6))
            else
              some (.cmpNeImm h (x.extractLsb' 14 4) (x.extractLsb' 12 2) (x.extractLsb' 6 6) (x.extractLsb' 0 6))
          else
            if op < 46 then
              some (.cmpLtImm h (x.extractLsb' 14 4) (x.extractLsb' 12 2) (x.extractLsb' 6 6) (x.extractLsb' 0 6))
            else
              if op < 47 then
                some (.cmpLeImm h (x.extractLsb' 14 4) (x.extractLsb' 12 2) (x.extractLsb' 6 6) (x.extractLsb' 0 6))
              else
                some (.cmpLtnImm h (x.extractLsb' 14 4) (x.extractLsb' 12 2) (x.extractLsb' 6 6) (x.extractLsb' 0 6))
        else
          if op < 50 then
            if op < 49 then
              some (.cmpLenImm h (x.extractLsb' 14 4) (x.extractLsb' 12 2) (x.extractLsb' 6 6) (x.extractLsb' 0 6))
            else
              some (.faddF32 h (x.extractLsb' 12 6) (x.extractLsb' 6 6) (x.extractLsb' 0 6))
          else
            if op < 51 then
              some (.faddF16 h (x.extractLsb' 12 6) (x.extractLsb' 6 6) (x.extractLsb' 0 6))
            else
              if op < 52 then
                some (.faddB16 h (x.extractLsb' 12 6) (x.extractLsb' 6 6) (x.extractLsb' 0 6))
              else
                some (.fsubF32 h (x.extractLsb' 12 6) (x.extractLsb' 6 6) (x.extractLsb' 0 6))
      else
        if op < 58 then
          if op < 55 then
            if op < 54 then
              some (.fsubF16 h (x.extractLsb' 12 6) (x.extractLsb' 6 6) (x.extractLsb' 0 6))
            else
              some (.fsubB16 h (x.extractLsb' 12 6) (x.extractLsb' 6 6) (x.extractLsb' 0 6))
          else
            if op < 56 then
              some (.fmulF32 h (x.extractLsb' 12 6) (x.extractLsb' 6 6) (x.extractLsb' 0 6))
            else
              if op < 57 then
                some (.fmulF16 h (x.extractLsb' 12 6) (x.extractLsb' 6 6) (x.extractLsb' 0 6))
              else
                some (.fmulB16 h (x.extractLsb' 12 6) (x.extractLsb' 6 6) (x.extractLsb' 0 6))
        else
          if op < 61 then
            if op < 59 then
              some (.ffmaF32 h (x.extractLsb' 12 6) (x.extractLsb' 6 6) (x.extractLsb' 0 6))
            else
              if op < 60 then
                some (.ffmaF16 h (x.extractLsb' 12 6) (x.extractLsb' 6 6) (x.extractLsb' 0 6))
              else
                some (.ffmaB16 h (x.extractLsb' 12 6) (x.extractLsb' 6 6) (x.extractLsb' 0 6))
          else
            if op < 62 then
              some (.fminF32 h (x.extractLsb' 12 6) (x.extractLsb' 6 6) (x.extractLsb' 0 6))
            else
              if op < 63 then
                some (.fminF16 h (x.extractLsb' 12 6) (x.extractLsb' 6 6) (x.extractLsb' 0 6))
              else
                some (.fminB16 h (x.extractLsb' 12 6) (x.extractLsb' 6 6) (x.extractLsb' 0 6))
    else
      if op < 74 then
        if op < 69 then
          if op < 66 then
            if op < 65 then
              some (.fmaxF32 h (x.extractLsb' 12 6) (x.extractLsb' 6 6) (x.extractLsb' 0 6))
            else
              some (.fmaxF16 h (x.extractLsb' 12 6) (x.extractLsb' 6 6) (x.extractLsb' 0 6))
          else
            if op < 67 then
              some (.fmaxB16 h (x.extractLsb' 12 6) (x.extractLsb' 6 6) (x.extractLsb' 0 6))
            else
              if op < 68 then
                some (.fcmpEqF32 h (x.extractLsb' 14 4) (x.extractLsb' 12 2) (x.extractLsb' 6 6) (x.extractLsb' 0 6))
              else
                some (.fcmpEqF16 h (x.extractLsb' 14 4) (x.extractLsb' 12 2) (x.extractLsb' 6 6) (x.extractLsb' 0 6))
        else
          if op < 71 then
            if op < 70 then
              some (.fcmpEqB16 h (x.extractLsb' 14 4) (x.extractLsb' 12 2) (x.extractLsb' 6 6) (x.extractLsb' 0 6))
            else
              some (.fcmpLtF32 h (x.extractLsb' 14 4) (x.extractLsb' 12 2) (x.extractLsb' 6 6) (x.extractLsb' 0 6))
          else
            if op < 72 then
              some (.fcmpLtF16 h (x.extractLsb' 14 4) (x.extractLsb' 12 2) (x.extractLsb' 6 6) (x.extractLsb' 0 6))
            else
              if op < 73 then
                some (.fcmpLtB16 h (x.extractLsb' 14 4) (x.extractLsb' 12 2) (x.extractLsb' 6 6) (x.extractLsb' 0 6))
              else
                some (.fcmpLeF32 h (x.extractLsb' 14 4) (x.extractLsb' 12 2) (x.extractLsb' 6 6) (x.extractLsb' 0 6))
      else
        if op < 79 then
          if op < 76 then
            if op < 75 then
              some (.fcmpLeF16 h (x.extractLsb' 14 4) (x.extractLsb' 12 2) (x.extractLsb' 6 6) (x.extractLsb' 0 6))
            else
              some (.fcmpLeB16 h (x.extractLsb' 14 4) (x.extractLsb' 12 2) (x.extractLsb' 6 6) (x.extractLsb' 0 6))
          else
            if op < 77 then
              some (.fcvt h (x.extractLsb' 12 6) (x.extractLsb' 6 6) (x.extractLsb' 4 2) (x.extractLsb' 2 2) (x.extractLsb' 0 2))
            else
              if op < 78 then
                if x &&& 4#18 = 0#18 then some (.itof h (x.extractLsb' 12 6) (x.extractLsb' 6 6) (x.extractLsb' 4 2) (x.extractLsb' 3 1) (x.extractLsb' 0 2)) else none
              else
                some (.ftoi h (x.extractLsb' 12 6) (x.extractLsb' 6 6) (x.extractLsb' 4 2) (x.extractLsb' 2 2) (x.extractLsb' 0 2))
        else
          if op < 82 then
            if op < 80 then
              some (.ftoiN h (x.extractLsb' 12 6) (x.extractLsb' 6 6) (x.extractLsb' 4 2) (x.extractLsb' 2 2) (x.extractLsb' 0 2))
            else
              if op < 81 then
                if x &&& 12528#18 = 0#18 then some (.pand h (x.extractLsb' 14 4) (x.extractLsb' 8 4) (x.extractLsb' 0 4)) else if x &&& 12528#18 = 16#18 then some (.por h (x.extractLsb' 14 4) (x.extractLsb' 8 4) (x.extractLsb' 0 4)) else if x &&& 12528#18 = 32#18 then some (.pxor h (x.extractLsb' 14 4) (x.extractLsb' 8 4) (x.extractLsb' 0 4)) else if x &&& 12528#18 = 48#18 then some (.pandn h (x.extractLsb' 14 4) (x.extractLsb' 8 4) (x.extractLsb' 0 4)) else if x &&& 12543#18 = 64#18 then some (.pmov h (x.extractLsb' 14 4) (x.extractLsb' 8 4)) else none
              else
                some (.sel h (x.extractLsb' 12 6) (x.extractLsb' 6 6) (x.extractLsb' 0 6))
          else
            if op < 83 then
              if x &&& 4064#18 = 0#18 then some (.mova h (x.extractLsb' 12 6) (x.extractLsb' 4 1) (x.extractLsb' 0 4)) else none
            else
              if op < 84 then
                some (.mfs h (x.extractLsb' 12 6) (x.extractLsb' 0 12))
              else
                some (.mts h (x.extractLsb' 12 6) (x.extractLsb' 0 12))

/-- The V-class operation of an opcode and operand bits (R220 to R224). -/
def decV (op : Nat) (h : Hd) (u : Unit2) (x : BitVec 18) : Option Instr :=
  if op < 138 then
    if op < 111 then
      if op < 98 then
        if op < 91 then
          if op < 88 then
            if op < 86 then
              some (.vaddI8 h u (x.extractLsb' 12 6) (x.extractLsb' 6 6) (x.extractLsb' 0 6))
            else
              if op < 87 then
                some (.vaddI16 h u (x.extractLsb' 12 6) (x.extractLsb' 6 6) (x.extractLsb' 0 6))
              else
                some (.vaddI32 h u (x.extractLsb' 12 6) (x.extractLsb' 6 6) (x.extractLsb' 0 6))
          else
            if op < 89 then
              some (.vaddF16 h u (x.extractLsb' 12 6) (x.extractLsb' 6 6) (x.extractLsb' 0 6))
            else
              if op < 90 then
                some (.vaddB16 h u (x.extractLsb' 12 6) (x.extractLsb' 6 6) (x.extractLsb' 0 6))
              else
                some (.vaddF32 h u (x.extractLsb' 12 6) (x.extractLsb' 6 6) (x.extractLsb' 0 6))
        else
          if op < 94 then
            if op < 92 then
              some (.vsubI8 h u (x.extractLsb' 12 6) (x.extractLsb' 6 6) (x.extractLsb' 0 6))
            else
              if op < 93 then
                some (.vsubI16 h u (x.extractLsb' 12 6) (x.extractLsb' 6 6) (x.extractLsb' 0 6))
              else
                some (.vsubI32 h u (x.extractLsb' 12 6) (x.extractLsb' 6 6) (x.extractLsb' 0 6))
          else
            if op < 96 then
              if op < 95 then
                some (.vsubF16 h u (x.extractLsb' 12 6) (x.extractLsb' 6 6) (x.extractLsb' 0 6))
              else
                some (.vsubB16 h u (x.extractLsb' 12 6) (x.extractLsb' 6 6) (x.extractLsb' 0 6))
            else
              if op < 97 then
                some (.vsubF32 h u (x.extractLsb' 12 6) (x.extractLsb' 6 6) (x.extractLsb' 0 6))
              else
                some (.vmulI8 h u (x.extractLsb' 12 6) (x.extractLsb' 6 6) (x.extractLsb' 0 6))
      else
        if op < 104 then
          if op < 101 then
            if op < 99 then
              some (.vmulI16 h u (x.extractLsb' 12 6) (x.extractLsb' 6 6) (x.extractLsb' 0 6))
            else
              if op < 100 then
                some (.vmulI32 h u (x.extractLsb' 12 6) (x.extractLsb' 6 6) (x.extractLsb' 0 6))
              else
                some (.vmulF16 h u (x.extractLsb' 12 6) (x.extractLsb' 6 6) (x.extractLsb' 0 6))
          else
            if op < 102 then
              some (.vmulB16 h u (x.extractLsb' 12 6) (x.extractLsb' 6 6) (x.extractLsb' 0 6))
            else
              if op < 103 then
                some (.vmulF32 h u (x.extractLsb' 12 6) (x.extractLsb' 6 6) (x.extractLsb' 0 6))
              else
                some (.vfmaI8 h u (x.extractLsb' 12 6) (x.extractLsb' 6 6) (x.extractLsb' 0 6))
        else
          if op < 107 then
            if op < 105 then
              some (.vfmaI16 h u (x.extractLsb' 12 6) (x.extractLsb' 6 6) (x.extractLsb' 0 6))
            else
              if op < 106 then
                some (.vfmaI32 h u (x.extractLsb' 12 6) (x.extractLsb' 6 6) (x.extractLsb' 0 6))
              else
                some (.vfmaF16 h u (x.extractLsb' 12 6) (x.extractLsb' 6 6) (x.extractLsb' 0 6))
          else
            if op < 109 then
              if op < 108 then
                some (.vfmaB16 h u (x.extractLsb' 12 6) (x.extractLsb' 6 6) (x.extractLsb' 0 6))
              else
                some (.vfmaF32 h u (x.extractLsb' 12 6) (x.extractLsb' 6 6) (x.extractLsb' 0 6))
            else
              if op < 110 then
                some (.vminI8 h u (x.extractLsb' 12 6) (x.extractLsb' 6 6) (x.extractLsb' 0 6))
              else
                some (.vminI16 h u (x.extractLsb' 12 6) (x.extractLsb' 6 6) (x.extractLsb' 0 6))
    else
      if op < 124 then
        if op < 117 then
          if op < 114 then
            if op < 112 then
              some (.vminI32 h u (x.extractLsb' 12 6) (x.extractLsb' 6 6) (x.extractLsb' 0 6))
            else
              if op < 113 then
                some (.vminN8 h u (x.extractLsb' 12 6) (x.extractLsb' 6 6) (x.extractLsb' 0 6))
              else
                some (.vminN16 h u (x.extractLsb' 12 6) (x.extractLsb' 6 6) (x.extractLsb' 0 6))
          else
            if op < 115 then
              some (.vminN32 h u (x.extractLsb' 12 6) (x.extractLsb' 6 6) (x.extractLsb' 0 6))
            else
              if op < 116 then
                some (.vminF16 h u (x.extractLsb' 12 6) (x.extractLsb' 6 6) (x.extractLsb' 0 6))
              else
                some (.vminB16 h u (x.extractLsb' 12 6) (x.extractLsb' 6 6) (x.extractLsb' 0 6))
        else
          if op < 120 then
            if op < 118 then
              some (.vminF32 h u (x.extractLsb' 12 6) (x.extractLsb' 6 6) (x.extractLsb' 0 6))
            else
              if op < 119 then
                some (.vmaxI8 h u (x.extractLsb' 12 6) (x.extractLsb' 6 6) (x.extractLsb' 0 6))
              else
                some (.vmaxI16 h u (x.extractLsb' 12 6) (x.extractLsb' 6 6) (x.extractLsb' 0 6))
          else
            if op < 122 then
              if op < 121 then
                some (.vmaxI32 h u (x.extractLsb' 12 6) (x.extractLsb' 6 6) (x.extractLsb' 0 6))
              else
                some (.vmaxN8 h u (x.extractLsb' 12 6) (x.extractLsb' 6 6) (x.extractLsb' 0 6))
            else
              if op < 123 then
                some (.vmaxN16 h u (x.extractLsb' 12 6) (x.extractLsb' 6 6) (x.extractLsb' 0 6))
              else
                some (.vmaxN32 h u (x.extractLsb' 12 6) (x.extractLsb' 6 6) (x.extractLsb' 0 6))
      else
        if op < 131 then
          if op < 127 then
            if op < 125 then
              some (.vmaxF16 h u (x.extractLsb' 12 6) (x.extractLsb' 6 6) (x.extractLsb' 0 6))
            else
              if op < 126 then
                some (.vmaxB16 h u (x.extractLsb' 12 6) (x.extractLsb' 6 6) (x.extractLsb' 0 6))
              else
                some (.vmaxF32 h u (x.extractLsb' 12 6) (x.extractLsb' 6 6) (x.extractLsb' 0 6))
          else
            if op < 129 then
              if op < 128 then
                some (.vsaddI8 h u (x.extractLsb' 12 6) (x.extractLsb' 6 6) (x.extractLsb' 0 6))
              else
                some (.vsaddI16 h u (x.extractLsb' 12 6) (x.extractLsb' 6 6) (x.extractLsb' 0 6))
            else
              if op < 130 then
                some (.vsaddI32 h u (x.extractLsb' 12 6) (x.extractLsb' 6 6) (x.extractLsb' 0 6))
              else
                some (.vsaddN8 h u (x.extractLsb' 12 6) (x.extractLsb' 6 6) (x.extractLsb' 0 6))
        else
          if op < 134 then
            if op < 132 then
              some (.vsaddN16 h u (x.extractLsb' 12 6) (x.extractLsb' 6 6) (x.extractLsb' 0 6))
            else
              if op < 133 then
                some (.vsaddN32 h u (x.extractLsb' 12 6) (x.extractLsb' 6 6) (x.extractLsb' 0 6))
              else
                some (.vssubI8 h u (x.extractLsb' 12 6) (x.extractLsb' 6 6) (x.extractLsb' 0 6))
          else
            if op < 136 then
              if op < 135 then
                some (.vssubI16 h u (x.extractLsb' 12 6) (x.extractLsb' 6 6) (x.extractLsb' 0 6))
              else
                some (.vssubI32 h u (x.extractLsb' 12 6) (x.extractLsb' 6 6) (x.extractLsb' 0 6))
            else
              if op < 137 then
                some (.vssubN8 h u (x.extractLsb' 12 6) (x.extractLsb' 6 6) (x.extractLsb' 0 6))
              else
                some (.vssubN16 h u (x.extractLsb' 12 6) (x.extractLsb' 6 6) (x.extractLsb' 0 6))
  else
    if op < 165 then
      if op < 151 then
        if op < 144 then
          if op < 141 then
            if op < 139 then
              some (.vssubN32 h u (x.extractLsb' 12 6) (x.extractLsb' 6 6) (x.extractLsb' 0 6))
            else
              if op < 140 then
                some (.vcmpI8 h u (x.extractLsb' 15 3) (x.extractLsb' 12 3) (x.extractLsb' 6 6) (x.extractLsb' 0 6))
              else
                some (.vcmpI16 h u (x.extractLsb' 15 3) (x.extractLsb' 12 3) (x.extractLsb' 6 6) (x.extractLsb' 0 6))
          else
            if op < 142 then
              some (.vcmpI32 h u (x.extractLsb' 15 3) (x.extractLsb' 12 3) (x.extractLsb' 6 6) (x.extractLsb' 0 6))
            else
              if op < 143 then
                some (.vcmpN8 h u (x.extractLsb' 15 3) (x.extractLsb' 12 3) (x.extractLsb' 6 6) (x.extractLsb' 0 6))
              else
                some (.vcmpN16 h u (x.extractLsb' 15 3) (x.extractLsb' 12 3) (x.extractLsb' 6 6) (x.extractLsb' 0 6))
        else
          if op < 147 then
            if op < 145 then
              some (.vcmpN32 h u (x.extractLsb' 15 3) (x.extractLsb' 12 3) (x.extractLsb' 6 6) (x.extractLsb' 0 6))
            else
              if op < 146 then
                some (.vcmpF16 h u (x.extractLsb' 15 3) (x.extractLsb' 12 3) (x.extractLsb' 6 6) (x.extractLsb' 0 6))
              else
                some (.vcmpB16 h u (x.extractLsb' 15 3) (x.extractLsb' 12 3) (x.extractLsb' 6 6) (x.extractLsb' 0 6))
          else
            if op < 149 then
              if op < 148 then
                some (.vcmpF32 h u (x.extractLsb' 15 3) (x.extractLsb' 12 3) (x.extractLsb' 6 6) (x.extractLsb' 0 6))
              else
                some (.vshl8 h u (x.extractLsb' 12 6) (x.extractLsb' 6 6) (x.extractLsb' 0 6))
            else
              if op < 150 then
                some (.vshl16 h u (x.extractLsb' 12 6) (x.extractLsb' 6 6) (x.extractLsb' 0 6))
              else
                some (.vshl32 h u (x.extractLsb' 12 6) (x.extractLsb' 6 6) (x.extractLsb' 0 6))
      else
        if op < 158 then
          if op < 154 then
            if op < 152 then
              some (.vshr8 h u (x.extractLsb' 12 6) (x.extractLsb' 6 6) (x.extractLsb' 0 6))
            else
              if op < 153 then
                some (.vshr16 h u (x.extractLsb' 12 6) (x.extractLsb' 6 6) (x.extractLsb' 0 6))
              else
                some (.vshr32 h u (x.extractLsb' 12 6) (x.extractLsb' 6 6) (x.extractLsb' 0 6))
          else
            if op < 156 then
              if op < 155 then
                some (.vsar8 h u (x.extractLsb' 12 6) (x.extractLsb' 6 6) (x.extractLsb' 0 6))
              else
                some (.vsar16 h u (x.extractLsb' 12 6) (x.extractLsb' 6 6) (x.extractLsb' 0 6))
            else
              if op < 157 then
                some (.vsar32 h u (x.extractLsb' 12 6) (x.extractLsb' 6 6) (x.extractLsb' 0 6))
              else
                if x &&& 48#18 = 0#18 then some (.vreds h u (x.extractLsb' 12 6) (x.extractLsb' 6 6) (x.extractLsb' 0 4)) else none
        else
          if op < 161 then
            if op < 159 then
              if x &&& 48#18 = 0#18 then some (.vredm h u (x.extractLsb' 12 6) (x.extractLsb' 6 6) (x.extractLsb' 0 4)) else none
            else
              if op < 160 then
                if x &&& 48#18 = 0#18 then some (.vredn h u (x.extractLsb' 12 6) (x.extractLsb' 6 6) (x.extractLsb' 0 4)) else none
              else
                if x &&& 48#18 = 0#18 then some (.vabs h u (x.extractLsb' 12 6) (x.extractLsb' 6 6) (x.extractLsb' 0 4)) else none
          else
            if op < 163 then
              if op < 162 then
                if x &&& 48#18 = 0#18 then some (.vneg h u (x.extractLsb' 12 6) (x.extractLsb' 6 6) (x.extractLsb' 0 4)) else none
              else
                if x &&& 48#18 = 0#18 then some (.vsplat h u (x.extractLsb' 12 6) (x.extractLsb' 6 6) (x.extractLsb' 0 4)) else none
            else
              if op < 164 then
                some (.vset8 h u (x.extractLsb' 12 6) (x.extractLsb' 0 12))
              else
                some (.vset16 h u (x.extractLsb' 12 6) (x.extractLsb' 0 12))
    else
      if op < 178 then
        if op < 171 then
          if op < 168 then
            if op < 166 then
              some (.vset32 h u (x.extractLsb' 12 6) (x.extractLsb' 0 12))
            else
              if op < 167 then
                some (.vand h u (x.extractLsb' 12 6) (x.extractLsb' 6 6) (x.extractLsb' 0 6))
              else
                some (.vor h u (x.extractLsb' 12 6) (x.extractLsb' 6 6) (x.extractLsb' 0 6))
          else
            if op < 169 then
              some (.vxor h u (x.extractLsb' 12 6) (x.extractLsb' 6 6) (x.extractLsb' 0 6))
            else
              if op < 170 then
                if x &&& 56#18 = 0#18 then some (.vsel h u (x.extractLsb' 12 6) (x.extractLsb' 6 6) (x.extractLsb' 0 3)) else none
              else
                some (.vperm h u (x.extractLsb' 12 6) (x.extractLsb' 6 6) (x.extractLsb' 0 6))
        else
          if op < 174 then
            if op < 172 then
              some (.vrot h u (x.extractLsb' 12 6) (x.extractLsb' 6 6) (x.extractLsb' 0 6))
            else
              if op < 173 then
                if x &&& 63#18 = 0#18 then some (.xfer h u (x.extractLsb' 12 6) (x.extractLsb' 6 6)) else none
              else
                if x &&& 960#18 = 0#18 then some (.vtest h u (x.extractLsb' 14 4) (x.extractLsb' 10 4) (x.extractLsb' 0 6)) else none
          else
            if op < 176 then
              if op < 175 then
                if x &&& 262016#18 = 0#18 then some (.vframe h u (x.extractLsb' 0 7)) else none
              else
                if x &&& 233016#18 = 0#18 then some (.kopAnd h u (x.extractLsb' 12 3) (x.extractLsb' 6 3) (x.extractLsb' 0 3)) else if x &&& 233016#18 = 32768#18 then some (.kopOr h u (x.extractLsb' 12 3) (x.extractLsb' 6 3) (x.extractLsb' 0 3)) else if x &&& 233016#18 = 65536#18 then some (.kopXor h u (x.extractLsb' 12 3) (x.extractLsb' 6 3) (x.extractLsb' 0 3)) else if x &&& 233016#18 = 98304#18 then some (.kopAndn h u (x.extractLsb' 12 3) (x.extractLsb' 6 3) (x.extractLsb' 0 3)) else if x &&& 233023#18 = 131072#18 then some (.kopNot h u (x.extractLsb' 12 3) (x.extractLsb' 6 3)) else if x &&& 233023#18 = 163840#18 then some (.kopMov h u (x.extractLsb' 12 3) (x.extractLsb' 6 3)) else none
            else
              if op < 177 then
                if x &&& 63#18 = 0#18 then some (.vexp2 h u (x.extractLsb' 12 6) (x.extractLsb' 6 6)) else none
              else
                if x &&& 63#18 = 0#18 then some (.vlog2 h u (x.extractLsb' 12 6) (x.extractLsb' 6 6)) else none
      else
        if op < 185 then
          if op < 181 then
            if op < 179 then
              if x &&& 63#18 = 0#18 then some (.vrcp h u (x.extractLsb' 12 6) (x.extractLsb' 6 6)) else none
            else
              if op < 180 then
                if x &&& 63#18 = 0#18 then some (.vrsq h u (x.extractLsb' 12 6) (x.extractLsb' 6 6)) else none
              else
                some (.vsclF16 h u (x.extractLsb' 12 6) (x.extractLsb' 6 6) (x.extractLsb' 0 6))
          else
            if op < 183 then
              if op < 182 then
                some (.vsclB16 h u (x.extractLsb' 12 6) (x.extractLsb' 6 6) (x.extractLsb' 0 6))
              else
                some (.vsclF32 h u (x.extractLsb' 12 6) (x.extractLsb' 6 6) (x.extractLsb' 0 6))
            else
              if op < 184 then
                some (.vcvtRn h u (x.extractLsb' 12 6) (x.extractLsb' 6 6) (x.extractLsb' 3 3) (x.extractLsb' 0 3))
              else
                some (.vcvtRz h u (x.extractLsb' 12 6) (x.extractLsb' 6 6) (x.extractLsb' 3 3) (x.extractLsb' 0 3))
        else
          if op < 188 then
            if op < 186 then
              some (.vcvtRu h u (x.extractLsb' 12 6) (x.extractLsb' 6 6) (x.extractLsb' 3 3) (x.extractLsb' 0 3))
            else
              if op < 187 then
                some (.vcvtRd h u (x.extractLsb' 12 6) (x.extractLsb' 6 6) (x.extractLsb' 3 3) (x.extractLsb' 0 3))
              else
                some (.vqmxRn h u (x.extractLsb' 12 6) (x.extractLsb' 6 6) (x.extractLsb' 0 6))
          else
            if op < 190 then
              if op < 189 then
                some (.vqmxRz h u (x.extractLsb' 12 6) (x.extractLsb' 6 6) (x.extractLsb' 0 6))
              else
                some (.vqmxRu h u (x.extractLsb' 12 6) (x.extractLsb' 6 6) (x.extractLsb' 0 6))
            else
              if op < 191 then
                some (.vqmxRd h u (x.extractLsb' 12 6) (x.extractLsb' 6 6) (x.extractLsb' 0 6))
              else
                some (.vdq h u (x.extractLsb' 12 6) (x.extractLsb' 6 6) (x.extractLsb' 0 6))

/-- The C-class operation of an opcode and operand bits (R220 to R224). -/
def decC (op : Nat) (h : Hd) (u : Unit2) (x : BitVec 18) : Option Instr :=
  if op < 205 then
    if op < 198 then
      if op < 195 then
        if op < 193 then
          some (.ldvX h u (x.extractLsb' 12 6) (x.extractLsb' 7 5) (x.extractLsb' 3 4) (x.extractLsb' 0 3))
        else
          if op < 194 then
            some (.ldvY h u (x.extractLsb' 12 6) (x.extractLsb' 7 5) (x.extractLsb' 3 4) (x.extractLsb' 0 3))
          else
            some (.stvX h u (x.extractLsb' 12 6) (x.extractLsb' 7 5) (x.extractLsb' 3 4) (x.extractLsb' 0 3))
      else
        if op < 196 then
          some (.stvY h u (x.extractLsb' 12 6) (x.extractLsb' 7 5) (x.extractLsb' 3 4) (x.extractLsb' 0 3))
        else
          if op < 197 then
            some (.lds h u (x.extractLsb' 12 6) (x.extractLsb' 7 5) (x.extractLsb' 3 4) (x.extractLsb' 0 3))
          else
            some (.sts h u (x.extractLsb' 12 6) (x.extractLsb' 7 5) (x.extractLsb' 3 4) (x.extractLsb' 0 3))
    else
      if op < 201 then
        if op < 199 then
          if x &&& 3#18 = 0#18 then some (.copy h u (x.extractLsb' 14 4) (x.extractLsb' 6 8) (x.extractLsb' 4 2) (x.extractLsb' 2 2)) else none
        else
          if op < 200 then
            if x &&& 3#18 = 0#18 then some (.copyo h u (x.extractLsb' 14 4) (x.extractLsb' 6 8) (x.extractLsb' 4 2) (x.extractLsb' 2 2)) else none
          else
            if x &&& 3#18 = 0#18 then some (.copyn h u (x.extractLsb' 14 4) (x.extractLsb' 6 8) (x.extractLsb' 4 2) (x.extractLsb' 2 2)) else none
      else
        if op < 203 then
          if op < 202 then
            if x &&& 12291#18 = 0#18 then some (.wfill h u (x.extractLsb' 14 4) (x.extractLsb' 6 6) (x.extractLsb' 4 2) (x.extractLsb' 2 2)) else none
          else
            if x &&& 245823#18 = 0#18 then some (.trel h u (x.extractLsb' 6 8)) else none
        else
          if op < 204 then
            if x &&& 63#18 = 0#18 then some (.tstat h u (x.extractLsb' 14 4) (x.extractLsb' 6 8)) else none
          else
            if x &&& 16320#18 = 0#18 then some (.gld h u (x.extractLsb' 14 4) (x.extractLsb' 4 2) (x.extractLsb' 2 2) (x.extractLsb' 0 2)) else none
  else
    if op < 211 then
      if op < 208 then
        if op < 206 then
          if x &&& 16320#18 = 0#18 then some (.gst h u (x.extractLsb' 14 4) (x.extractLsb' 4 2) (x.extractLsb' 2 2) (x.extractLsb' 0 2)) else none
        else
          if op < 207 then
            if x &&& 962#18 = 2#18 then some (.aadd h u (x.extractLsb' 14 4) (x.extractLsb' 10 4) (x.extractLsb' 4 2) (x.extractLsb' 2 2) (x.extractLsb' 0 1)) else none
          else
            if x &&& 962#18 = 2#18 then some (.aswap h u (x.extractLsb' 14 4) (x.extractLsb' 10 4) (x.extractLsb' 4 2) (x.extractLsb' 2 2) (x.extractLsb' 0 1)) else none
      else
        if op < 209 then
          if x &&& 962#18 = 2#18 then some (.acas h u (x.extractLsb' 14 4) (x.extractLsb' 10 4) (x.extractLsb' 4 2) (x.extractLsb' 2 2) (x.extractLsb' 0 1)) else none
        else
          if op < 210 then
            if x &&& 962#18 = 2#18 then some (.amin h u (x.extractLsb' 14 4) (x.extractLsb' 10 4) (x.extractLsb' 4 2) (x.extractLsb' 2 2) (x.extractLsb' 0 1)) else none
          else
            if x &&& 962#18 = 2#18 then some (.amax h u (x.extractLsb' 14 4) (x.extractLsb' 10 4) (x.extractLsb' 4 2) (x.extractLsb' 2 2) (x.extractLsb' 0 1)) else none
    else
      if op < 214 then
        if op < 212 then
          if x &&& 962#18 = 2#18 then some (.aand h u (x.extractLsb' 14 4) (x.extractLsb' 10 4) (x.extractLsb' 4 2) (x.extractLsb' 2 2) (x.extractLsb' 0 1)) else none
        else
          if op < 213 then
            if x &&& 962#18 = 2#18 then some (.aor h u (x.extractLsb' 14 4) (x.extractLsb' 10 4) (x.extractLsb' 4 2) (x.extractLsb' 2 2) (x.extractLsb' 0 1)) else none
          else
            if x &&& 16320#18 = 0#18 then some (.aset h u (x.extractLsb' 14 4) (x.extractLsb' 0 6)) else none
      else
        if op < 216 then
          if op < 215 then
            if x &&& 12288#18 = 0#18 then some (.aaddi h u (x.extractLsb' 14 4) (x.extractLsb' 0 12)) else none
          else
            if x &&& 12288#18 = 0#18 then some (.astr h u (x.extractLsb' 14 4) (x.extractLsb' 0 12)) else none
        else
          if op < 217 then
            if x &&& 262140#18 = 0#18 then some (.cfence h u (x.extractLsb' 0 2)) else none
          else
            if x &&& 262083#18 = 0#18 then some (.pref h u (x.extractLsb' 4 2) (x.extractLsb' 2 2)) else none

/-- The M-class operation of an opcode and operand bits (R220 to R224). -/
def decM (op : Nat) (h : Hd) (x : BitVec 18) : Option Instr :=
  if op < 222 then
    if op < 220 then
      if op < 219 then
        if x &&& 255#18 = 0#18 then some (.mcfg h (x.extractLsb' 14 4) (x.extractLsb' 10 4) (x.extractLsb' 8 2)) else none
      else
        some (.mpush h (x.extractLsb' 12 6) (x.extractLsb' 0 12))
    else
      if op < 221 then
        if x &&& 262143#18 = 0#18 then some (.mswap h) else none
      else
        some (.mshift h (x.extractLsb' 12 6) (x.extractLsb' 11 1) (x.extractLsb' 9 2) (x.extractLsb' 7 2) (x.extractLsb' 0 7))
  else
    if op < 224 then
      if op < 223 then
        if x &&& 1536#18 = 0#18 then some (.mdrainF32 h (x.extractLsb' 12 6) (x.extractLsb' 11 1) (x.extractLsb' 7 2) (x.extractLsb' 0 7)) else none
      else
        if x &&& 1536#18 = 0#18 then some (.mdrainF16 h (x.extractLsb' 12 6) (x.extractLsb' 11 1) (x.extractLsb' 7 2) (x.extractLsb' 0 7)) else none
    else
      if op < 225 then
        if x &&& 1536#18 = 0#18 then some (.mdrainB16 h (x.extractLsb' 12 6) (x.extractLsb' 11 1) (x.extractLsb' 7 2) (x.extractLsb' 0 7)) else none
      else
        if op < 226 then
          if x &&& 261759#18 = 0#18 then some (.mclr h (x.extractLsb' 7 2)) else none
        else
          if x &&& 262143#18 = 0#18 then some (.mflush h) else none

/-- The B-class operation of an opcode and operand bits (R220 to R224). -/
def decB (op : Nat) (h : Hd) (x : BitVec 18) : Option Instr :=
  if op < 235 then
    if op < 231 then
      if op < 229 then
        if op < 228 then
          some (.br h (x.extractLsb' 0 18))
        else
          if x &&& 262080#18 = 0#18 then some (.brx h (x.extractLsb' 0 6)) else none
      else
        if op < 230 then
          some (.call h (x.extractLsb' 0 18))
        else
          if x &&& 262080#18 = 0#18 then some (.callx h (x.extractLsb' 0 6)) else none
    else
      if op < 233 then
        if op < 232 then
          if x &&& 262143#18 = 0#18 then some (.ret h) else none
        else
          if x &&& 131072#18 = 131072#18 then some (.loop h (x.extractLsb' 11 6) (x.extractLsb' 0 11)) else if x &&& 133056#18 = 0#18 then some (.loopReg h (x.extractLsb' 11 6) (x.extractLsb' 0 6)) else none
      else
        if op < 234 then
          if x &&& 262136#18 = 0#18 then some (.stage h (x.extractLsb' 0 3)) else none
        else
          if x &&& 262080#18 = 0#18 then some (.seg h (x.extractLsb' 0 6)) else none
  else
    if op < 239 then
      if op < 237 then
        if op < 236 then
          if x &&& 262143#18 = 0#18 then some (.rdv h) else none
        else
          some (.waitc h (x.extractLsb' 14 4) (x.extractLsb' 0 14))
      else
        if op < 238 then
          if x &&& 262143#18 = 0#18 then some (.yield h) else none
        else
          if x &&& 262143#18 = 0#18 then some (.halt h) else none
    else
      if op < 241 then
        if op < 240 then
          if x &&& 258048#18 = 0#18 then some (.sys h (x.extractLsb' 0 12)) else none
        else
          some (.fbreg h (x.extractLsb' 0 18))
      else
        if op < 242 then
          if x &&& 258048#18 = 0#18 then some (.bkpt h (x.extractLsb' 0 12)) else none
        else
          if x &&& 130816#18 = 0#18 then some (.vgateOn h (x.extractLsb' 17 1) (x.extractLsb' 0 8)) else if x &&& 130816#18 = 32768#18 then some (.vgateRet h (x.extractLsb' 17 1) (x.extractLsb' 0 8)) else if x &&& 130816#18 = 65536#18 then some (.vgateOff h (x.extractLsb' 17 1) (x.extractLsb' 0 8)) else none

/-- The A-class operation of an opcode and operand bits (R220 to R224). -/
def decA (op : Nat) (h : Hd) (x : BitVec 18) : Option Instr :=
  if op < 249 then
    if op < 246 then
      if op < 244 then
        if x &&& 1#18 = 0#18 then some (.xmvm h (x.extractLsb' 12 6) (x.extractLsb' 10 2) (x.extractLsb' 7 3) (x.extractLsb' 3 4) (x.extractLsb' 1 2)) else none
      else
        if op < 245 then
          if x &&& 1023#18 = 0#18 then some (.xpush h (x.extractLsb' 12 6) (x.extractLsb' 11 1) (x.extractLsb' 10 1)) else none
        else
          if x &&& 2047#18 = 0#18 then some (.xpop h (x.extractLsb' 12 6) (x.extractLsb' 11 1)) else none
    else
      if op < 247 then
        if x &&& 16#18 = 0#18 then some (.xprog h (x.extractLsb' 12 6) (x.extractLsb' 11 1) (x.extractLsb' 5 6) (x.extractLsb' 0 4)) else none
      else
        if op < 248 then
          if x &&& 31#18 = 0#18 then some (.xver h (x.extractLsb' 12 6) (x.extractLsb' 11 1) (x.extractLsb' 5 6)) else none
        else
          if x &&& 4095#18 = 31#18 then some (.xremapClr h (x.extractLsb' 12 6)) else if x &&& 4064#18 = 0#18 then some (.xremap h (x.extractLsb' 12 6) (x.extractLsb' 0 5)) else none
  else
    if op < 252 then
      if op < 250 then
        if x &&& 4095#18 = 0#18 then some (.xmon h (x.extractLsb' 12 6)) else none
      else
        if op < 251 then
          if x &&& 24#18 = 0#18 then some (.xcalOff h (x.extractLsb' 12 6) (x.extractLsb' 11 1) (x.extractLsb' 5 6) (x.extractLsb' 0 3)) else if x &&& 24#18 = 8#18 then some (.xcalGain h (x.extractLsb' 12 6) (x.extractLsb' 11 1) (x.extractLsb' 5 6) (x.extractLsb' 0 3)) else if x &&& 4095#18 = 16#18 then some (.xcalMon h (x.extractLsb' 12 6)) else none
        else
          if x &&& 262143#18 = 0#18 then some (.xgate h) else none
    else
      if op < 253 then
        if x &&& 262143#18 = 0#18 then some (.xwake h) else none
      else
        if op < 254 then
          if x &&& 63#18 = 0#18 then some (.xstat h (x.extractLsb' 12 6) (x.extractLsb' 6 6)) else none
        else
          if x &&& 31#18 = 0#18 then some (.xldcCode h (x.extractLsb' 12 6) (x.extractLsb' 11 1) (x.extractLsb' 5 6)) else if x &&& 31#18 = 1#18 then some (.xldcVer h (x.extractLsb' 12 6) (x.extractLsb' 11 1) (x.extractLsb' 5 6)) else none

/-- The operation of a slot word at a position (R215, R220): the all-zero word is NOP everywhere. -/
def decodeAt (pos : Nat) (w : BitVec 32) : Option Instr :=
  let op := (w.extractLsb' 18 8).toNat
  let x := w.extractLsb' 0 18
  let h := headOf w
  if w = 0 then some .nop
  else match pos with
    | 0 => if 1 ≤ op ∧ op ≤ 0x54 then decS op h x else none
    | 1 => if 0x55 ≤ op ∧ op ≤ 0xBF then decV op h .zero x else none
    | 2 => if 0x55 ≤ op ∧ op ≤ 0xBF then decV op h .one x else none
    | 3 => if 0xDA ≤ op ∧ op ≤ 0xE2 then decM op h x else none
    | 4 => if 0xC0 ≤ op ∧ op ≤ 0xD9 then decC op h .zero x else none
    | 5 => if 0xC0 ≤ op ∧ op ≤ 0xD9 then decC op h .one x else none
    | 6 => if 0xE3 ≤ op ∧ op ≤ 0xF2 then decB op h x else none
    | 7 => if 0xF3 ≤ op ∧ op ≤ 0xFE then decA op h x else none
    | _ => none

/-- The decoder of slot words: a reserved field value is refused (R225). -/
def decodeSlot (pos : Nat) (w : BitVec 32) : Option Instr := (decodeAt pos w).filter wellFormed

end

/-! ## Slot words encoded -/

/-- A slot word from its head, opcode and operand bits (R216). -/
def slotWord (h : Hd) (op : BitVec 8) (x : BitVec 18) : BitVec 32 :=
  (BitVec.ofBool h.n) ++ h.g ++ (BitVec.ofBool h.w) ++ op ++ x

/-- The word of a slot operation, from the layouts of R216, R217 and R221 to R224; none for a task or an event. -/
def encodeSlot (i : Instr) : Option (BitVec 32) :=
  match i with
  | .nop => some 0#32
  | .add h d a b => some (slotWord h 1#8 (d ++ a ++ b))
  | .sub h d a b => some (slotWord h 2#8 (d ++ a ++ b))
  | .and h d a b => some (slotWord h 3#8 (d ++ a ++ b))
  | .or h d a b => some (slotWord h 4#8 (d ++ a ++ b))
  | .xor h d a b => some (slotWord h 5#8 (d ++ a ++ b))
  | .andn h d a b => some (slotWord h 6#8 (d ++ a ++ b))
  | .shl h d a b => some (slotWord h 7#8 (d ++ a ++ b))
  | .shr h d a b => some (slotWord h 8#8 (d ++ a ++ b))
  | .sar h d a b => some (slotWord h 9#8 (d ++ a ++ b))
  | .mul h d a b => some (slotWord h 10#8 (d ++ a ++ b))
  | .mulh h d a b => some (slotWord h 11#8 (d ++ a ++ b))
  | .mulhn h d a b => some (slotWord h 12#8 (d ++ a ++ b))
  | .div h d a b => some (slotWord h 13#8 (d ++ a ++ b))
  | .divn h d a b => some (slotWord h 14#8 (d ++ a ++ b))
  | .rem h d a b => some (slotWord h 15#8 (d ++ a ++ b))
  | .remn h d a b => some (slotWord h 16#8 (d ++ a ++ b))
  | .min h d a b => some (slotWord h 17#8 (d ++ a ++ b))
  | .max h d a b => some (slotWord h 18#8 (d ++ a ++ b))
  | .minn h d a b => some (slotWord h 19#8 (d ++ a ++ b))
  | .maxn h d a b => some (slotWord h 20#8 (d ++ a ++ b))
  | .addImm h d a i => some (slotWord h 21#8 (d ++ a ++ i))
  | .andImm h d a i => some (slotWord h 22#8 (d ++ a ++ i))
  | .orImm h d a i => some (slotWord h 23#8 (d ++ a ++ i))
  | .xorImm h d a i => some (slotWord h 24#8 (d ++ a ++ i))
  | .shlImm h d a i => some (slotWord h 25#8 (d ++ a ++ i))
  | .shrImm h d a i => some (slotWord h 26#8 (d ++ a ++ i))
  | .sarImm h d a i => some (slotWord h 27#8 (d ++ a ++ i))
  | .setw0 h d i => some (slotWord h 28#8 (d ++ i))
  | .setw1 h d i => some (slotWord h 29#8 (d ++ i))
  | .setw2 h d i => some (slotWord h 30#8 (d ++ i))
  | .setw3 h d i => some (slotWord h 31#8 (d ++ i))
  | .setw4 h d i => some (slotWord h 32#8 (d ++ i))
  | .setw5 h d i => some (slotWord h 33#8 (d ++ (0#8) ++ i))
  | .sext h d a z => some (slotWord h 34#8 (d ++ a ++ (0#4) ++ z))
  | .clz h d a => some (slotWord h 35#8 (d ++ a ++ (0#6)))
  | .popc h d a => some (slotWord h 36#8 (d ++ a ++ (0#6)))
  | .cmpEq h p m a b => some (slotWord h 37#8 (p ++ m ++ a ++ b))
  | .cmpNe h p m a b => some (slotWord h 38#8 (p ++ m ++ a ++ b))
  | .cmpLt h p m a b => some (slotWord h 39#8 (p ++ m ++ a ++ b))
  | .cmpLe h p m a b => some (slotWord h 40#8 (p ++ m ++ a ++ b))
  | .cmpLtn h p m a b => some (slotWord h 41#8 (p ++ m ++ a ++ b))
  | .cmpLen h p m a b => some (slotWord h 42#8 (p ++ m ++ a ++ b))
  | .cmpEqImm h p m a i => some (slotWord h 43#8 (p ++ m ++ a ++ i))
  | .cmpNeImm h p m a i => some (slotWord h 44#8 (p ++ m ++ a ++ i))
  | .cmpLtImm h p m a i => some (slotWord h 45#8 (p ++ m ++ a ++ i))
  | .cmpLeImm h p m a i => some (slotWord h 46#8 (p ++ m ++ a ++ i))
  | .cmpLtnImm h p m a i => some (slotWord h 47#8 (p ++ m ++ a ++ i))
  | .cmpLenImm h p m a i => some (slotWord h 48#8 (p ++ m ++ a ++ i))
  | .faddF32 h d a b => some (slotWord h 49#8 (d ++ a ++ b))
  | .faddF16 h d a b => some (slotWord h 50#8 (d ++ a ++ b))
  | .faddB16 h d a b => some (slotWord h 51#8 (d ++ a ++ b))
  | .fsubF32 h d a b => some (slotWord h 52#8 (d ++ a ++ b))
  | .fsubF16 h d a b => some (slotWord h 53#8 (d ++ a ++ b))
  | .fsubB16 h d a b => some (slotWord h 54#8 (d ++ a ++ b))
  | .fmulF32 h d a b => some (slotWord h 55#8 (d ++ a ++ b))
  | .fmulF16 h d a b => some (slotWord h 56#8 (d ++ a ++ b))
  | .fmulB16 h d a b => some (slotWord h 57#8 (d ++ a ++ b))
  | .ffmaF32 h d a b => some (slotWord h 58#8 (d ++ a ++ b))
  | .ffmaF16 h d a b => some (slotWord h 59#8 (d ++ a ++ b))
  | .ffmaB16 h d a b => some (slotWord h 60#8 (d ++ a ++ b))
  | .fminF32 h d a b => some (slotWord h 61#8 (d ++ a ++ b))
  | .fminF16 h d a b => some (slotWord h 62#8 (d ++ a ++ b))
  | .fminB16 h d a b => some (slotWord h 63#8 (d ++ a ++ b))
  | .fmaxF32 h d a b => some (slotWord h 64#8 (d ++ a ++ b))
  | .fmaxF16 h d a b => some (slotWord h 65#8 (d ++ a ++ b))
  | .fmaxB16 h d a b => some (slotWord h 66#8 (d ++ a ++ b))
  | .fcmpEqF32 h p m a b => some (slotWord h 67#8 (p ++ m ++ a ++ b))
  | .fcmpEqF16 h p m a b => some (slotWord h 68#8 (p ++ m ++ a ++ b))
  | .fcmpEqB16 h p m a b => some (slotWord h 69#8 (p ++ m ++ a ++ b))
  | .fcmpLtF32 h p m a b => some (slotWord h 70#8 (p ++ m ++ a ++ b))
  | .fcmpLtF16 h p m a b => some (slotWord h 71#8 (p ++ m ++ a ++ b))
  | .fcmpLtB16 h p m a b => some (slotWord h 72#8 (p ++ m ++ a ++ b))
  | .fcmpLeF32 h p m a b => some (slotWord h 73#8 (p ++ m ++ a ++ b))
  | .fcmpLeF16 h p m a b => some (slotWord h 74#8 (p ++ m ++ a ++ b))
  | .fcmpLeB16 h p m a b => some (slotWord h 75#8 (p ++ m ++ a ++ b))
  | .fcvt h d a r x y => some (slotWord h 76#8 (d ++ a ++ r ++ x ++ y))
  | .itof h d a r u y => some (slotWord h 77#8 (d ++ a ++ r ++ u ++ (0#1) ++ y))
  | .ftoi h d a r x z => some (slotWord h 78#8 (d ++ a ++ r ++ x ++ z))
  | .ftoiN h d a r x z => some (slotWord h 79#8 (d ++ a ++ r ++ x ++ z))
  | .pand h p a b => some (slotWord h 80#8 (p ++ (0#2) ++ a ++ (0#4) ++ b))
  | .por h p a b => some (slotWord h 80#8 (p ++ (0#2) ++ a ++ (1#4) ++ b))
  | .pxor h p a b => some (slotWord h 80#8 (p ++ (0#2) ++ a ++ (2#4) ++ b))
  | .pandn h p a b => some (slotWord h 80#8 (p ++ (0#2) ++ a ++ (3#4) ++ b))
  | .pmov h p a => some (slotWord h 80#8 (p ++ (0#2) ++ a ++ (64#8)))
  | .sel h d a b => some (slotWord h 81#8 (d ++ a ++ b))
  | .mova h d f r => some (slotWord h 82#8 (d ++ (0#7) ++ f ++ r))
  | .mfs h d i => some (slotWord h 83#8 (d ++ i))
  | .mts h s i => some (slotWord h 84#8 (s ++ i))
  | .vaddI8 h _ d a b => some (slotWord h 85#8 (d ++ a ++ b))
  | .vaddI16 h _ d a b => some (slotWord h 86#8 (d ++ a ++ b))
  | .vaddI32 h _ d a b => some (slotWord h 87#8 (d ++ a ++ b))
  | .vaddF16 h _ d a b => some (slotWord h 88#8 (d ++ a ++ b))
  | .vaddB16 h _ d a b => some (slotWord h 89#8 (d ++ a ++ b))
  | .vaddF32 h _ d a b => some (slotWord h 90#8 (d ++ a ++ b))
  | .vsubI8 h _ d a b => some (slotWord h 91#8 (d ++ a ++ b))
  | .vsubI16 h _ d a b => some (slotWord h 92#8 (d ++ a ++ b))
  | .vsubI32 h _ d a b => some (slotWord h 93#8 (d ++ a ++ b))
  | .vsubF16 h _ d a b => some (slotWord h 94#8 (d ++ a ++ b))
  | .vsubB16 h _ d a b => some (slotWord h 95#8 (d ++ a ++ b))
  | .vsubF32 h _ d a b => some (slotWord h 96#8 (d ++ a ++ b))
  | .vmulI8 h _ d a b => some (slotWord h 97#8 (d ++ a ++ b))
  | .vmulI16 h _ d a b => some (slotWord h 98#8 (d ++ a ++ b))
  | .vmulI32 h _ d a b => some (slotWord h 99#8 (d ++ a ++ b))
  | .vmulF16 h _ d a b => some (slotWord h 100#8 (d ++ a ++ b))
  | .vmulB16 h _ d a b => some (slotWord h 101#8 (d ++ a ++ b))
  | .vmulF32 h _ d a b => some (slotWord h 102#8 (d ++ a ++ b))
  | .vfmaI8 h _ d a b => some (slotWord h 103#8 (d ++ a ++ b))
  | .vfmaI16 h _ d a b => some (slotWord h 104#8 (d ++ a ++ b))
  | .vfmaI32 h _ d a b => some (slotWord h 105#8 (d ++ a ++ b))
  | .vfmaF16 h _ d a b => some (slotWord h 106#8 (d ++ a ++ b))
  | .vfmaB16 h _ d a b => some (slotWord h 107#8 (d ++ a ++ b))
  | .vfmaF32 h _ d a b => some (slotWord h 108#8 (d ++ a ++ b))
  | .vminI8 h _ d a b => some (slotWord h 109#8 (d ++ a ++ b))
  | .vminI16 h _ d a b => some (slotWord h 110#8 (d ++ a ++ b))
  | .vminI32 h _ d a b => some (slotWord h 111#8 (d ++ a ++ b))
  | .vminN8 h _ d a b => some (slotWord h 112#8 (d ++ a ++ b))
  | .vminN16 h _ d a b => some (slotWord h 113#8 (d ++ a ++ b))
  | .vminN32 h _ d a b => some (slotWord h 114#8 (d ++ a ++ b))
  | .vminF16 h _ d a b => some (slotWord h 115#8 (d ++ a ++ b))
  | .vminB16 h _ d a b => some (slotWord h 116#8 (d ++ a ++ b))
  | .vminF32 h _ d a b => some (slotWord h 117#8 (d ++ a ++ b))
  | .vmaxI8 h _ d a b => some (slotWord h 118#8 (d ++ a ++ b))
  | .vmaxI16 h _ d a b => some (slotWord h 119#8 (d ++ a ++ b))
  | .vmaxI32 h _ d a b => some (slotWord h 120#8 (d ++ a ++ b))
  | .vmaxN8 h _ d a b => some (slotWord h 121#8 (d ++ a ++ b))
  | .vmaxN16 h _ d a b => some (slotWord h 122#8 (d ++ a ++ b))
  | .vmaxN32 h _ d a b => some (slotWord h 123#8 (d ++ a ++ b))
  | .vmaxF16 h _ d a b => some (slotWord h 124#8 (d ++ a ++ b))
  | .vmaxB16 h _ d a b => some (slotWord h 125#8 (d ++ a ++ b))
  | .vmaxF32 h _ d a b => some (slotWord h 126#8 (d ++ a ++ b))
  | .vsaddI8 h _ d a b => some (slotWord h 127#8 (d ++ a ++ b))
  | .vsaddI16 h _ d a b => some (slotWord h 128#8 (d ++ a ++ b))
  | .vsaddI32 h _ d a b => some (slotWord h 129#8 (d ++ a ++ b))
  | .vsaddN8 h _ d a b => some (slotWord h 130#8 (d ++ a ++ b))
  | .vsaddN16 h _ d a b => some (slotWord h 131#8 (d ++ a ++ b))
  | .vsaddN32 h _ d a b => some (slotWord h 132#8 (d ++ a ++ b))
  | .vssubI8 h _ d a b => some (slotWord h 133#8 (d ++ a ++ b))
  | .vssubI16 h _ d a b => some (slotWord h 134#8 (d ++ a ++ b))
  | .vssubI32 h _ d a b => some (slotWord h 135#8 (d ++ a ++ b))
  | .vssubN8 h _ d a b => some (slotWord h 136#8 (d ++ a ++ b))
  | .vssubN16 h _ d a b => some (slotWord h 137#8 (d ++ a ++ b))
  | .vssubN32 h _ d a b => some (slotWord h 138#8 (d ++ a ++ b))
  | .vcmpI8 h _ d c a b => some (slotWord h 139#8 (d ++ c ++ a ++ b))
  | .vcmpI16 h _ d c a b => some (slotWord h 140#8 (d ++ c ++ a ++ b))
  | .vcmpI32 h _ d c a b => some (slotWord h 141#8 (d ++ c ++ a ++ b))
  | .vcmpN8 h _ d c a b => some (slotWord h 142#8 (d ++ c ++ a ++ b))
  | .vcmpN16 h _ d c a b => some (slotWord h 143#8 (d ++ c ++ a ++ b))
  | .vcmpN32 h _ d c a b => some (slotWord h 144#8 (d ++ c ++ a ++ b))
  | .vcmpF16 h _ d c a b => some (slotWord h 145#8 (d ++ c ++ a ++ b))
  | .vcmpB16 h _ d c a b => some (slotWord h 146#8 (d ++ c ++ a ++ b))
  | .vcmpF32 h _ d c a b => some (slotWord h 147#8 (d ++ c ++ a ++ b))
  | .vshl8 h _ d a b => some (slotWord h 148#8 (d ++ a ++ b))
  | .vshl16 h _ d a b => some (slotWord h 149#8 (d ++ a ++ b))
  | .vshl32 h _ d a b => some (slotWord h 150#8 (d ++ a ++ b))
  | .vshr8 h _ d a b => some (slotWord h 151#8 (d ++ a ++ b))
  | .vshr16 h _ d a b => some (slotWord h 152#8 (d ++ a ++ b))
  | .vshr32 h _ d a b => some (slotWord h 153#8 (d ++ a ++ b))
  | .vsar8 h _ d a b => some (slotWord h 154#8 (d ++ a ++ b))
  | .vsar16 h _ d a b => some (slotWord h 155#8 (d ++ a ++ b))
  | .vsar32 h _ d a b => some (slotWord h 156#8 (d ++ a ++ b))
  | .vreds h _ d a t => some (slotWord h 157#8 (d ++ a ++ (0#2) ++ t))
  | .vredm h _ d a t => some (slotWord h 158#8 (d ++ a ++ (0#2) ++ t))
  | .vredn h _ d a t => some (slotWord h 159#8 (d ++ a ++ (0#2) ++ t))
  | .vabs h _ d a t => some (slotWord h 160#8 (d ++ a ++ (0#2) ++ t))
  | .vneg h _ d a t => some (slotWord h 161#8 (d ++ a ++ (0#2) ++ t))
  | .vsplat h _ d a t => some (slotWord h 162#8 (d ++ a ++ (0#2) ++ t))
  | .vset8 h _ d i => some (slotWord h 163#8 (d ++ i))
  | .vset16 h _ d i => some (slotWord h 164#8 (d ++ i))
  | .vset32 h _ d i => some (slotWord h 165#8 (d ++ i))
  | .vand h _ d a b => some (slotWord h 166#8 (d ++ a ++ b))
  | .vor h _ d a b => some (slotWord h 167#8 (d ++ a ++ b))
  | .vxor h _ d a b => some (slotWord h 168#8 (d ++ a ++ b))
  | .vsel h _ d a k => some (slotWord h 169#8 (d ++ a ++ (0#3) ++ k))
  | .vperm h _ d a b => some (slotWord h 170#8 (d ++ a ++ b))
  | .vrot h _ d a i => some (slotWord h 171#8 (d ++ a ++ i))
  | .xfer h _ d a => some (slotWord h 172#8 (d ++ a ++ (0#6)))
  | .vtest h _ p e a => some (slotWord h 173#8 (p ++ e ++ (0#4) ++ a))
  | .vframe h _ s => some (slotWord h 174#8 ((0#11) ++ s))
  | .kopAnd h _ d a b => some (slotWord h 175#8 ((0#3) ++ d ++ (0#3) ++ a ++ (0#3) ++ b))
  | .kopOr h _ d a b => some (slotWord h 175#8 ((1#3) ++ d ++ (0#3) ++ a ++ (0#3) ++ b))
  | .kopXor h _ d a b => some (slotWord h 175#8 ((2#3) ++ d ++ (0#3) ++ a ++ (0#3) ++ b))
  | .kopAndn h _ d a b => some (slotWord h 175#8 ((3#3) ++ d ++ (0#3) ++ a ++ (0#3) ++ b))
  | .kopNot h _ d a => some (slotWord h 175#8 ((4#3) ++ d ++ (0#3) ++ a ++ (0#6)))
  | .kopMov h _ d a => some (slotWord h 175#8 ((5#3) ++ d ++ (0#3) ++ a ++ (0#6)))
  | .vexp2 h _ d a => some (slotWord h 176#8 (d ++ a ++ (0#6)))
  | .vlog2 h _ d a => some (slotWord h 177#8 (d ++ a ++ (0#6)))
  | .vrcp h _ d a => some (slotWord h 178#8 (d ++ a ++ (0#6)))
  | .vrsq h _ d a => some (slotWord h 179#8 (d ++ a ++ (0#6)))
  | .vsclF16 h _ d a b => some (slotWord h 180#8 (d ++ a ++ b))
  | .vsclB16 h _ d a b => some (slotWord h 181#8 (d ++ a ++ b))
  | .vsclF32 h _ d a b => some (slotWord h 182#8 (d ++ a ++ b))
  | .vcvtRn h _ d a dc sc => some (slotWord h 183#8 (d ++ a ++ dc ++ sc))
  | .vcvtRz h _ d a dc sc => some (slotWord h 184#8 (d ++ a ++ dc ++ sc))
  | .vcvtRu h _ d a dc sc => some (slotWord h 185#8 (d ++ a ++ dc ++ sc))
  | .vcvtRd h _ d a dc sc => some (slotWord h 186#8 (d ++ a ++ dc ++ sc))
  | .vqmxRn h _ d a b => some (slotWord h 187#8 (d ++ a ++ b))
  | .vqmxRz h _ d a b => some (slotWord h 188#8 (d ++ a ++ b))
  | .vqmxRu h _ d a b => some (slotWord h 189#8 (d ++ a ++ b))
  | .vqmxRd h _ d a b => some (slotWord h 190#8 (d ++ a ++ b))
  | .vdq h _ d a b => some (slotWord h 191#8 (d ++ a ++ b))
  | .ldvX h _ d b r i => some (slotWord h 192#8 (d ++ b ++ r ++ i))
  | .ldvY h _ d b r i => some (slotWord h 193#8 (d ++ b ++ r ++ i))
  | .stvX h _ d b r i => some (slotWord h 194#8 (d ++ b ++ r ++ i))
  | .stvY h _ d b r i => some (slotWord h 195#8 (d ++ b ++ r ++ i))
  | .lds h _ d b r i => some (slotWord h 196#8 (d ++ b ++ r ++ i))
  | .sts h _ d b r i => some (slotWord h 197#8 (d ++ b ++ r ++ i))
  | .copy h _ c t hint q => some (slotWord h 198#8 (c ++ t ++ hint ++ q ++ (0#2)))
  | .copyo h _ c t hint q => some (slotWord h 199#8 (c ++ t ++ hint ++ q ++ (0#2)))
  | .copyn h _ c t hint q => some (slotWord h 200#8 (c ++ t ++ hint ++ q ++ (0#2)))
  | .wfill h _ c t hint q => some (slotWord h 201#8 (c ++ (0#2) ++ t ++ hint ++ q ++ (0#2)))
  | .trel h _ t => some (slotWord h 202#8 ((0#4) ++ t ++ (0#6)))
  | .tstat h _ p t => some (slotWord h 203#8 (p ++ t ++ (0#6)))
  | .gld h _ d hint q z => some (slotWord h 204#8 (d ++ (0#8) ++ hint ++ q ++ z))
  | .gst h _ d hint q z => some (slotWord h 205#8 (d ++ (0#8) ++ hint ++ q ++ z))
  | .aadd h _ d e hint q z => some (slotWord h 206#8 (d ++ e ++ (0#4) ++ hint ++ q ++ (1#1) ++ z))
  | .aswap h _ d e hint q z => some (slotWord h 207#8 (d ++ e ++ (0#4) ++ hint ++ q ++ (1#1) ++ z))
  | .acas h _ d e hint q z => some (slotWord h 208#8 (d ++ e ++ (0#4) ++ hint ++ q ++ (1#1) ++ z))
  | .amin h _ d e hint q z => some (slotWord h 209#8 (d ++ e ++ (0#4) ++ hint ++ q ++ (1#1) ++ z))
  | .amax h _ d e hint q z => some (slotWord h 210#8 (d ++ e ++ (0#4) ++ hint ++ q ++ (1#1) ++ z))
  | .aand h _ d e hint q z => some (slotWord h 211#8 (d ++ e ++ (0#4) ++ hint ++ q ++ (1#1) ++ z))
  | .aor h _ d e hint q z => some (slotWord h 212#8 (d ++ e ++ (0#4) ++ hint ++ q ++ (1#1) ++ z))
  | .aset h _ d s => some (slotWord h 213#8 (d ++ (0#8) ++ s))
  | .aaddi h _ d i => some (slotWord h 214#8 (d ++ (0#2) ++ i))
  | .astr h _ d i => some (slotWord h 215#8 (d ++ (0#2) ++ i))
  | .cfence h _ s => some (slotWord h 216#8 ((0#16) ++ s))
  | .pref h _ hint q => some (slotWord h 217#8 ((0#12) ++ hint ++ q ++ (0#2)))
  | .mcfg h a b o => some (slotWord h 218#8 (a ++ b ++ o ++ (0#8)))
  | .mpush h c u => some (slotWord h 219#8 (c ++ u))
  | .mswap h => some (slotWord h 220#8 ((0#18)))
  | .mshift h v f o t r => some (slotWord h 221#8 (v ++ f ++ o ++ t ++ r))
  | .mdrainF32 h d f t r => some (slotWord h 222#8 (d ++ f ++ (0#2) ++ t ++ r))
  | .mdrainF16 h d f t r => some (slotWord h 223#8 (d ++ f ++ (0#2) ++ t ++ r))
  | .mdrainB16 h d f t r => some (slotWord h 224#8 (d ++ f ++ (0#2) ++ t ++ r))
  | .mclr h t => some (slotWord h 225#8 ((0#9) ++ t ++ (0#7)))
  | .mflush h => some (slotWord h 226#8 ((0#18)))
  | .br h o => some (slotWord h 227#8 (o))
  | .brx h s => some (slotWord h 228#8 ((0#12) ++ s))
  | .call h o => some (slotWord h 229#8 (o))
  | .callx h s => some (slotWord h 230#8 ((0#12) ++ s))
  | .ret h => some (slotWord h 231#8 ((0#18)))
  | .loop h l c => some (slotWord h 232#8 ((1#1) ++ l ++ c))
  | .loopReg h l s => some (slotWord h 232#8 ((0#1) ++ l ++ (0#5) ++ s))
  | .stage h e => some (slotWord h 233#8 ((0#15) ++ e))
  | .seg h s => some (slotWord h 234#8 ((0#12) ++ s))
  | .rdv h => some (slotWord h 235#8 ((0#18)))
  | .waitc h c l => some (slotWord h 236#8 (c ++ l))
  | .yield h => some (slotWord h 237#8 ((0#18)))
  | .halt h => some (slotWord h 238#8 ((0#18)))
  | .sys h i => some (slotWord h 239#8 ((0#6) ++ i))
  | .fbreg h o => some (slotWord h 240#8 (o))
  | .bkpt h i => some (slotWord h 241#8 ((0#6) ++ i))
  | .vgateOn h f m => some (slotWord h 242#8 (f ++ (0#9) ++ m))
  | .vgateRet h f m => some (slotWord h 242#8 (f ++ (128#9) ++ m))
  | .vgateOff h f m => some (slotWord h 242#8 (f ++ (256#9) ++ m))
  | .xmvm h a d s c o => some (slotWord h 243#8 (a ++ d ++ s ++ c ++ o ++ (0#1)))
  | .xpush h v f c => some (slotWord h 244#8 (v ++ f ++ c ++ (0#10)))
  | .xpop h v f => some (slotWord h 245#8 (v ++ f ++ (0#11)))
  | .xprog h a f v k => some (slotWord h 246#8 (a ++ f ++ v ++ (0#1) ++ k))
  | .xver h a f v => some (slotWord h 247#8 (a ++ f ++ v ++ (0#5)))
  | .xremap h a k => some (slotWord h 248#8 (a ++ (0#7) ++ k))
  | .xremapClr h a => some (slotWord h 248#8 (a ++ (31#12)))
  | .xmon h a => some (slotWord h 249#8 (a ++ (0#12)))
  | .xcalOff h a f v j => some (slotWord h 250#8 (a ++ f ++ v ++ (0#2) ++ j))
  | .xcalGain h a f v j => some (slotWord h 250#8 (a ++ f ++ v ++ (1#2) ++ j))
  | .xcalMon h a => some (slotWord h 250#8 (a ++ (16#12)))
  | .xgate h => some (slotWord h 251#8 ((0#18)))
  | .xwake h => some (slotWord h 252#8 ((0#18)))
  | .xstat h d a => some (slotWord h 253#8 (d ++ a ++ (0#6)))
  | .xldcCode h a f v => some (slotWord h 254#8 (a ++ f ++ v ++ (0#5)))
  | .xldcVer h a f v => some (slotWord h 254#8 (a ++ f ++ v ++ (1#5)))
  | _ => none

def vPosOf : Unit2 → Nat
  | .zero => 1
  | .one => 2
def cPosOf : Unit2 → Nat
  | .zero => 4
  | .one => 5

/-- The slot position of an operation (R215, R220). -/
def slotPos (i : Instr) : Nat :=
  match i with
  | .nop => 0
  | .add _ _ _ _ => 0
  | .sub _ _ _ _ => 0
  | .and _ _ _ _ => 0
  | .or _ _ _ _ => 0
  | .xor _ _ _ _ => 0
  | .andn _ _ _ _ => 0
  | .shl _ _ _ _ => 0
  | .shr _ _ _ _ => 0
  | .sar _ _ _ _ => 0
  | .mul _ _ _ _ => 0
  | .mulh _ _ _ _ => 0
  | .mulhn _ _ _ _ => 0
  | .div _ _ _ _ => 0
  | .divn _ _ _ _ => 0
  | .rem _ _ _ _ => 0
  | .remn _ _ _ _ => 0
  | .min _ _ _ _ => 0
  | .max _ _ _ _ => 0
  | .minn _ _ _ _ => 0
  | .maxn _ _ _ _ => 0
  | .addImm _ _ _ _ => 0
  | .andImm _ _ _ _ => 0
  | .orImm _ _ _ _ => 0
  | .xorImm _ _ _ _ => 0
  | .shlImm _ _ _ _ => 0
  | .shrImm _ _ _ _ => 0
  | .sarImm _ _ _ _ => 0
  | .setw0 _ _ _ => 0
  | .setw1 _ _ _ => 0
  | .setw2 _ _ _ => 0
  | .setw3 _ _ _ => 0
  | .setw4 _ _ _ => 0
  | .setw5 _ _ _ => 0
  | .sext _ _ _ _ => 0
  | .clz _ _ _ => 0
  | .popc _ _ _ => 0
  | .cmpEq _ _ _ _ _ => 0
  | .cmpNe _ _ _ _ _ => 0
  | .cmpLt _ _ _ _ _ => 0
  | .cmpLe _ _ _ _ _ => 0
  | .cmpLtn _ _ _ _ _ => 0
  | .cmpLen _ _ _ _ _ => 0
  | .cmpEqImm _ _ _ _ _ => 0
  | .cmpNeImm _ _ _ _ _ => 0
  | .cmpLtImm _ _ _ _ _ => 0
  | .cmpLeImm _ _ _ _ _ => 0
  | .cmpLtnImm _ _ _ _ _ => 0
  | .cmpLenImm _ _ _ _ _ => 0
  | .faddF32 _ _ _ _ => 0
  | .faddF16 _ _ _ _ => 0
  | .faddB16 _ _ _ _ => 0
  | .fsubF32 _ _ _ _ => 0
  | .fsubF16 _ _ _ _ => 0
  | .fsubB16 _ _ _ _ => 0
  | .fmulF32 _ _ _ _ => 0
  | .fmulF16 _ _ _ _ => 0
  | .fmulB16 _ _ _ _ => 0
  | .ffmaF32 _ _ _ _ => 0
  | .ffmaF16 _ _ _ _ => 0
  | .ffmaB16 _ _ _ _ => 0
  | .fminF32 _ _ _ _ => 0
  | .fminF16 _ _ _ _ => 0
  | .fminB16 _ _ _ _ => 0
  | .fmaxF32 _ _ _ _ => 0
  | .fmaxF16 _ _ _ _ => 0
  | .fmaxB16 _ _ _ _ => 0
  | .fcmpEqF32 _ _ _ _ _ => 0
  | .fcmpEqF16 _ _ _ _ _ => 0
  | .fcmpEqB16 _ _ _ _ _ => 0
  | .fcmpLtF32 _ _ _ _ _ => 0
  | .fcmpLtF16 _ _ _ _ _ => 0
  | .fcmpLtB16 _ _ _ _ _ => 0
  | .fcmpLeF32 _ _ _ _ _ => 0
  | .fcmpLeF16 _ _ _ _ _ => 0
  | .fcmpLeB16 _ _ _ _ _ => 0
  | .fcvt _ _ _ _ _ _ => 0
  | .itof _ _ _ _ _ _ => 0
  | .ftoi _ _ _ _ _ _ => 0
  | .ftoiN _ _ _ _ _ _ => 0
  | .pand _ _ _ _ => 0
  | .por _ _ _ _ => 0
  | .pxor _ _ _ _ => 0
  | .pandn _ _ _ _ => 0
  | .pmov _ _ _ => 0
  | .sel _ _ _ _ => 0
  | .mova _ _ _ _ => 0
  | .mfs _ _ _ => 0
  | .mts _ _ _ => 0
  | .vaddI8 _ u _ _ _ => vPosOf u
  | .vaddI16 _ u _ _ _ => vPosOf u
  | .vaddI32 _ u _ _ _ => vPosOf u
  | .vaddF16 _ u _ _ _ => vPosOf u
  | .vaddB16 _ u _ _ _ => vPosOf u
  | .vaddF32 _ u _ _ _ => vPosOf u
  | .vsubI8 _ u _ _ _ => vPosOf u
  | .vsubI16 _ u _ _ _ => vPosOf u
  | .vsubI32 _ u _ _ _ => vPosOf u
  | .vsubF16 _ u _ _ _ => vPosOf u
  | .vsubB16 _ u _ _ _ => vPosOf u
  | .vsubF32 _ u _ _ _ => vPosOf u
  | .vmulI8 _ u _ _ _ => vPosOf u
  | .vmulI16 _ u _ _ _ => vPosOf u
  | .vmulI32 _ u _ _ _ => vPosOf u
  | .vmulF16 _ u _ _ _ => vPosOf u
  | .vmulB16 _ u _ _ _ => vPosOf u
  | .vmulF32 _ u _ _ _ => vPosOf u
  | .vfmaI8 _ u _ _ _ => vPosOf u
  | .vfmaI16 _ u _ _ _ => vPosOf u
  | .vfmaI32 _ u _ _ _ => vPosOf u
  | .vfmaF16 _ u _ _ _ => vPosOf u
  | .vfmaB16 _ u _ _ _ => vPosOf u
  | .vfmaF32 _ u _ _ _ => vPosOf u
  | .vminI8 _ u _ _ _ => vPosOf u
  | .vminI16 _ u _ _ _ => vPosOf u
  | .vminI32 _ u _ _ _ => vPosOf u
  | .vminN8 _ u _ _ _ => vPosOf u
  | .vminN16 _ u _ _ _ => vPosOf u
  | .vminN32 _ u _ _ _ => vPosOf u
  | .vminF16 _ u _ _ _ => vPosOf u
  | .vminB16 _ u _ _ _ => vPosOf u
  | .vminF32 _ u _ _ _ => vPosOf u
  | .vmaxI8 _ u _ _ _ => vPosOf u
  | .vmaxI16 _ u _ _ _ => vPosOf u
  | .vmaxI32 _ u _ _ _ => vPosOf u
  | .vmaxN8 _ u _ _ _ => vPosOf u
  | .vmaxN16 _ u _ _ _ => vPosOf u
  | .vmaxN32 _ u _ _ _ => vPosOf u
  | .vmaxF16 _ u _ _ _ => vPosOf u
  | .vmaxB16 _ u _ _ _ => vPosOf u
  | .vmaxF32 _ u _ _ _ => vPosOf u
  | .vsaddI8 _ u _ _ _ => vPosOf u
  | .vsaddI16 _ u _ _ _ => vPosOf u
  | .vsaddI32 _ u _ _ _ => vPosOf u
  | .vsaddN8 _ u _ _ _ => vPosOf u
  | .vsaddN16 _ u _ _ _ => vPosOf u
  | .vsaddN32 _ u _ _ _ => vPosOf u
  | .vssubI8 _ u _ _ _ => vPosOf u
  | .vssubI16 _ u _ _ _ => vPosOf u
  | .vssubI32 _ u _ _ _ => vPosOf u
  | .vssubN8 _ u _ _ _ => vPosOf u
  | .vssubN16 _ u _ _ _ => vPosOf u
  | .vssubN32 _ u _ _ _ => vPosOf u
  | .vcmpI8 _ u _ _ _ _ => vPosOf u
  | .vcmpI16 _ u _ _ _ _ => vPosOf u
  | .vcmpI32 _ u _ _ _ _ => vPosOf u
  | .vcmpN8 _ u _ _ _ _ => vPosOf u
  | .vcmpN16 _ u _ _ _ _ => vPosOf u
  | .vcmpN32 _ u _ _ _ _ => vPosOf u
  | .vcmpF16 _ u _ _ _ _ => vPosOf u
  | .vcmpB16 _ u _ _ _ _ => vPosOf u
  | .vcmpF32 _ u _ _ _ _ => vPosOf u
  | .vshl8 _ u _ _ _ => vPosOf u
  | .vshl16 _ u _ _ _ => vPosOf u
  | .vshl32 _ u _ _ _ => vPosOf u
  | .vshr8 _ u _ _ _ => vPosOf u
  | .vshr16 _ u _ _ _ => vPosOf u
  | .vshr32 _ u _ _ _ => vPosOf u
  | .vsar8 _ u _ _ _ => vPosOf u
  | .vsar16 _ u _ _ _ => vPosOf u
  | .vsar32 _ u _ _ _ => vPosOf u
  | .vreds _ u _ _ _ => vPosOf u
  | .vredm _ u _ _ _ => vPosOf u
  | .vredn _ u _ _ _ => vPosOf u
  | .vabs _ u _ _ _ => vPosOf u
  | .vneg _ u _ _ _ => vPosOf u
  | .vsplat _ u _ _ _ => vPosOf u
  | .vset8 _ u _ _ => vPosOf u
  | .vset16 _ u _ _ => vPosOf u
  | .vset32 _ u _ _ => vPosOf u
  | .vand _ u _ _ _ => vPosOf u
  | .vor _ u _ _ _ => vPosOf u
  | .vxor _ u _ _ _ => vPosOf u
  | .vsel _ u _ _ _ => vPosOf u
  | .vperm _ u _ _ _ => vPosOf u
  | .vrot _ u _ _ _ => vPosOf u
  | .xfer _ u _ _ => vPosOf u
  | .vtest _ u _ _ _ => vPosOf u
  | .vframe _ u _ => vPosOf u
  | .kopAnd _ u _ _ _ => vPosOf u
  | .kopOr _ u _ _ _ => vPosOf u
  | .kopXor _ u _ _ _ => vPosOf u
  | .kopAndn _ u _ _ _ => vPosOf u
  | .kopNot _ u _ _ => vPosOf u
  | .kopMov _ u _ _ => vPosOf u
  | .vexp2 _ u _ _ => vPosOf u
  | .vlog2 _ u _ _ => vPosOf u
  | .vrcp _ u _ _ => vPosOf u
  | .vrsq _ u _ _ => vPosOf u
  | .vsclF16 _ u _ _ _ => vPosOf u
  | .vsclB16 _ u _ _ _ => vPosOf u
  | .vsclF32 _ u _ _ _ => vPosOf u
  | .vcvtRn _ u _ _ _ _ => vPosOf u
  | .vcvtRz _ u _ _ _ _ => vPosOf u
  | .vcvtRu _ u _ _ _ _ => vPosOf u
  | .vcvtRd _ u _ _ _ _ => vPosOf u
  | .vqmxRn _ u _ _ _ => vPosOf u
  | .vqmxRz _ u _ _ _ => vPosOf u
  | .vqmxRu _ u _ _ _ => vPosOf u
  | .vqmxRd _ u _ _ _ => vPosOf u
  | .vdq _ u _ _ _ => vPosOf u
  | .ldvX _ u _ _ _ _ => cPosOf u
  | .ldvY _ u _ _ _ _ => cPosOf u
  | .stvX _ u _ _ _ _ => cPosOf u
  | .stvY _ u _ _ _ _ => cPosOf u
  | .lds _ u _ _ _ _ => cPosOf u
  | .sts _ u _ _ _ _ => cPosOf u
  | .copy _ u _ _ _ _ => cPosOf u
  | .copyo _ u _ _ _ _ => cPosOf u
  | .copyn _ u _ _ _ _ => cPosOf u
  | .wfill _ u _ _ _ _ => cPosOf u
  | .trel _ u _ => cPosOf u
  | .tstat _ u _ _ => cPosOf u
  | .gld _ u _ _ _ _ => cPosOf u
  | .gst _ u _ _ _ _ => cPosOf u
  | .aadd _ u _ _ _ _ _ => cPosOf u
  | .aswap _ u _ _ _ _ _ => cPosOf u
  | .acas _ u _ _ _ _ _ => cPosOf u
  | .amin _ u _ _ _ _ _ => cPosOf u
  | .amax _ u _ _ _ _ _ => cPosOf u
  | .aand _ u _ _ _ _ _ => cPosOf u
  | .aor _ u _ _ _ _ _ => cPosOf u
  | .aset _ u _ _ => cPosOf u
  | .aaddi _ u _ _ => cPosOf u
  | .astr _ u _ _ => cPosOf u
  | .cfence _ u _ => cPosOf u
  | .pref _ u _ _ => cPosOf u
  | .mcfg _ _ _ _ => 3
  | .mpush _ _ _ => 3
  | .mswap _ => 3
  | .mshift _ _ _ _ _ _ => 3
  | .mdrainF32 _ _ _ _ _ => 3
  | .mdrainF16 _ _ _ _ _ => 3
  | .mdrainB16 _ _ _ _ _ => 3
  | .mclr _ _ => 3
  | .mflush _ => 3
  | .br _ _ => 6
  | .brx _ _ => 6
  | .call _ _ => 6
  | .callx _ _ => 6
  | .ret _ => 6
  | .loop _ _ _ => 6
  | .loopReg _ _ _ => 6
  | .stage _ _ => 6
  | .seg _ _ => 6
  | .rdv _ => 6
  | .waitc _ _ _ => 6
  | .yield _ => 6
  | .halt _ => 6
  | .sys _ _ => 6
  | .fbreg _ _ => 6
  | .bkpt _ _ => 6
  | .vgateOn _ _ _ => 6
  | .vgateRet _ _ _ => 6
  | .vgateOff _ _ _ => 6
  | .xmvm _ _ _ _ _ _ => 7
  | .xpush _ _ _ _ => 7
  | .xpop _ _ _ => 7
  | .xprog _ _ _ _ _ => 7
  | .xver _ _ _ _ => 7
  | .xremap _ _ _ => 7
  | .xremapClr _ _ => 7
  | .xmon _ _ => 7
  | .xcalOff _ _ _ _ _ => 7
  | .xcalGain _ _ _ _ _ => 7
  | .xcalMon _ _ => 7
  | .xgate _ => 7
  | .xwake _ => 7
  | .xstat _ _ _ => 7
  | .xldcCode _ _ _ _ => 7
  | .xldcVer _ _ _ _ => 7
  | _ => 8

/-! ## Tasks (R168, R169, R171) -/

/-- The header fields of a task word. -/
def hdrOf (w : BitVec 64) : TaskHdr :=
  { fb := w.getLsbD 8, scope := w.extractLsb' 9 2, fbk := w.getLsbD 11, prot := w.getLsbD 12, pcl := w.extractLsb' 17 4
    ppos := w.extractLsb' 21 4, qd := w.extractLsb' 25 4, cond := w.extractLsb' 29 3, imm := w.extractLsb' 32 32 }

/-- A box of an operand or extension word: 0 or 1. -/
def boxOf (w : BitVec 128) (i : Nat) : TBox :=
  { first := w.extractLsb' (32 + 48 * i) 24, last := w.extractLsb' (56 + 48 * i) 24 }
/-- Whether box `i` of a word is all zero. -/
def boxZero (w : BitVec 128) (i : Nat) : Bool := w.extractLsb' (32 + 48 * i) 48 == 0
/-- NBOX of an operand word. -/
def nboxOf (w : BitVec 128) : Nat := (w.extractLsb' 19 3).toNat

/-- The operands in a list of 128-bit words, `n` of them; a reserved bit or a box above NBOX that is not zero is refused. -/
def operandsOf : Nat → List (BitVec 128) → Option (List Operand)
  | 0, _ => some []
  | _ + 1, [] => none
  | n + 1, w :: ws =>
    let k := nboxOf w
    let o (bs : List TBox) : Operand :=
      { ref := w.extractLsb' 0 16, kind := w.getLsbD 16, mode := w.extractLsb' 17 2, qo := w.getLsbD 22
        qr := w.extractLsb' 23 4, boxes := bs }
    if w.extractLsb' 27 5 ≠ 0 ∨ k > 4 then none
    else if k ≤ 2 then
      if (k = 0 && !boxZero w 0) || (k ≤ 1 && !boxZero w 1) then none
      else (operandsOf n ws).map (fun l => o ((List.range k).map (boxOf w)) :: l)
    else match ws with
      | [] => none
      | e :: ws =>
        if e.extractLsb' 0 32 ≠ 0 ∨ (k = 3 && !boxZero e 1) then none
        else (operandsOf n ws).map (fun l => o ([boxOf w 0, boxOf w 1] ++ (List.range (k - 2)).map (boxOf e)) :: l)

/-- The number of 128-bit words of a task's operands, extension words included (R169). -/
def opWords : Nat → List (BitVec 128) → Nat
  | 0, _ => 0
  | _ + 1, [] => 0
  | n + 1, w :: ws =>
    if nboxOf w > 2 then match ws with
      | [] => 2
      | _ :: ws => 2 + opWords n ws
    else 1 + opWords n ws

/-- The task of an opcode (R171). -/
def taskOf (opc : Nat) (t : TaskHdr) (ops : List Operand) : Option Instr :=
  match opc with
  | 0x01 => some (.kern t ops)
  | 0x02 => some (.gang t ops)
  | 0x03 => some (.tcopy t ops)
  | 0x04 => some (.tfill t ops)
  | 0x10 => some (.tdef t ops)
  | 0x11 => some (.tbind t ops)
  | 0x12 => some (.tdrop t ops)
  | 0x20 => some (.tsig t ops)
  | 0x21 => some (.twait t ops)
  | 0x22 => some (.tfence t ops)
  | 0x30 => some (.tset t ops)
  | 0x31 => some (.tadd t ops)
  | 0x32 => some (.tldq t ops)
  | 0x38 => some (.tloop t ops)
  | 0x39 => some (.tjmp t ops)
  | 0x3A => some (.tbrz t ops)
  | 0x40 => some (.tmark t ops)
  | 0x41 => some (.tpri t ops)
  | 0x7F => some (.thalt t ops)
  | _ => none

/-- The decoder of tasks: the header word and the 128-bit words that follow it. -/
def decodeTask (w : BitVec 64) (ws : List (BitVec 128)) : Option Instr :=
  match operandsOf (w.extractLsb' 13 4).toNat ws with
  | none => none
  | some ops => (taskOf (w.extractLsb' 0 8).toNat (hdrOf w) ops).filter wellFormed

/-- A task's opcode, header and operands; none for other instructions (R171). -/
def taskParts (i : Instr) : Option (BitVec 8 × TaskHdr × List Operand) :=
  match i with
  | .kern t o => some (0x01, t, o)
  | .gang t o => some (0x02, t, o)
  | .tcopy t o => some (0x03, t, o)
  | .tfill t o => some (0x04, t, o)
  | .tdef t o => some (0x10, t, o)
  | .tbind t o => some (0x11, t, o)
  | .tdrop t o => some (0x12, t, o)
  | .tsig t o => some (0x20, t, o)
  | .twait t o => some (0x21, t, o)
  | .tfence t o => some (0x22, t, o)
  | .tset t o => some (0x30, t, o)
  | .tadd t o => some (0x31, t, o)
  | .tldq t o => some (0x32, t, o)
  | .tloop t o => some (0x38, t, o)
  | .tjmp t o => some (0x39, t, o)
  | .tbrz t o => some (0x3A, t, o)
  | .tmark t o => some (0x40, t, o)
  | .tpri t o => some (0x41, t, o)
  | .thalt t o => some (0x7F, t, o)
  | _ => none

/-- The header word of a task (R168). -/
def taskHeader (opc : BitVec 8) (t : TaskHdr) (nop : BitVec 4) : BitVec 64 :=
  t.imm ++ t.cond ++ t.qd ++ t.ppos ++ t.pcl ++ nop ++ BitVec.ofBool t.prot ++ BitVec.ofBool t.fbk ++ t.scope ++
    BitVec.ofBool t.fb ++ opc

/-- A box as 48 bits; zero for none. -/
def boxBits : Option TBox → BitVec 48
  | some b => b.last ++ b.first
  | none => 0

/-- The words of an operand (R169). -/
def operandWords (o : Operand) : List (BitVec 128) :=
  let w : BitVec 128 := boxBits o.boxes[1]? ++ boxBits o.boxes[0]? ++ (0 : BitVec 5) ++ o.qr ++ BitVec.ofBool o.qo ++
    BitVec.ofNat 3 o.boxes.length ++ o.mode ++ BitVec.ofBool o.kind ++ o.ref
  if o.boxes.length > 2 then [w, boxBits o.boxes[3]? ++ boxBits o.boxes[2]? ++ (0 : BitVec 32)] else [w]

/-- The words of a task: its header and its operand and extension words. -/
def encodeTask (i : Instr) : Option (BitVec 64 × List (BitVec 128)) :=
  (taskParts i).map (fun p => (taskHeader p.1 p.2.1 (BitVec.ofNat 4 p.2.2.length), p.2.2.flatMap operandWords))

/-! ## Instructions as stored -/

/-- `n` bytes of a number, lowest first (R2). -/
def bytesOf : Nat → Nat → List Byte
  | 0, _ => []
  | n + 1, v => BitVec.ofNat 8 v :: bytesOf n (v / 256)

/-- The bytes of an instruction: 4 for a slot operation, 8 and 16 for each operand word of a task (R2, R169, R215); an
event has none. -/
def encode (i : Instr) : List Byte :=
  match encodeSlot i with
  | some w => bytesOf 4 w.toNat
  | none => match encodeTask i with
    | some (w, ws) => bytesOf 8 w.toNat ++ ws.flatMap (fun v => bytesOf 16 v.toNat)
    | none => []

/-- The slot position that accepts an opcode: V0 and C0 for the classes with two (R220). -/
def posOfOp (op : Nat) : Nat :=
  if op ≤ 0x54 then 0 else if op ≤ 0xBF then 1 else if op ≤ 0xD9 then 4 else if op ≤ 0xE2 then 3 else if op ≤ 0xF2 then 6 else 7

/-- The 128-bit words above the first 64 bits of a number. -/
def wordsAbove (w : Nat) : Nat → Nat → List (BitVec 128)
  | 0, _ => []
  | n + 1, i => BitVec.ofNat 128 (w >>> (64 + 128 * i)) :: wordsAbove w n (i + 1)

/-- The decoder on a row of the table of operations: a slot word of at most 32 bits, else a task. -/
noncomputable def decodeTableWord (nbits w : Nat) : Option Instr :=
  if nbits ≤ 32 then
    if w < 2 ^ 32 then decodeSlot (posOfOp ((w >>> 18) % 256)) (BitVec.ofNat 32 w) else none
  else decodeTask (BitVec.ofNat 64 w) (wordsAbove w 16 0)

end Sys2Proof
end

