-- ==== Sys2Proof/Config.lean ====
section
/-! DEFINITION. What the manual leaves open: uninterpreted constants, none of which has a value a proof could see. -/

namespace Sys2Proof.Config

/-- Codes that a pulse at the `n`-th draw moves its cell, cut to the nominal amount where it is used (R341). -/
opaque pulseMove : Nat → Nat
/-- Whether the array of the `n`-th conversion is within its monitor limit (R329). -/
opaque inLimit : Nat → Bool
/-- The displacement of a delivered converter value (R329), reduced to one step where the bound holds. -/
opaque converter : Nat → Nat
/-- Core cycles that a self-test run takes (R373 bounds it, does not fix it). -/
opaque selfTestCycles : Nat → Nat
/-- The pass bits that a self-test run finds for unit `u` of kind `k` (R373). -/
opaque selfTestPass : Nat → Nat → Nat → Bool
/-- Cycles that the application complex takes to return one access (R23 leaves it open). -/
opaque hostLatency : Nat → Nat
/-- Cycles that a peer takes to complete one chunk (R88). -/
opaque peerLatency : Nat → Nat
/-- The byte that a peer returns for a read (R32: the peer's memory is outside the part). -/
opaque peerByte : Nat → Nat → BitVec 8
/-- The cause code a peer refuses a chunk with, 0 for none (R88). -/
opaque peerCause : Nat → Nat
/-- Whether the link to a peer reports an error or times out (R88). -/
opaque peerTimeout : Nat → Bool
/-- Cycles from the end of the copy of a boot image to the end of its verification (R394, R395). -/
opaque verifyCycles : Nat → Nat
/-- SHA-512 of a byte string (R395). -/
opaque sha512 : List (BitVec 8) → BitVec 512
/-- RSASSA-PSS verification of `msg` under the modulus (R395). -/
opaque pssVerify : (modulus : List (BitVec 8)) → (sig : List (BitVec 8)) → (msg : List (BitVec 8)) → Bool
/-- The identity key's signature of a report (R396). -/
opaque pssSign : List (BitVec 8) → BitVec 4096
/-- Cycles until an attestation report is complete (R396). -/
opaque attestCycles : Nat → Nat
/-- The fused root hash, minimum security version and serial number (R395, R396). -/
opaque rootHash : BitVec 512
opaque minSVN : Nat
opaque serial : BitVec 96
/-- What a line holds when it is read under key material other than that it was written under (R397). -/
opaque garble : BitVec 512 → BitVec 512 → Nat → BitVec 8 → BitVec 8
/-- A row as it stands in its bank without ECC correction, where errors lie in it (R60): by bank and row, and by its corrected content. -/
opaque rawRow : Nat → BitVec 2048 → BitVec 2048
/-- Content that the manual calls undefined, drawn afresh (R83). -/
opaque undefinedByte : Nat → BitVec 8
/-- Cycles that the losing side of a bias flip towards device-bias takes to drain (R98). -/
opaque hostDrainCycles : Nat → Nat
/-- The lane that a known-answer check finds wrong, none when it matches (R372). -/
opaque katMismatch : Nat → Option Nat
/-- DATA of an event of several fields whose places the manual does not give (R353, R367, R400): by type and fields. -/
opaque eventData : Nat → List Nat → BitVec 128
/-- A minimal dump record by code, agent, reason, time and offset, and the header of the on-die area by its two counts; the
manual gives their content and not their layout (R375). -/
opaque minimalRecord : Nat → Nat → Nat → Nat → Nat → BitVec 512
opaque ondieHeader : Nat → Nat → BitVec 512
/-- Byte of a dumped image, whose layout the manual does not give (R374). -/
opaque imageByte : Nat → Nat → BitVec 8
/-- The key material under which the `n`-th image is dumped (R397). -/
opaque dumpMaterial : Nat → BitVec 512
/-- HBM rows repaired on a stack at the `n`-th training (R78). -/
opaque rowsRepaired : Nat → Nat → BitVec 16

end Sys2Proof.Config
end

