-- ==== Sys2Proof/Machine/State.lean ====
section
/-! DEFINITION. The state of the whole part as plain data, and the state after power-on. Every field names the rule that
gives it. A sparse table lists only what differs from its default; register files of many entries are sparse tables. -/

namespace Sys2Proof.Machine

/-! ## A context -/

/-- Where a register result goes (R199). Vector registers by file and absolute index (R285). -/
inductive Dst where
  | s (n : Nat)
  | v (file : Bool) (abs : Nat)
  | k (file : Bool) (n : Nat)
  | a (file : Bool) (n : Nat)
  /-- VTEST: predicate numbers, and the counts of set and of active lanes (R276) -/
  | vtest (pd pe : BitVec 4) (set active : Nat)
  /-- a squashed producer: only its flags and its place in the load count remain (R205, R307) -/
  | squashed
  deriving DecidableEq, Repr

/-- A result on its way to a register (R203). -/
structure Landing where
  id : Nat := 0
  /-- the cycle at whose end it lands; none while it waits on a path -/
  due : Nat := 0
  dst : Dst := .squashed
  val : Wide := 0
  /-- flags for FPSTAT (R129) -/
  flags : BitVec 6 := 0
  /-- counted in OLCNT (R307) -/
  load : Bool := false
  /-- the access that produces it, for GLD and atomics -/
  req : Option Nat := none
  /-- consumed uncorrectable error: class and sub-cause of R366, and bank x 512 + row -/
  ue : Option (Nat × Nat × Nat) := none
  deriving DecidableEq, Repr

/-- An active loop level (R254, R255). -/
structure LoopLvl where
  start : BitVec 32 := 0
  fin : BitVec 32 := 0
  rem : Nat := 0
  stage : Bool := false
  epi : BitVec 3 := 0
  deriving DecidableEq, Repr

/-- The checkpoint of a segment (R156): the bundle it resumes at and the registers it covers. -/
structure Checkpoint where
  pc : BitVec 32 := 0
  sregs : SMap Word := []
  preds : BitVec 16 := 0
  aregs : SMap Word := []
  strides : SMap (BitVec 12) := []
  loops : List LoopLvl := []
  pend : Option (BitVec 3) := none
  rstack : List (BitVec 32) := []
  ctrs : SMap (BitVec 16) := []
  redirect : Option (Nat × BitVec 32) := none
  redirectPops : Bool := false
  /-- [R162] rendezvous passed, by which a replay knows those that all have passed -/
  rdvCount : Nat := 0
  deriving DecidableEq, Repr

/-- The state of a context (R149, R369). -/
inductive CtxStatus where
  | free
  /-- placed, not yet started (R434) -/
  | starting
  | ready
  | running
  /-- engine wait: the class 3 sub-cause of R366 (or a code above 99 of R149's other waits), slot and detail -/
  | blocked (cause slot detail : Nat)
  | trapped
  /-- halted for pre-emption, rollback or fault (R160, R360, R197) -/
  | stopped
  /-- HALT has issued (R262) -/
  | ended
  deriving DecidableEq, Repr

/-- A trap record's contents (R367). -/
structure TrapRec where
  cls : Nat := 0
  cause : Nat := 0
  slot : Nat := 255
  done : BitVec 8 := 0
  rank : Nat := 0
  prot : Bool := false
  origin : Nat := 0
  baddr : BitVec 32 := 0
  detail : Nat := 0
  time : Nat := 0
  seq : Nat := 0
  deriving DecidableEq, Repr

/-- The registers of a context that its instructions name (R199). -/
structure Regs where
  /-- [R199, R147; 64 x 64 bits; zero] s0 to s63 -/
  sregs : SMap Word := []
  /-- [R199; 64 bits; all full] empty bits of the s registers -/
  sEmpty : BitVec 64 := 0
  /-- [R199, R147; 16 bits; P0 reads true] P0 to P15 -/
  preds : BitVec 16 := 0
  /-- [R199; 16 x 64 bits; zero] k0 to k7 at 0 to 7, j0 to j7 at 8 to 15 -/
  masks : SMap Word := []
  /-- [R199; 16 bits; all full] empty bits of the lane masks -/
  mEmpty : BitVec 16 := 0
  /-- [R199; 32 x 64 bits; zero] a0 to a15 at 0 to 15, b0 to b15 at 16 to 31 -/
  aregs : SMap Word := []
  /-- [R199; 32 bits; all full] empty bits of the address registers -/
  aEmpty : BitVec 32 := 0
  /-- [R200; 32 x 12 bits; zero] their strides -/
  strides : SMap (BitVec 12) := []
  /-- [R199, R311; 16 x 16 bits; zero] dependence counters c0 to c15 -/
  ctrs : SMap (BitVec 16) := []
  /-- [R307; 0 to 16; 0] outstanding-load counter (OLCNT) -/
  olcnt : Nat := 0
  /-- [R252; 16 entries; empty] return stack, top first -/
  rstack : List (BitVec 32) := []
  /-- [R254; 6 levels; none] loop levels, innermost first -/
  loops : List LoopLvl := []
  /-- [R256; flag and 3 bits; none] pending stage flag with its epilogue count -/
  pend : Option (BitVec 3) := none
  /-- [R250; 32 bits; 0] program address -/
  pc : BitVec 32 := 0
  /-- [R250; ; none] a taken branch: delay bundles still to issue, and the target -/
  redirect : Option (Nat × BitVec 32) := none
  /-- whether that branch pops loop levels at its target (R257) -/
  redirectPops : Bool := false
  /-- [R128; 6 bits; 0] FPSTAT -/
  fpstat : BitVec 6 := 0
  /-- [R35, R368; 8 bits; 0] DONEMASK -/
  donemask : BitVec 8 := 0
  /-- [R34; 12 bits; start of the grant] frame base VFBX -/
  vfbx : BitVec 12 := 0
  /-- [R34; 12 bits; start of the grant] VFBY -/
  vfby : BitVec 12 := 0
  /-- [R276; 7 bits; 0] VCOUNT -/
  vcount : Nat := 0
  /-- [R202; 6 bits; 0] VPWRSEL -/
  vpwrsel : BitVec 6 := 0
  /-- [R251; 32 bits; 0xFFFF_FFFF] fallback target -/
  fbTarget : BitVec 32 := 0xFFFFFFFF
  deriving DecidableEq, Repr

/-- What placement fixes for a context (R146, R147). -/
structure Place where
  /-- [R34; ; empty] granted ranges: first absolute index and size -/
  grantx : Nat × Nat := (0, 0)
  granty : Nat × Nat := (0, 0)
  /-- [R213; 8 registers a file; none] absolute indices of the mirrored registers -/
  mirx : List Nat := []
  miry : List Nat := []
  /-- [R35; 4 bits and 1 bit; 0] partition and world shown in CTXID -/
  part : BitVec 4 := 0
  secure : Bool := false
  /-- [R35, R153; 3 and 4 bits; 0 and 1] RANK and GSIZE -/
  rank : Nat := 0
  gsize : Nat := 1
  /-- [R201; 3 bits; 0] JOBFLG: strict, protected, fallback -/
  strict : Bool := false
  prot : Bool := false
  fbk : Bool := false
  /-- [R148; 2 bits; 0] claims of the matrix array and of the crossbar bank -/
  claimM : Bool := false
  claimX : Bool := false
  /-- [R33, R193; 8 bits; 0] parity groups held -/
  gmask : BitVec 8 := 0
  /-- [R64; ; 0] first tile-table entry and number of tiles -/
  tbase : Nat := 0
  ntiles : Nat := 0
  /-- [R172; 16 bits; 0] code tensor -/
  code : BitVec 16 := 0
  /-- the job placed here -/
  job : Option Nat := none
  deriving DecidableEq, Repr

/-- The open segment of a context (R156 to R163). -/
structure Segment where
  /-- [R157; 32 bits; kernel header] segment input mask -/
  segMask : BitVec 32 := 0
  /-- [R156; ; at placement] checkpoint -/
  chk : Checkpoint := {}
  /-- [R160; 0 to 2; 0] replay count -/
  replays : Nat := 0
  /-- [R159; 1 bit; 0] segment is non-replayable -/
  nonReplay : Bool := false
  /-- [R160; ; none] a rollback event awaiting the next bundle boundary: class, sub-cause -/
  rbPending : Option (Nat × Nat) := none
  /-- [R160; 1 bit; 0] rolling back, waiting for inbound copies -/
  rollingBack : Bool := false
  /-- [R163; 1 bit; 0] replaying on its own, outside the broadcast -/
  solo : Bool := false
  /-- [R160; ; none] bundles issued when it last went back to its entry bundle -/
  entryAt : Option Nat := none
  deriving DecidableEq, Repr

/-- A bundle that the even core of a protected pair has issued, for its partner to issue two cycles later (R164, R165): the
cycle, the slots done before, the registers before and after, and the results posted. -/
structure Commit where
  at_ : Nat
  done : BitVec 8
  pre : Regs
  post : Regs
  news : List Landing
  /-- banks and rows that the bundle wrote, and its commit signature (R371) -/
  wr : List (Nat × Nat)
  sig : BitVec 64
  deriving DecidableEq, Repr

/-- A bundle that a gang's sequencer has sent to a member and the member has still to issue (R152): the cycle, the parity groups that
it names, and whether it posts a system event. -/
structure CastSlot where
  at_ : Nat
  grps : List Nat
  posts : Bool
  deriving DecidableEq, Repr

/-- A trap that a member of a gang takes once it has issued what the sequencer had sent it (R154, R155). -/
structure StopTrap where
  cls : Nat
  cause : Nat
  slot : Nat
  detail : Nat
  origin : Nat
  deriving DecidableEq, Repr

/-- One hardware context of a core (R15, R199). -/
structure Ctx where
  status : CtxStatus := .free
  /-- [R103, R119; 48 bits; 0] logical clock -/
  lc : Nat := 0
  /-- [R111, R113; 48 bits; 0] largest timestamp that its accesses and chunks took -/
  maxTs : Nat := 0
  /-- results on their way -/
  landings : List Landing := []
  /-- [R97; ; none] watch trap owed: granule, slot and bundle of the access -/
  watchPending : Option (Nat × Nat × BitVec 32) := none
  /-- [R367; ; none] trap record while trapped -/
  trap : Option TrapRec := none
  /-- [R367; 16 bits; 0] traps since placement -/
  seq : Nat := 0
  /-- [R377; 1 bit; 0] the next decode follows a resume -/
  resumed : Bool := false
  /-- [R378; 1 bit; 0] a step is owed -/
  stepping : Bool := false
  /-- [R162; ; none] the RDV bundle at which the context waits, and its rendezvous count -/
  rdvAt : Option (BitVec 32) := none
  rdvCount : Nat := 0
  /-- [R46; ; none] cycle until which the decoded bundle is held, and the cause of R386 -/
  heldUntil : Option Nat := none
  /-- [R46, R211, R228] what the bundle is held on: 0 scratchpad, 1 ports, 2 throttle -/
  heldStage : Nat := 0
  /-- [R47] parity groups on which the bundle is held -/
  heldGrps : List Nat := []
  /-- [R152; ; none] bundles on their way from the sequencer, oldest first -/
  cast : List CastSlot := []
  /-- [R155; ; none] the trap owed after them -/
  stopWith : Option StopTrap := none
  /-- [R165; ; none] what the even core of a pair has issued and its partner has not, oldest first -/
  commits : List Commit := []
  /-- bundles issued since placement -/
  nissued : Nat := 0
  /-- The registers of a context that its instructions name (R199). -/
  r : Regs := {}
  /-- What placement fixes for a context (R146, R147). -/
  j : Place := {}
  /-- The open segment of a context (R156 to R163). -/
  g : Segment := {}
  deriving DecidableEq, Repr

/-! ## A core -/

/-- An entry of a parity update queue: row, delta and the cycle it was appended (R50). -/
structure PEntry where
  row : Nat
  delta : Wide
  at_ : Nat
  deriving DecidableEq, Repr

/-- A parity group's queue, control and status (R39, R50, R60). -/
structure Group where
  /-- [R50; 8 entries; empty] parity update queue, head first -/
  queue : List PEntry := []
  /-- [R60, R41; 4 bits; 0] FMT -/
  fmt : BitVec 4 := 0
  /-- [R55; 3 bits; 0] RETEN with RETB: the retirement written, then in force -/
  retWritten : Option (BitVec 2) := none
  ret : Option (BitVec 2) := none
  /-- [R55; 1 bit; 0] PRET written, then in force -/
  pretWritten : Bool := false
  pret : Bool := false
  /-- [R58; ; none] next row of a running rebuild -/
  rebuild : Option Nat := none
  /-- [R59; 1 bit; 0] DIS -/
  dis : Bool := false
  /-- [R58; 1 + 9 bits; 0] PLOST, PLROW -/
  plost : Bool := false
  plrow : Nat := 0
  /-- [R60, R148; ; none] the job that holds the group -/
  held : Option Nat := none
  /-- [R148] the holder has ended and the queue still drains -/
  releasing : Bool := false
  /-- [R37] the world of the last job that held it -/
  secure : Bool := false
  /-- cycle in which the parity bank is busy (R51) -/
  busyAt : Option Nat := none
  deriving DecidableEq, Repr

/-- Tile states (R63). -/
inductive TileSt where
  | empty
  | filling
  | ready
  | draining
  deriving DecidableEq, Repr

/-- A tile-table entry (R63). -/
structure Tile where
  blo : Nat := 0
  bhi : Nat := 0
  wlo : Nat := 0
  whi : Nat := 0
  st : TileSt := .empty
  deriving DecidableEq, Repr

/-- Weight-buffer unit states (R286). -/
inductive UnitSt where
  | empty
  | filling
  | ready
  deriving DecidableEq, Repr

/-- A weight column: 128 signed levels, one byte each, and its block scales as FP32, two or four of them (R286, R290). -/
structure WCol where
  levels : BitVec 1024 := 0
  scales : BitVec 128 := 0
  two : Bool := false
  deriving DecidableEq, Repr

/-- The cell operations (R286). -/
inductive CellOp where
  | mad
  | ada
  | csl
  deriving DecidableEq, Repr

/-- An in-flight beat: its column values before the accumulator is added (R143, R296, R297). -/
structure Beat where
  due : Nat
  ctx : Nat
  tile : Nat
  row : Nat
  op : CellOp
  val : Wide
  flags : BitVec 6
  deriving DecidableEq, Repr

/-- The power state of a vector domain (R214). -/
inductive Power where
  | on
  | ret
  /-- on at the end of the cycle; whether it was off -/
  | waking (due : Nat) (fresh : Bool)
  | off
  deriving DecidableEq, Repr

/-- An input entry of the coupling (R325). -/
structure CplEntry where
  n : Nat
  q : Wide
  e : Int
  deriving DecidableEq, Repr

/-- An entry of the result FIFO, reserved or landed (R332). -/
structure ResEntry where
  op : Nat
  landed : Bool := false
  data : Wide := 0
  deriving DecidableEq, Repr

/-- The operations that occupy arrays (R331). -/
inductive XKind where
  | xmvm
  | xver
  | xmon
  | xprog
  | xcalmon
  deriving DecidableEq, Repr

/-- An accepted crossbar operation (R330, R337). -/
structure XOp where
  id : Nat
  kind : XKind
  arr : Nat
  ch : Nat := 0
  issued : Nat
  ctx : Nat
  /-- start tick once started -/
  start : Option Nat := none
  pcol : Nat := 0
  step : Nat := 0
  vec : Wide := 0
  dep : Nat := 0
  rs : Nat := 0
  ofmt : Nat := 0
  ogrp : Nat := 0
  ong : Nat := 0
  entries : List CplEntry := []
  /-- entries still counted against CPLFREE -/
  holds : Nat := 0
  /-- remap tables of the chain, offsets and gains of ARR, as at issue (R337) -/
  remap : List (Nat × SMap Nat) := []
  off : SMap (BitVec 32) := []
  gain : SMap (BitVec 32) := []
  auto : Bool := false
  deriving DecidableEq, Repr

/-- The bank states (R346). -/
inductive BankSt where
  | on
  | gating
  | gated
  /-- until the end of the cycle; whether XGATE was issued meanwhile -/
  | waking (due : Nat) (gate : Bool)
  deriving DecidableEq, Repr

/-- A crossbar array's controller state (R323). -/
structure XArr where
  /-- [R323; 24 entries; invalid] entry r to its logical column -/
  remap : SMap Nat := []
  /-- [R323; 24 bits; 0] VERIFIED -/
  verified : BitVec 24 := 0
  /-- [R323; 512 x FP32; +0] offsets -/
  off : SMap (BitVec 32) := []
  /-- [R323; 512 x FP32; +1.0] gains -/
  gain : SMap (BitVec 32) := []
  /-- [R323; eight values; invalid] monitor expectations -/
  expect : Option (List Int) := none
  /-- [R323; 1 bit; 1] DRIFT -/
  drift : Bool := true
  /-- [R323; 4 bits; 15] MONERR -/
  monerr : Nat := 15
  /-- [R323; 512 bits, count, valid; VVALID 0] verify record -/
  vmask : BitVec 512 := 0
  vcnt : Nat := 0
  vvalid : Bool := false
  deriving DecidableEq, Repr

/-- The scratchpad set (R39 to R66). -/
structure Scratch where
  /-- [R39; 40 x 512 rows of 256 B; zero] rows, at bank x 512 + row -/
  rows : SMap Wide := []
  /-- [R40] rows that hold an uncorrectable error, and rows with a correctable one, by the same key -/
  badRows : SMap Bool := []
  softRows : SMap Bool := []
  /-- [R39; 8; see Group] parity groups -/
  groups : SMap Group := []
  /-- [R63; 256 entries; invalid] tile table -/
  tiles : SMap Tile := []
  /-- [R60; 32 bits each; 0] CECNT of each bank -/
  cecnt : SMap Nat := []
  /-- bank cycles used in the present cycle: banks read or written (R42, R47) -/
  bankUse : List Nat := []
  bankUseAt : Nat := 0
  deriving DecidableEq, Repr

/-- The vector files (R34, R210 to R214). -/
structure VFiles where
  /-- [R34; 2 x 4,096 registers of 256 B; zero] vector registers, at file x 4096 + absolute index -/
  vregs : SMap Wide := []
  /-- [R199] their empty bits -/
  vEmpty : SMap Bool := []
  /-- [R370; ; none] those that hold an uncorrectable error -/
  vBad : SMap Bool := []
  /-- [R214; ; on] domain states, at (file x 8 + bank) x 64 + block -/
  domains : SMap Power := []
  deriving DecidableEq, Repr

/-- The matrix array (R286). -/
structure Matrix where
  /-- [R286; 64 units of 16 KiB; zero] weight buffer, at unit x 64 + chunk -/
  wbuf : SMap Wide := []
  /-- [R370] chunks of it whose check bits decode as uncorrectable -/
  wbad : SMap Bool := []
  /-- [R286; 64; empty] unit states -/
  units : SMap UnitSt := []
  /-- [R286; ; 0x8, 0x8, multiply-add] AF, BF, DEF -/
  mAF : BitVec 4 := 8
  mBF : BitVec 4 := 8
  mDEF : CellOp := .mad
  /-- [R286; 64 columns each; zero] shadow and active weights -/
  shadow : SMap WCol := []
  active : SMap WCol := []
  /-- [R286; 4 x 128 rows of 64 FP32; +0] accumulators, at tile x 128 + row -/
  acc : SMap Wide := []
  /-- [R370; ; none] rows of them that hold an uncorrectable error -/
  accBad : SMap Bool := []
  /-- [R286; ; none] in-flight shifts, oldest first -/
  beats : List Beat := []
  deriving DecidableEq, Repr

/-- The crossbar bank with its coupling (R323). -/
structure XBank where
  /-- [R35; 4 bits; 2] MONLIM -/
  monlim : BitVec 4 := 2
  /-- [R35; 32 bits; 0] MONPER -/
  monper : BitVec 32 := 0
  /-- [R323; 16 entries; empty] waiting coupling entries, head first -/
  coupling : List CplEntry := []
  /-- [R332; 16 entries; empty] result FIFO, head first -/
  results : List ResEntry := []
  /-- [R330; 16 places; empty] operation queue, oldest first -/
  xq : List XOp := []
  /-- [R346; ; on] bank state -/
  bank : BankSt := .on
  /-- [R324; 64 x 16 bits; 0] XCTL -/
  xctl : SMap (BitVec 16) := []
  /-- [R323; 64 arrays] -/
  arrays : SMap XArr := []
  /-- [R323, R36; codes; 8] cells, at code address -/
  cells : SMap (BitVec 4) := []
  /-- [R323; codes; equal to the cells] code image -/
  image : SMap (BitVec 4) := []
  /-- [R339] timebase tick of the last automatic monitor run -/
  lastMon : Nat := 0
  /-- [R348; 6 + 10 bits] -/
  crossbarSel : Nat := 0
  /-- [R37] the world of the last job that claimed it -/
  secure : Bool := false
  deriving DecidableEq, Repr

/-- A core position: scratchpad set, vector files, matrix array, crossbar bank and contexts (R10, R15). -/
structure Core where
  /-- [R15; 4 contexts; free] -/
  ctxs : SMap Ctx := []
  /-- [R149; ; none] the running context -/
  running : Option Nat := none
  /-- [R150] the context after which the round-robin starts -/
  lastCtx : Nat := 3
  /-- [R151; to 4,096; 0] consecutive issue cycles of the running context -/
  consec : Nat := 0
  /-- [R150] first cycle in which the core may decode again -/
  nextIssue : Nat := 0
  /-- [R228; 3 bits; 0] throttle phase -/
  phi : Nat := 0
  /-- [R35; 3 bits; 0] THRL -/
  thrl : BitVec 3 := 0
  /-- [R435; 128 KiB; empty] chunks held by the bundle cache: code tensor and chunk -/
  bcache : List (Nat × Nat) := []
  /-- [R435] chunk fetches under way: context, code tensor, chunk, path -/
  bfetch : List (Nat × Nat × Nat × Nat) := []
  /-- [R400] MTS to THRL is discarded while hot -/
  hot : Bool := false
  /-- [R372, R362; 1 bit; 0] suspect: placement stopped -/
  suspect : Bool := false
  /-- [R13; 1 bit; 0] disabled -/
  disabled : Bool := false
  /-- [R148] parity groups that ended jobs still hold here: job and groups -/
  leaving : List (Nat × BitVec 8) := []
  /-- [R372] cycles from which the next checks of the M slot and of the V slots are due; the checks that the bundle issued in this cycle
  carries: a V slot's or the M slot's, and the job -/
  katDue : Nat := 0
  katDueV : Nat := 0
  kats : List (Bool × Option Nat) := []
  /-- [R385] the last decode: cycle, context, bundle address, whether it issued, slot and stall counter -/
  lastDec : Option (Nat × Nat × BitVec 32 × Bool × Nat × Nat) := none
  /-- The scratchpad set (R39 to R66). -/
  sp : Scratch := {}
  /-- The vector files (R34, R210 to R214). -/
  vf : VFiles := {}
  /-- The matrix array (R286). -/
  mx : Matrix := {}
  /-- The crossbar bank with its coupling (R323). -/
  xb : XBank := {}
  deriving DecidableEq, Repr

/-! ## Memory system -/

/-- The stamps of a line's current version (R103). -/
structure Stamp where
  wts : Nat := 0
  rts : Nat := 0
  deriving DecidableEq, Repr

/-- Whom a version is published to (R107, R110). -/
inductive Pub where
  /-- a context of a job, by rank, wherever it is placed -/
  | member (job rank : Nat)
  | core (n : Nat)
  | cluster (n : Nat)
  deriving DecidableEq, Repr

/-- A version that a chunk write made and that is not yet published to every agent (R110). -/
structure Version where
  id : Nat := 0
  ts : Nat
  /-- job and rank of the issuing context; none for a front-end copy -/
  job : Option Nat := none
  rank : Nat := 0
  /-- stream, coach number and the core positions that its task has occupied (R107) -/
  queue : Option Nat := none
  coach : Nat := 0
  cores : List Nat := []
  /-- its copy -/
  req : Nat := 0
  bytes : List Host.Cell
  pub : List Pub := []
  deriving DecidableEq, Repr

/-- A leased copy of a line (R103): what every agent saw of it when the lease was granted, and the versions of it that were not
published to all. Holders: 0 to 9 the clusters, 10 the application complex, 11 the firmware complex, 12 the spine. -/
structure Lease where
  holder : Nat
  line : Nat
  wts : Nat
  rts : Nat
  base : BitVec 1024
  vers : List Version := []
  deriving DecidableEq, Repr

/-- A line held in a cluster slice (R69, R70). -/
structure LineTag where
  line : Nat
  dirty : Bool := false
  key : Nat := 0
  part : Nat := 0
  deriving DecidableEq, Repr

/-- An entry of the write-back buffer (R71). -/
structure WbEntry where
  line : Nat
  part : Nat
  /-- started by a grow sweep (R74) -/
  sweep : Bool := false
  /-- cycle at whose end it entered -/
  since : Nat := 0
  /-- cycle of its port slot, and of its acknowledgement, once taken -/
  u1 : Option Nat := none
  due : Option Nat := none
  deriving DecidableEq, Repr

/-- A change of WAYPART in progress (R74, R75). -/
inductive Sweep where
  /-- from way p to q, next line to visit -/
  | grow (p q next : Nat)
  | shrink (p q next : Nat)
  deriving DecidableEq, Repr

/-- A cluster: slice, timetables and ownership (R69, R81, R363). -/
structure Cluster where
  /-- [R11; 32 bits; 0x7654_3210] CMAP and CMAPN -/
  cmap : BitVec 32 := 0x76543210
  cmapn : BitVec 32 := 0x76543210
  /-- [R69; 16 ways x 8,192 sets; invalid] tags, at way x 8192 + set -/
  tags : SMap LineTag := []
  /-- [R70] LRU order of each set that has lines, most recent way first -/
  lru : SMap (List Nat) := []
  /-- [R71; 64 entries; empty] write-back buffer -/
  wb : List WbEntry := []
  /-- [R73; 4 bits; 0] WAYS, PRESENT -/
  ways : Nat := 0
  present : Nat := 0
  /-- [R73; ; none] sweep while BUSY; cycle of its write -/
  sweep : Option Sweep := none
  sweepAt : Nat := 0
  /-- [R73, R249; ; none] WAYS written in this cycle, taken up at its end -/
  wayNew : Option Nat := none
  /-- [R76; 8 x 512 bits; nobody] live port timetables -/
  ptt : SMap (BitVec 512) := []
  /-- [R80; ; none] cycle of a commit not yet switched -/
  commitAt : Option Nat := none
  /-- [R363; 4 bits; DESIGN CHOICE 0 (log entry 3)] OWNER -/
  owner : BitVec 4 := 0
  /-- [R364; ; none] NEW while GO = 1, and whether step 3 has been reached -/
  moveTo : Option (BitVec 4) := none
  moveSwapped : Bool := false
  /-- [R364] the cycle in which the new owner's timetables switch, once step 4 is done -/
  moveCommit : Option Nat := none
  /-- [R363; 1 bit; 0] WAITF -/
  waitf : Bool := false
  /-- [R373; 9 and 17 bits; self-test] SITEPASS, WAYPASS -/
  sitePass : BitVec 9 := 0
  wayPass : BitVec 17 := 0
  /-- [R69; 1 bit; 0] spare way in use -/
  spareWay : Bool := false
  deriving DecidableEq, Repr

/-- A slot that a demand request has claimed on a timetable (R76): timetable number and cycle. Timetable n x 8 + p is port
p of cluster n; 1000 + c is pseudo-channel c. -/
structure Claim where
  tbl : Nat
  at_ : Nat
  deriving DecidableEq, Repr

/-- What becomes of a line once it has its slot (R76, R77, R105): it returns after some cycles, after a free latency outside the
timetables, or it looks into the slice and goes on to its home unless it hits the line there or a lease of an agent's load, at its
clock or at a fixed one. -/
inductive Hop where
  | back (lat : Nat)
  | outside
  | look (load : Option (Nat × Option Nat))
  deriving DecidableEq, Repr

/-- A line of an access on its way (R76, R77): address, cycle of arrival at a timetable, its number, the set of a pseudo-channel,
partition, and the slot once it is taken. -/
structure Leg where
  addr : Nat
  arrive : Nat
  tbl : Nat
  set : Option Nat := none
  part : Nat
  hop : Hop
  slot : Option Nat := none
  deriving DecidableEq, Repr

/-- A leased copy that a load met, and the load's time (R103). -/
structure Met where
  time : Nat
  copy : Lease
  deriving DecidableEq, Repr

/-- The paths of one access's lines: the lines still on their way, the latest return known, the leased copies met, and the rank of
the access among those that arrive in one cycle: C0 before C1, then by agent (R76). -/
structure Ticket where
  legs : List Leg := []
  due : Nat := 0
  met : List Met := []
  ord : Nat := 0
  deriving DecidableEq, Repr

/-- A descriptor held by a layout unit (R85). -/
structure DescEnt where
  tid : Nat
  img : BitVec 512
  deriving DecidableEq, Repr

/-- A tile-table entry held by a layout unit (R85, R86). -/
structure TileEnt where
  tid : Nat
  tile : Nat
  addr : Nat
  img : BitVec 128
  inflight : Nat := 0
  lastUse : Nat := 0
  deriving DecidableEq, Repr

/-- A layout unit (R84, R85): most recently used first. -/
structure LUnit where
  /-- [R85; 16 entries; empty] -/
  descs : List DescEnt := []
  /-- [R85; 64 entries; empty] -/
  tiles : List TileEnt := []
  /-- descriptor read under way: identifier and path -/
  fetch : Option (Nat × Nat) := none
  /-- copies of the port in queue order -/
  queue : List Nat := []
  deriving DecidableEq, Repr

/-- The kinds of request that a layout unit carries. -/
inductive ReqKind where
  | copy | copyo | copyn | wfill | pref
  | gld | gst | aadd | aswap | acas | amin | amax | aand | aor
  | tcopy | tfill | fill
  | tsig | twait | tldq
  deriving DecidableEq, Repr

/-- Where and why a request faults, as its record tells (R91); `side` is the second side of a TCOPY or fill. -/
structure FaultAt where
  cause : Nat
  tile : Nat := 0
  idx : Nat := 0
  peer : Bool := false
  write : Bool := false
  side : Bool := false
  deriving DecidableEq, Repr

/-- The state of a request (R90, R158, R310). -/
inductive ReqSt where
  /-- outbound copy held until its segment closes -/
  | held
  /-- waiting for its descriptor before the acceptance checks -/
  | accepting
  | running
  | parked
  /-- waiting for room to park -/
  | waitPark (f : FaultAt)
  /-- stopped with its job: only its chunks in flight still land (R197) -/
  | stopped
  | done
  deriving DecidableEq, Repr

/-- A chunk under way (R87, R312). -/
structure Chunk where
  ord : Nat
  /-- physical address of the chunk, tile number and index within the frame -/
  addr : Nat
  tile : Nat
  idx : Nat
  /-- the path of its lines; none until an outbound chunk's rows have been read -/
  tick : Option Nat := none
  done : Bool := false
  peer : Bool := false
  /-- second side of a TCOPY -/
  side : Bool := false
  cls : Nat := 0
  key : Nat := 0
  /-- the iteration it belongs to (R315) -/
  iter : Nat := 0
  /-- no completion of a peer comes within the timeout (R390) -/
  late : Bool := false
  /-- bytes by position in the frame: byte with its mask above it -/
  bytes : SMap (BitVec 16) := []
  ue : Bool := false
  deriving DecidableEq, Repr

/-- A copy, coherent access or front-end request (R309 to R320, R174, R175, R187). -/
structure Req where
  id : Nat := 0
  kind : ReqKind := .copy
  /-- issuing core and context; port 0 or 1; or the front-end engine -/
  core : Nat := 0
  ctx : Nat := 0
  job : Option Nat := none
  port : Nat := 0
  fe : Option Nat := none
  /-- stream and coach, for front-end requests -/
  queue : Nat := 0
  coach : Nat := 0
  part : BitVec 4 := 0
  secure : Bool := false
  tid : Nat := 0
  origin : List Nat := []
  ext : List Nat := []
  hint : BitVec 2 := 0
  /-- log2 of the width in bytes -/
  lw : Nat := 0
  ctr : Nat := 0
  tile : Nat := 0
  dst : Nat := 0
  val : Word := 0
  cmp : Word := 0
  /-- nest descriptor (R314) and the iteration under way -/
  nest : Option Wide := none
  iter : Nat := 0
  dstTid : Nat := 0
  dstOrigin : List Nat := []
  /-- rank of the issuing context, and the core positions of its job -/
  rank : Nat := 0
  cores : List Nat := []
  /-- the descriptors with which its last chunk was translated -/
  img : Option (BitVec 512) := none
  dimg : Option (BitVec 512) := none
  /-- place in the order in which parked requests came back (R92) -/
  turn : Nat := 0
  /-- tiles of a TFILL or fill, and the constant -/
  tiles : List Nat := []
  st : ReqSt := .running
  issued : Nat := 0
  clk : Nat := 0
  baddr : BitVec 32 := 0
  slot : Nat := 0
  /-- next ordinal to translate (the cursor) -/
  ord : Nat := 0
  chunks : List Chunk := []
  /-- iteration and tile row of the rows already written -/
  rows : List (Nat × Nat) := []
  /-- issue cycle, by which the odd core of a pair finds it (R165) -/
  seq : Nat := 0
  /-- in a protected pair: completions reach both cores (R165) -/
  mirror : Bool := false
  /-- the tile of a copy as its entry gave it -/
  geo : Option Tile := none
  /-- the state of its tile or weight unit before it, for a copy that a pair's mismatch withdraws (R371) -/
  wasTile : TileSt := .empty
  wasUnit : UnitSt := .empty
  /-- rows of the outbound chunk now read, by tile row -/
  rowData : SMap Wide := []
  /-- a hold acquisition under way: its path -/
  acq : Option Nat := none
  place : Nat := 0
  /-- [R93, R195] fault-ring index of its last record -/
  frIdx : Nat := 0
  /-- the counter decrement is dropped by a rollback (R160), or moves the checkpoint too (R313) -/
  dropDec : Bool := false
  preSeg : Bool := false
  flags : BitVec 6 := 0
  maxTs : Nat := 0
  ue : Bool := false
  /-- path of the access to its line's home -/
  tick : Option Nat := none
  addr : Nat := 0
  cls : Nat := 0
  key : Nat := 0
  /-- acceptance checks not yet made (R92) -/
  unaccepted : Bool := false
  /-- counted on REPLAY (R92) -/
  replaying : Bool := false
  deriving DecidableEq, Repr

/-! ## Streams and jobs -/

/-- A name-table entry (R176): the template image, its class (none: HBM) and the wagon. -/
inductive NameEnt where
  | none
  | template (img : BitVec 512) (cls : Option Nat)
  | wagon (img : BitVec 512) (cls : Option Nat) (w : Nat)
  | raw (tid : Nat)
  deriving DecidableEq, Repr

/-- An operand after renaming (R187): identifier, mode, grid boxes, and the wagon to fill from. -/
structure ROp where
  tid : Nat
  mode : BitVec 2
  raw : Bool
  /-- first and last tile of each box after the offset -/
  boxes : List (Nat × Nat)
  /-- their grid ranges in each dimension -/
  grid : List (List (Nat × Nat)) := []
  fillFrom : Option Nat := none
  wagon : Option Nat := none
  deriving DecidableEq, Repr

/-- Coach states (R189). -/
inductive CoachSt where
  | decoded
  | waiting
  | issued
  | completed
  | faulted
  deriving DecidableEq, Repr

/-- An undo record of a coach (R189). -/
inductive Delta where
  | name (n : Nat) (old : NameEnt)
  | q (n : Nat) (old : Word)
  deriving DecidableEq, Repr

/-- A coach (R189). -/
structure Coach where
  num : Nat
  taddr : Nat
  /-- the task, none where its encoding is illegal; its opcode; the tick of its decode -/
  task : Option Instr
  opc : Nat := 0
  at_ : Nat := 0
  st : CoachSt := .decoded
  ops : List ROp := []
  /-- numbers of the older coaches it depends on, and whether on every older one (R188) -/
  edges : List Nat := []
  edgesAll : Bool := false
  /-- [R173] s1 to s8 of its job -/
  sregs : List Word := []
  /-- [R170] the first operand whose boxes fail, found at issue -/
  badOp : Option Nat := none
  /-- [R178, R181] q[QD] when it was decoded, and the tensor of a signal word -/
  qval : Word := 0
  deltas : List Delta := []
  /-- wagons taken, read, and released at retirement -/
  takes : List Nat := []
  reads : List Nat := []
  frees : List Nat := []
  job : Option Nat := none
  /-- its front-end request -/
  req : Option Nat := none
  fills : List Nat := []
  /-- job halted or engine finished -/
  finished : Bool := false
  /-- [R195] CAUSE, OPIDX, DETAIL, JOB, BADDR of the fault reported for it -/
  fault : Option (Nat × Nat × Nat × Nat × Nat) := none
  /-- [R195] the timebase at that report -/
  faultAt : Nat := 0
  maxTs : Nat := 0
  deriving DecidableEq, Repr

/-- Why decode stands still (R190). -/
inductive DecStop where
  | fence (coach : Nat)
  /-- waiting for descriptor reads: their path, and the task that made them -/
  | read (path : Nat) (task : Instr)
  | tldq (req : Nat)
  | halted
  | fault
  deriving DecidableEq, Repr

/-- Queue states (R349). -/
inductive QState where
  | off
  | idle
  | runnable
  | mapped
  | faulted
  | ended
  deriving DecidableEq, Repr

/-- A queue with its stream (R145, R349, R350). Its rings and other plain registers stand in the control registers. -/
structure Queue where
  en : Bool := false
  pri : BitVec 3 := 0
  part : BitVec 4 := 0
  ns : Bool := false
  st : QState := .off
  /-- [R349; 5 bits; ] ENG while mapped -/
  eng : Option Nat := none
  tail : BitVec 16 := 0
  wake : Bool := false
  /-- [R167; 64 KiB; ] task buffer -/
  buf : SMap Byte := []
  /-- [R167; 16 and 17 bits; 0] TAILB and FILLED -/
  tailb : Nat := 0
  filled : Nat := 0
  /-- [R351] lines under way in ring order: ring offset, bytes, path -/
  lines : List (Nat × Nat × Nat) := []
  /-- [R351, R358] tail writes not yet begun: from and to -/
  deferred : List (Nat × Nat) := []
  /-- [R182; 16 x 64 bits; 0] task registers -/
  q : SMap Word := []
  /-- [R176; 128 entries; none] name table -/
  names : SMap NameEnt := []
  /-- [R113; 48 bits; 0] stream clock -/
  clock : Nat := 0
  /-- next task address (R167) -/
  taddr : Nat := 0
  /-- [R189; 32 bits; 0] tasks decoded -/
  count : Nat := 0
  /-- [R189; 256 coaches; empty] window, oldest first -/
  coaches : List Coach := []
  stop : Option DecStop := none
  /-- [R186; 16 wagons, 64 frames; ] reserve -/
  resW : List Nat := []
  resF : List Nat := []
  /-- [R357] first cycle in which the engine decodes; tick at which the slice ends -/
  loadDue : Option Nat := none
  sliceEnd : Option Nat := none
  /-- [R358] unmapping until the cycle -/
  unmapDue : Option Nat := none
  /-- [R356] tick of joining the remap list -/
  joined : Nat := 0
  /-- [R362] tick from which the watchdog measures, and stages done -/
  wdFrom : Nat := 0
  /-- [R118] writes to peers not yet acknowledged, and the cycle in which a zero-length read returns -/
  peerOwed : Bool := false
  flushAt : Option Nat := none
  wdStage : Nat := 0
  deriving DecidableEq, Repr

/-- The scratchpad, vector, matrix and crossbar parts of a context image (R360). -/
structure MemberImage where
  core : Nat
  ctx : Ctx
  rows : SMap Wide := []
  /-- which of them hold an uncorrectable error -/
  bad : SMap Bool := []
  tiles : List Tile := []
  vregs : SMap Wide := []
  vEmpty : SMap Bool := []
  vBad : SMap Bool := []
  domains : SMap Power := []
  mx : Option Matrix := none
  xb : Option XBank := none
  deriving DecidableEq, Repr

/-- Job states. -/
inductive JobSt where
  /-- its kernel header is being read: the path -/
  | header (path : Nat)
  /-- waits for placement -/
  | waiting
  /-- placed; the path of its tile map, then that of its entry chunk (R434) -/
  | starting (path : Nat) (entry : Bool)
  | running
  /-- halts at the next bundle boundary (R360) -/
  | halting
  /-- halted; its outstanding work completes -/
  | halted
  /-- its image is being written -/
  | swapping (path : Nat)
  | swapped
  /-- placed again; its image is being read -/
  | restoring (path : Nat)
  | ended
  deriving DecidableEq, Repr

/-- A job (R146): its coach, kernel header and members. -/
structure Job where
  id : Nat := 0
  queue : Nat := 0
  coach : Nat := 0
  gang : Bool := false
  pri : Nat := 0
  part : BitVec 4 := 0
  hdr : BitVec 512 := 0
  prot : Bool := false
  fbk : Bool := false
  args : List Word := []
  pcl : Nat := 15
  ppos : Nat := 15
  st : JobSt := .waiting
  /-- core positions of ranks 0 to GSIZE - 1 (even positions of pairs), and the context number -/
  members : List Nat := []
  ctx : Nat := 0
  placed : Nat := 0
  /-- [R153] next bundle may leave the sequencer from this cycle -/
  nextSend : Nat := 0
  /-- [R211, R228] which holds the bundle to be sent next has passed; [R162] its members wait at a barrier that some have still to reach -/
  castStage : Nat := 0
  atBarrier : Bool := false
  preempt : Option Preemptor := none
  /-- stopped by a fault or a kill (R197) -/
  killed : Bool := false
  /-- [R359] the job whose image it waits for -/
  victim : Option Nat := none
  /-- [R361] a pre-emption was withdrawn for lack of frames, and by whom it was asked -/
  withdrawn : Option Preemptor := none
  /-- [R113] stream clock at issue -/
  clk0 : Nat := 0
  /-- [R113] largest final clock and timestamp of its contexts and copies -/
  clk : Nat := 0
  image : List MemberImage := []
  frames : List Nat := []
  deriving DecidableEq, Repr

/-! ## Firmware, debug and host -/

/-- An event record (R352). -/
structure Event where
  type : Nat
  key : Option Nat := none
  part : BitVec 4 := 0
  time : Nat := 0
  data : BitVec 128 := 0
  deriving DecidableEq, Repr

/-- What a control-space access returned. -/
inductive Response where
  | none
  | ok
  | value (v : Wide)
  /-- the bytes that an inbound read returns (R390, R392) -/
  | bytes (l : List Byte)
  /-- a control-space error, or an access that the part refuses -/
  | error
  /-- an error of a read at a reserved address, which returns a value (R20) -/
  | errorRead (v : Wide)
  /-- an access that has set out: its answer comes with this number once its path is done (R77) -/
  | begun (k : Nat)
  /-- an inbound request completed as unsupported, or with completer abort (R392) -/
  | unsupported
  | abort
  deriving DecidableEq, Repr

/-- The swap engine's command under way (R83). -/
structure SwapJob where
  exchange : Bool
  entA : Nat
  entB : Nat
  newF : Nat
  marked : Bool := false
  due : Nat := 0
  code : Nat := 0
  deriving DecidableEq, Repr

/-- A bias flip under way (R98). -/
structure Flip where
  entry : Nat
  frame : Nat
  toHost : Bool
  /-- 1 draining the entry, 2 marked, 3 waiting -/
  phase : Nat
  due : Nat := 0
  deriving DecidableEq, Repr

/-- The invalidations (R94, R185, R83): one identifier, a tile range, everything, one entry. -/
inductive InvKind where
  | ident (tid : Nat)
  | range (tid first last : Nat)
  | all
  deriving DecidableEq, Repr

/-- Boot states (R401). -/
inductive Boot where
  | selfTest
  | waiting
  | verifying
  | running
  | failed (code : Nat)
  deriving DecidableEq, Repr

/-- What a front-end copy engine does (R174, R175, R186, R187). -/
inductive FeUse where
  /-- zeroing a frame for a siding until the cycle; the siding is 0 to 15 for a partition, 16 + n for cluster n -/
  | zero (frame siding due : Nat)
  deriving DecidableEq, Repr

/-- A stop of the machine. -/
inductive Fault where
  /-- A slot operation is executed alone although no context runs on the core in focus: no bundle can hold it.
  Raised by every slot operation's meaning. Safe: the hardware makes no such step. -/
  | noContext
  /-- A task is executed alone although no stream is in focus. Raised by every task's meaning. Safe, likewise. -/
  | noStream
  /-- The next step's instruction is not well formed, so no encoding of it exists. Raised by the step. Safe. -/
  | illFormed
  deriving DecidableEq, Repr

/-- A refusal: the model gives the instruction no meaning. -/
inductive Refusal where
  /-- The instruction of this mnemonic has no meaning in the model yet. Raised by the arms of exec alone. Safe. -/
  | notModelled (mnemonic : String)
  deriving DecidableEq, Repr

/-- Time and the choice of the next step. -/
structure Clk where
  /-- [R79; 64 bits; 0] FCYC, counted without wrapping -/
  now : Nat := 0
  /-- [R1, R431; 64 bits; 0] timebase at the cycle `tbAt`, and that cycle -/
  tbl : Nat := 0
  tbAt : Nat := 0
  /-- [R394; ; 400 MHz] whether the core clock runs at 1.6 GHz -/
  fast : Bool := false
  /-- [R387; 1 bit; 0] every clock stopped -/
  frozen : Bool := false
  /-- [R400; 1 bit; 0] supplies requested from the board -/
  supplies : Bool := true
  /-- MODEL: steps left in this phase of the cycle, each with the stream it concerns where it is a task -/
  todo : List (Nat × Instr) := []
  /-- MODEL: phases of the cycle still to come: 3 decodes, 2 engines, 1 the end of the cycle, 0 none -/
  phase : Nat := 0
  /-- MODEL: steps due in later cycles -/
  agenda : List (Nat × Instr) := []
  /-- MODEL: what the outside world does, with its cycle -/
  inputs : List (Nat × Instr) := []
  /-- MODEL: draws of free values made so far -/
  free : Nat := 0
  /-- MODEL: core and stream in focus for an operation or task executed alone -/
  fcore : Nat := 0
  fqueue : Nat := 0
  /-- MODEL: identifiers handed out -/
  nextId : Nat := 0
  deriving DecidableEq, Repr

/-- Memory and its versions (R20, R103, R110). -/
structure Coh where
  /-- [R20; device physical bytes; zero] HBM, windows and host aperture -/
  mem : List Host.Cell := []
  /-- [R397] lines written under key material: line number and material -/
  lineKeys : SMap (BitVec 512) := []
  /-- [R370] poisoned lines -/
  poison : SMap Bool := []
  /-- [R103; 2 x 48 bits a line; 0] stamps -/
  stamps : SMap Stamp := []
  /-- [R103; ; none] leased copies -/
  leases : List Lease := []
  /-- [R110; ; none] versions not yet published to all, oldest stamp first -/
  versions : List Version := []
  /-- [R103; 48 bits; 0] logical clocks of application and firmware cores, by agent number -/
  agentClk : SMap Nat := []
  /-- [R121] the cycle of the next advance of the clocks -/
  advAt : Nat := 16
  /-- [R106; 32 bits; 0] EPOCH; rollover requested, its start, and whether the clock event has been posted -/
  epoch : Nat := 0
  rollReq : Option Nat := none
  rollEnd : Option Nat := none
  clkPosted : Bool := false
  deriving DecidableEq, Repr

/-- What an access from outside the clusters does: one word, or the bytes of an inbound request under a key (R101, R392). -/
inductive OutsideOp where
  | word (a : MemOp)
  | bytes (q : Inbound) (key : Nat)
  deriving DecidableEq, Repr

/-- An access of an application or firmware core, or an inbound request, under way (R77, R103). -/
structure Outside where
  id : Nat
  agent : Nat
  part : Nat
  op : OutsideOp
  tick : Option Nat := none
  deriving DecidableEq, Repr

/-- Timetables, translation, migration and the swap engine (R76 to R99). -/
structure Xlate where
  /-- [R76; 256 x 512 bits; fixed positions] live pseudo-channel timetables -/
  htt : SMap (BitVec 512) := []
  hbmCommit : Option Nat := none
  claims : List Claim := []
  /-- [R76, R77; ; none] paths of the accesses under way -/
  tickets : SMap Ticket := []
  /-- [R77, R392; ; none] accesses of application and firmware cores and inbound requests under way, in the order of their arrival -/
  outside : List Outside := []
  /-- [R38; 12,582,912 bits; 0] host-biased frames -/
  bias : SMap Bool := []
  /-- [R84; 168 units] layout units: 2 x core + port, 160 + front-end engine -/
  lunits : SMap LUnit := []
  /-- requests under way, by identifier -/
  reqs : SMap Req := []
  /-- [R96; ; none] drain requests standing, by entry address -/
  drains : List Nat := []
  /-- [R90; 512 places; empty] park table: place to request -/
  park : SMap Nat := []
  /-- [R91; 12 bits; 0] FRTAIL -/
  frTail : Nat := 0
  /-- [R92; 1 bit; 0] REPLAY reads 1 -/
  replay : Bool := false
  /-- [R95; ; none] invalidation under way; [64 bits; 0] INVSEQ -/
  inv : Option InvKind := none
  invseq : Nat := 0
  /-- [R98; ; idle] bias flip, and the failure code of a failed one -/
  flip : Option Flip := none
  flipFail : Nat := 0
  /-- [R82; 12 bits; 0] SWTAIL, SWHEAD; command under way -/
  swTail : Nat := 0
  swHead : Nat := 0
  swap : Option SwapJob := none
  deriving DecidableEq, Repr

/-- Queues, sidings and jobs (R167 to R198, R349 to R365). -/
structure Front where
  /-- [R349; 96 queues] -/
  queues : SMap Queue := []
  /-- [R356; ; empty] remap list, head first -/
  remap : List Nat := []
  /-- [R186; 8,192 wagons; empty until loaded] wagon siding -/
  wagons : List Nat := []
  /-- [R187] reader counts; wagons whose releaser has retired; owners -/
  readers : SMap Nat := []
  released : List Nat := []
  wagonPart : SMap Nat := []
  /-- [R188] the coach that took a wagon -/
  wagonMaker : SMap Nat := []
  /-- [R186; ; empty until loaded] frame sidings: 0 to 15 HBM frames of partitions, 16 + n window frames of clusters -/
  sidings : SMap (List Nat) := []
  /-- [R186] frames that wait to be zeroed: frame, siding -/
  zeroing : List (Nat × Nat) := []
  /-- [R174; 8 engines; idle] front-end copy engines -/
  fes : SMap FeUse := []
  jobs : SMap Job := []
  deriving DecidableEq, Repr

/-- Events, trap records and dumps (R352 to R355, R366 to R375). -/
structure Firm where
  /-- [R354; 1,024 records; empty] event queue, oldest first -/
  events : List Event := []
  /-- [R354] events whose poster waits for room -/
  backlog : List Event := []
  /-- [R354; 12 cores; none] events handed out, by firmware core -/
  taken : SMap Event := []
  /-- [R354] firmware cores that await an event -/
  waiting : List Nat := []
  /-- [R355; 1 bit; 0] FWMODE[0]; stopped pairs -/
  fwmode : Bool := false
  fwStopped : List Nat := []
  /-- [R367; 320 x 512 bits; 0] trap records, by agent -/
  traprecs : SMap TrapRec := []
  /-- [R371; 3 bits; 0] LSCNT by pair -/
  lscnt : SMap Nat := []
  /-- [R375] DUMPTAIL; queue of agents with reasons; dump under way: agent, reason, nested records, due -/
  dumpTail : Nat := 0
  dumpq : List (Nat × Nat) := []
  dump : Option (Nat × Nat × List TrapRec × Nat) := none
  /-- [R375; 1,023 places; empty] on-die area: records and overflow count -/
  ondie : List (BitVec 512) := []
  ondieOver : Nat := 0
  deriving DecidableEq, Repr

/-- The brake van and the debug block (R376 to R388). -/
structure Dbg where
  /-- [R380; ; 0] brake van: EN, STOPPED, STOPON, BVHEAD, BVLOST, merge FIFO, last stamp, drops, clock event owed -/
  bvEn : Bool := false
  bvStopped : Bool := false
  bvStopOn : BitVec 4 := 0
  bvHead : Nat := 0
  bvLost : Nat := 0
  bvFifo : List (BitVec 128) := []
  bvLast : Nat := 0
  bvFirst : Bool := true
  bvDrops : Nat := 0
  bvGap : Option Nat := none
  /-- [R383] records that enter in the tick under way: source, kind, queue and payload -/
  bvNow : List (Nat × Nat × Option Nat × Nat) := []
  /-- [R386; 26 x 32 bits; 0] loop counters, at agent x 7 + level -/
  lpc : SMap (List Nat) := []
  /-- [R378; 1 bit; 0] DSTEP by agent -/
  dstep : SMap Bool := []
  /-- [R378] agents whose debug halt is requested -/
  dhalt : List Nat := []
  deriving DecidableEq, Repr

/-- Boot, keys, temperatures and attestation (R389 to R401). -/
structure HostSec where
  /-- [R373, R394] due cycle of a running self-test or verification -/
  bootDue : Nat := 0
  /-- [R398; 64 x 512 bits; none] key material; VALID bits; revocation under way -/
  keys : SMap (BitVec 512) := []
  kvalid : BitVec 64 := 0
  kclr : Option Nat := none
  /-- [R389; 64 lines; 0] application-core interrupt lines raised -/
  hirq : BitVec 64 := 0
  /-- [R400; 11 x 12 bits; 0] TEMP -/
  temps : SMap (BitVec 12) := []
  /-- [R401, R394; ; self-test] boot state; BOOTCNT; measurement; SVN; firmware SRAM; firmware cores run -/
  boot : Boot := .selfTest
  bootCnt : Nat := 0
  measurement : BitVec 512 := 0
  svn : BitVec 16 := 0
  fwSram : List Byte := []
  fwRun : Bool := false
  /-- [R431; 128 bits; 0] CLKSYNC -/
  clksync : BitVec 128 := 0
  /-- [R396; ; none] attestation under way: the report of the accepting cycle -/
  attest : Option (List Byte) := none
  attestDue : Nat := 0
  /-- [R78; 4 x 16 bits; 0] HBM rows repaired -/
  repaired : SMap (BitVec 16) := []
  /-- [R373; 40 bits a position] BANKPASS -/
  bankPass : SMap (BitVec 40) := []
  deriving DecidableEq, Repr

/-- The part. -/
structure State where
  /-- [R15; 80 cores] -/
  cores : SMap Core := []
  /-- [R9; 10 clusters] -/
  clusters : SMap Cluster := []
  /-- [R24; by offset; see `cregReset`] control registers that a write only stores -/
  creg : SMap (BitVec 512) := []
  /-- [R389; ; none] words written of wide registers whose last word is still to come, by offset -/
  cwords : SMap Word := []
  /-- [R20] what the last control-space or host access returned -/
  resp : Response := .none
  /-- [R77, R392; ; none] answers of this cycle to accesses that had set out, by number -/
  answers : List (Nat × Response) := []
  /-- Time and the choice of the next step. -/
  t : Clk := {}
  /-- Memory and its versions (R20, R103, R110). -/
  c : Coh := {}
  /-- Timetables, translation, migration and the swap engine (R76 to R99). -/
  x : Xlate := {}
  /-- Queues, sidings and jobs (R167 to R198, R349 to R365). -/
  f : Front := {}
  /-- Events, trap records and dumps (R352 to R355, R366 to R375). -/
  w : Firm := {}
  /-- The brake van and the debug block (R376 to R388). -/
  d : Dbg := {}
  /-- Boot, keys, temperatures and attestation (R389 to R401). -/
  h : HostSec := {}
  deriving DecidableEq, Repr

/-- The part right after power-on (R394 steps 1 and 2): the counts at 0, self-test running. -/
def State.reset : State := {}

end Sys2Proof.Machine
end

