-- ==== Sys2Proof/Machine/Flags.lean ====
section
/-! DEFINITION. Floating-point values, the one rounding of an exact result, and the flags each operation raises
(R124 to R131, R281). Every result comes with its six flags of FPSTAT (R128). -/

namespace Sys2Proof.Machine

/-! ## The flags (R128) -/

abbrev Flags := BitVec 6
def fNV : Flags := 1
def fDZ : Flags := 2
def fOF : Flags := 4
def fUF : Flags := 8
def fNX : Flags := 16
def fSAT : Flags := 32

/-- A flag when a condition holds. -/
def flagIf (b : Bool) (f : Flags) : Flags := if b then f else 0

/-! ## Formats and values (R125) -/

/-- The three floating-point formats. -/
inductive Ff where
  | f16
  | b16
  | f32
  deriving DecidableEq, Repr

/-- Exponent bits. -/
def Ff.eb : Ff → Nat
  | .f16 => 5
  | .b16 => 8
  | .f32 => 8
/-- Fraction bits. -/
def Ff.fb : Ff → Nat
  | .f16 => 10
  | .b16 => 7
  | .f32 => 23
/-- Storage width. -/
def Ff.width (f : Ff) : Nat := 1 + f.eb + f.fb
/-- The exponent bias. -/
def Ff.bias (f : Ff) : Nat := 2 ^ (f.eb - 1) - 1
/-- The canonical NaN. -/
def Ff.nan (f : Ff) : Nat := (2 ^ (f.eb + 1) - 1) * 2 ^ (f.fb - 1)
/-- Infinity of a sign. -/
def Ff.inf (f : Ff) (neg : Bool) : Nat := (if neg then 2 ^ (f.eb + f.fb) else 0) + (2 ^ f.eb - 1) * 2 ^ f.fb
/-- The largest finite value of a sign. -/
def Ff.maxFin (f : Ff) (neg : Bool) : Nat := f.inf neg - 1
/-- Zero of a sign. -/
def Ff.zero (f : Ff) (neg : Bool) : Nat := if neg then 2 ^ (f.eb + f.fb) else 0

/-- A floating-point value: a NaN (signalling or not), an infinity, or (-1)^neg x m x 2^e exactly. -/
inductive FV where
  | nan (sig : Bool)
  | inf (neg : Bool)
  | fin (neg : Bool) (m : Nat) (e : Int)
  deriving DecidableEq, Repr

/-- The value of an encoding (R125). -/
def unpack (f : Ff) (b : Nat) : FV :=
  let ex := bitsN b (f.eb + f.fb - 1) f.fb
  let fr := b % 2 ^ f.fb
  let neg := bitN b (f.eb + f.fb)
  if ex = 2 ^ f.eb - 1 then (if fr = 0 then .inf neg else .nan (!bitN b (f.fb - 1)))
  else if ex = 0 then .fin neg fr (1 - (f.bias : Int) - f.fb)
  else .fin neg (fr + 2 ^ f.fb) ((ex : Int) - f.bias - f.fb)

/-- The integer as a value. -/
def FV.ofInt (n : Int) : FV := .fin (n < 0) n.natAbs 0

/-- An encoding with the flags that its making raises. -/
abbrev Res := Nat × Flags

/-- Whether a magnitude that keeps `k` and drops `r` of `2^d` (and, with `st`, a little more) rounds away from zero, by the
rounding mode (R130). -/
def roundsUp (rm : BitVec 2) (neg : Bool) (k r d : Nat) (st : Bool) : Bool :=
  if r = 0 ∧ !st then false
  else match rm.toNat with
    | 0 => let h := 2 ^ d; 2 * r > h || (2 * r = h && (st || k % 2 = 1))
    | 1 => false
    | 2 => !neg
    | _ => neg

/-- A magnitude `m x 2^e` (a little more with `st`) cut to a multiple of `2^q`: the multiple after rounding and whether it
is inexact. Three places below the last bit of `m` every magnitude is below a quarter, so that no more need be dropped. -/
def cutTo (rm : BitVec 2) (neg : Bool) (m : Nat) (e q : Int) (st : Bool) : Nat × Bool :=
  if q ≤ e then (m <<< (e - q).toNat, st)
  else
    let d := min (q - e).toNat (m.log2 + 3)
    let k := m >>> d
    let r := m % 2 ^ d
    (if roundsUp rm neg k r d st then k + 1 else k, r ≠ 0 || st)

/-- The one rounding of an exact magnitude to a format, with OF, UF and NX (R126, R128): `m x 2^e`, and a little more when
`st`. A result is tiny when it is below the least normal magnitude after rounding with the exponent unbounded. -/
def roundMag (f : Ff) (rm : BitVec 2) (neg : Bool) (m : Nat) (e : Int) (st : Bool) : Res :=
  if m = 0 ∧ !st then (f.zero neg, 0)
  else
    let top : Int := e + (m.log2 : Int)
    let emin : Int := 1 - (f.bias : Int)
    let q : Int := (if top < emin then emin else top) - f.fb
    let (k, nx) := cutTo rm neg m e q st
    let tiny := top < emin && (cutTo rm neg m e (top - f.fb) st).1 < 2 ^ (min (emin - (top - f.fb)).toNat (f.fb + 2))
    let (k, q) := if k ≥ 2 ^ (f.fb + 1) then (k / 2, q + 1) else (k, q)
    let s := f.zero neg
    if k ≥ 2 ^ f.fb ∧ q + f.fb > f.bias then
      ((match rm.toNat with
        | 0 => f.inf neg
        | 1 => f.maxFin neg
        | 2 => if neg then f.maxFin neg else f.inf neg
        | _ => if neg then f.inf neg else f.maxFin neg), fOF ||| fNX)
    else if k < 2 ^ f.fb then (s + k, flagIf (nx && tiny) fUF ||| flagIf nx fNX)
    else (s + ((q + f.fb + f.bias).toNat - 1) * 2 ^ f.fb + k, flagIf (nx && tiny) fUF ||| flagIf nx fNX)

/-- Round a value to a format; a NaN becomes canonical, with NV if it signals (R126, R131). -/
def roundFV (f : Ff) (rm : BitVec 2) : FV → Res
  | .nan s => (f.nan, flagIf s fNV)
  | .inf n => (f.inf n, 0)
  | .fin n m e => roundMag f rm n m e false

/-! ## Exact arithmetic (R126) -/

def FV.isSig : FV → Bool
  | .nan s => s
  | _ => false
def FV.isNan : FV → Bool
  | .nan _ => true
  | _ => false
def FV.neg : FV → FV
  | .nan s => .nan s
  | .inf n => .inf !n
  | .fin n m e => .fin (!n) m e

/-- The exact sum; an invalid sum gives a NaN with NV. A zero sum of opposite signs is +0. -/
def fvAdd : FV → FV → FV × Flags
  | .nan s, b => (.nan false, flagIf (s || b.isSig) fNV)
  | .inf _, .nan t => (.nan false, flagIf t fNV)
  | .fin .., .nan t => (.nan false, flagIf t fNV)
  | .inf n, .inf k => if n = k then (.inf n, 0) else (.nan false, fNV)
  | .inf n, .fin .. => (.inf n, 0)
  | .fin .., .inf k => (.inf k, 0)
  | .fin n m e, .fin n' m' e' =>
    let q := min e e'
    let a : Nat := m <<< (e - q).toNat
    let b : Nat := m' <<< (e' - q).toNat
    if n = n' then (.fin n (a + b) q, 0)
    else if a = b then (.fin false 0 q, 0)
    else if a > b then (.fin n (a - b) q, 0) else (.fin n' (b - a) q, 0)

/-- The exact product; 0 x infinity is invalid. -/
def fvMul : FV → FV → FV × Flags
  | .nan s, b => (.nan false, flagIf (s || b.isSig) fNV)
  | .inf _, .nan t => (.nan false, flagIf t fNV)
  | .fin .., .nan t => (.nan false, flagIf t fNV)
  | .inf n, .inf k => (.inf (n != k), 0)
  | .inf n, .fin k m _ => if m = 0 then (.nan false, fNV) else (.inf (n != k), 0)
  | .fin n m _, .inf k => if m = 0 then (.nan false, fNV) else (.inf (n != k), 0)
  | .fin n m e, .fin n' m' e' => (.fin (n != n') (m * m') (e + e'), 0)

/-- Product plus addend exactly; an invalid product raises NV whatever the addend (R126). -/
def fvFma (a b c : FV) : FV × Flags :=
  let (p, f) := fvMul a b
  let (r, g) := fvAdd p c
  (r, f ||| g)

/-- Round an exact result to nearest even, its flags added. -/
def rne (f : Ff) (x : FV × Flags) : Res :=
  let (r, g) := roundFV f 0 x.1
  (r, g ||| x.2)

def fAdd (f : Ff) (a b : Nat) : Res := rne f (fvAdd (unpack f a) (unpack f b))
def fSub (f : Ff) (a b : Nat) : Res := rne f (fvAdd (unpack f a) (unpack f b).neg)
def fMul (f : Ff) (a b : Nat) : Res := rne f (fvMul (unpack f a) (unpack f b))
def fFma (f : Ff) (a b c : Nat) : Res := rne f (fvFma (unpack f a) (unpack f b) (unpack f c))

/-- Order of two values that are no NaN. -/
def fvLt : FV → FV → Bool
  | .nan _, _ => false
  | _, .nan _ => false
  | .inf n, .inf k => n && !k
  | .inf n, .fin .. => n
  | .fin .., .inf k => !k
  | .fin n m e, .fin n' m' e' =>
    let q := min e e'
    let a : Int := (if n then -1 else 1) * ((m <<< (e - q).toNat : Nat) : Int)
    let b : Int := (if n' then -1 else 1) * ((m' <<< (e' - q).toNat : Nat) : Int)
    a < b
/-- Equality of two values that are no NaN; +0 equals -0. -/
def fvEq (a b : FV) : Bool := !a.isNan && !b.isNan && !fvLt a b && !fvLt b a

def FV.sign : FV → Bool
  | .nan _ => false
  | .inf n => n
  | .fin n _ _ => n

/-- Minimum or maximum (R127): a number against a NaN is returned, -0 is below +0, NV only for a signalling NaN. -/
def fMinMax (isMax : Bool) (f : Ff) (a b : Nat) : Res :=
  let x := unpack f a
  let y := unpack f b
  let nv := flagIf (x.isSig || y.isSig) fNV
  if x.isNan ∧ y.isNan then (f.nan, nv)
  else if x.isNan then (b, nv)
  else if y.isNan then (a, nv)
  else
    let less := fvLt x y || (fvEq x y && x.sign && !y.sign)
    ((if less = isMax then b else a), nv)

/-- The comparisons (R127): 0 EQ, 1 NE, 2 LT, 3 LE; others do not occur. -/
def fCompare (cc : Nat) (f : Ff) (a b : Nat) : Bool × Flags :=
  let x := unpack f a
  let y := unpack f b
  let quiet := flagIf (x.isSig || y.isSig) fNV
  let loud := flagIf (x.isNan || y.isNan) fNV
  match cc with
  | 0 => (fvEq x y, quiet)
  | 1 => (!fvEq x y, quiet)
  | 2 => (fvLt x y, loud)
  | _ => (fvLt x y || fvEq x y, loud)

/-! ## Integer rounding and conversion (R130, R131) -/

/-- A finite value rounded to an integer by a mode, and whether that is inexact. -/
def roundInt (rm : BitVec 2) (neg : Bool) (m : Nat) (e : Int) : Int × Bool :=
  let (k, nx) := cutTo rm neg m e 0 false
  ((if neg then -(k : Int) else k), nx)

/-- What a conversion works on (R131): an integer of an integer format or XC4, or the value of a floating-point source,
MXINT8 and Q4 included. -/
inductive Val where
  | int (n : Int)
  | real (v : FV)
  deriving DecidableEq, Repr

/-- Clip to a range. -/
def clip (n lo hi : Int) : Int := if n < lo then lo else if n > hi then hi else n

/-- The conversion to an integer of range `lo` to `hi` (R131). -/
def cvtInt (lo hi : Int) (rm : BitVec 2) : Val → Int × Flags
  | .int n => if n < lo ∨ n > hi then (clip n lo hi, fSAT) else (n, 0)
  | .real (.nan _) => (0, fNV)
  | .real (.inf neg) => ((if neg then lo else hi), fNV)
  | .real (.fin neg m e) =>
    let (n, nx) := roundInt rm neg m e
    if n < lo ∨ n > hi then (clip n lo hi, fNV) else (n, flagIf nx fNX)

/-- The conversion to a floating-point format (R131). -/
def cvtFloat (f : Ff) (rm : BitVec 2) : Val → Res
  | .int n => roundFV f rm (.ofInt n)
  | .real v => roundFV f rm v

/-! ## Correctly rounded functions (R281) -/

/-- The integer square root, two bits at a time from the top: `n` steps over the pairs below `2^(2n)`. -/
def isqrt (x : Nat) : Nat → Nat → Nat
  | 0, r => r
  | n + 1, r => if (r + 2 ^ n) * (r + 2 ^ n) ≤ x then isqrt x n (r + 2 ^ n) else isqrt x n r

/-- The bits of a fixed-point number in the series below. -/
def fixBits : Nat := 256

/-- ln 2 times 2^256, cut. -/
def ln2Fix : Nat := 80260960185991308862233904206310070533990667611589946606122867505419956976171

/-- Terms `t x^i / i!` of the exponential series from the `i`-th on, fixed point, `n` terms. -/
def expTerms (x : Nat) : Nat → Nat → Nat → Nat
  | 0, _, _ => 0
  | n + 1, i, t => t + expTerms x n (i + 1) (t * x / 2 ^ fixBits / (i + 1))

/-- Terms `z^(2i+1) / (2i+1)` of the inverse hyperbolic tangent, fixed point, `n` terms. -/
def atanhTerms (z2 : Nat) : Nat → Nat → Nat → Nat
  | 0, _, _ => 0
  | n + 1, i, t => t / (2 * i + 1) + atanhTerms z2 n (i + 1) (t * z2 / 2 ^ fixBits)

/-- 2^x rounded to FP32. -/
def fExp2 (a : Nat) : Res :=
  match unpack .f32 a with
  | .nan s => (Ff.f32.nan, flagIf s fNV)
  | .inf neg => if neg then (0, 0) else (Ff.f32.inf false, 0)
  | .fin neg m e =>
    if m = 0 then (0x3F800000, 0)
    else if e + (m.log2 : Int) ≥ 9 then
      -- |x| ≥ 512: out of range
      if neg then roundMag .f32 0 false 1 (-600) true else roundMag .f32 0 false 1 600 true
    else
      let p := fixBits
      -- x as fixed point, floor and fraction; an input below 2^-150 does not occur in FP32
      let x : Int := (if neg then -1 else 1) * ((if e + p ≥ 0 then m <<< (e + p).toNat else m >>> (-(e + p)).toNat : Nat) : Int)
      let n := x.fdiv (2 ^ p : Nat)
      let fr := (x.fmod (2 ^ p : Nat)).toNat
      if fr = 0 then roundMag .f32 0 false 1 n false
      else roundMag .f32 0 false (expTerms (fr * ln2Fix / 2 ^ p) 64 0 (2 ^ p)) (n - p) true

/-- log2 x rounded to FP32. -/
def fLog2 (a : Nat) : Res :=
  match unpack .f32 a with
  | .nan s => (Ff.f32.nan, flagIf s fNV)
  | .inf neg => if neg then (Ff.f32.nan, fNV) else (Ff.f32.inf false, 0)
  | .fin neg m e =>
    if m = 0 then (Ff.f32.inf true, fDZ)
    else if neg then (Ff.f32.nan, fNV)
    else
      let l := m.log2
      let k : Int := e + l
      if m = 2 ^ l then roundFV .f32 0 (.ofInt k)
      else
        let p := fixBits
        -- y = m / 2^l in (1, 2); z = (y - 1) / (y + 1)
        let z := (m - 2 ^ l) * 2 ^ p / (m + 2 ^ l)
        let ln := 2 * atanhTerms (z * z / 2 ^ p) 90 0 z
        let v : Int := k * (2 ^ p : Nat) + ((ln * 2 ^ p / ln2Fix : Nat) : Int)
        if v ≥ 0 then roundMag .f32 0 false v.toNat (-(p : Int)) true
        else roundMag .f32 0 true ((-v).toNat - 1) (-(p : Int)) true

/-- 1/x rounded to FP32. -/
def fRcp (a : Nat) : Res :=
  match unpack .f32 a with
  | .nan s => (Ff.f32.nan, flagIf s fNV)
  | .inf neg => (Ff.f32.zero neg, 0)
  | .fin neg m e =>
    if m = 0 then (Ff.f32.inf neg, fDZ)
    else let k := 2 ^ 80; roundMag .f32 0 neg (k / m) (-80 - e) (k % m ≠ 0)

/-- 1/√x rounded to FP32. -/
def fRsq (a : Nat) : Res :=
  match unpack .f32 a with
  | .nan s => (Ff.f32.nan, flagIf s fNV)
  | .inf neg => if neg then (Ff.f32.nan, fNV) else (0, 0)
  | .fin neg m e =>
    if m = 0 then (Ff.f32.inf neg, fDZ)
    else if neg then (Ff.f32.nan, fNV)
    else
      -- x = m' x 2^(2h); 1/√x = √(2^160 / m') x 2^(-80-h)
      let m' := if e % 2 = 0 then m else 2 * m
      let h : Int := e / 2
      let r := isqrt (2 ^ 160 / m') 81 0
      roundMag .f32 0 false r (-80 - h) (r * r * m' ≠ 2 ^ 160)

/-- An exact quotient `num x 2^e / den` rounded to nearest even (R138). -/
def fQuot (f : Ff) (neg : Bool) (num : Nat) (e : Int) (den : Nat) : Res :=
  let k := num * 2 ^ 80
  roundMag f 0 neg (k / den) (e - 80) (k % den ≠ 0)

end Sys2Proof.Machine
end

