-- ==== Sys2Proof/Machine/Formats.lean ====
section
/-! DEFINITION. Format codes, the block formats MXINT8 and Q4, the crossbar code, and reductions (R123, R132 to R144). -/

namespace Sys2Proof.Machine

/-! ## Format codes (R123) -/

/-- Element width in bits of a format code; 0 for a reserved code. -/
def fmtWidth (code : Nat) : Nat :=
  match code with
  | 0 => 8
  | 1 => 16
  | 2 => 32
  | 3 => 64
  | 4 => 8
  | 5 => 16
  | 6 => 16
  | 7 => 32
  | 8 => 8
  | 9 => 4
  | 10 => 4
  | _ => 0

/-- Whether a format code is one of the eleven. -/
def fmtOk (code : Nat) : Bool := code ≤ 10

/-- The floating-point format of a code. -/
def fmtFloat (code : Nat) : Option Ff :=
  match code with
  | 5 => some .f16
  | 6 => some .b16
  | 7 => some .f32
  | _ => none

/-- Two's complement reading of the low `w` bits. -/
def sgn (w n : Nat) : Int := if bitN n (w - 1) then ((n % 2 ^ w : Nat) : Int) - (2 ^ w : Nat) else ((n % 2 ^ w : Nat) : Int)

/-- An integer stored in `w` bits. -/
def wrap (w : Nat) (n : Int) : Nat := (n.emod ((2 ^ w : Nat) : Int)).toNat

/-- The integer range of a code (R123); XC4 by value. -/
def fmtRange (code : Nat) : Int × Int :=
  match code with
  | 0 => (-128, 127)
  | 1 => (-32768, 32767)
  | 2 => (-2147483648, 2147483647)
  | 3 => (-9223372036854775808, 9223372036854775807)
  | 4 => (0, 255)
  | _ => (-8, 7)

/-- The value of one stored element of a format that is no block format (R131). -/
def elemVal (code bits : Nat) : Val :=
  match fmtFloat code with
  | some f => .real (unpack f bits)
  | none =>
    if code = 4 then .int bits
    else if code = 10 then .int ((bits : Int) - 8)
    else .int (sgn (fmtWidth code) bits)

/-- The conversion cvt (R131) to a format that is no block format, as the bits stored. -/
def cvt (code : Nat) (rm : BitVec 2) (v : Val) : Res :=
  match fmtFloat code with
  | some f => cvtFloat f rm v
  | none =>
    let (lo, hi) := fmtRange code
    let (n, fl) := cvtInt lo hi rm v
    if code = 10 then ((n + 8).toNat, fl) else (wrap (fmtWidth code) n, fl)

/-! ## MXINT8 (R132 to R135) -/

/-- The decoded value of element byte `q` under scale `x`. -/
def mxVal (q x : Nat) : FV :=
  if x = 255 then .nan false
  else let n := sgn 8 q; .fin (n < 0) n.natAbs ((x : Int) - 133)

/-- floor(log2) of the largest magnitude, none when all are zero. -/
def topLog : List FV → Option Int
  | [] => none
  | .fin _ m e :: l =>
    if m = 0 then topLog l
    else match topLog l with
      | none => some (e + (m.log2 : Int))
      | some t => some (max t (e + (m.log2 : Int)))
  | _ :: l => topLog l

def FV.isFin : FV → Bool
  | .fin .. => true
  | _ => false

/-- Quantisation of one block (R134): the scale, the element bytes and the flags. -/
def mxQuant (rm : BitVec 2) (vs : List FV) : Nat × List Nat × Flags :=
  if vs.any (fun v => !v.isFin) then (255, vs.map (fun _ => 0), fNV)
  else
    let x : Nat := match topLog vs with
      | none => 0
      | some t => (clip (t + 127) 0 254).toNat
    let one (v : FV) : Nat × Bool := match v with
      | .fin n m e => let (k, nx) := roundInt rm n m (e - (x : Int) + 133); (wrap 8 (clip k (-128) 127), nx)
      | _ => (0, false)
    (x, vs.map (fun v => (one v).1), flagIf (vs.any (fun v => (one v).2)) fNX)

/-! ## Q4 (R136 to R139) -/

/-- The NQ4 levels. -/
def nq4Levels : List Int := [-127, -90, -69, -53, -39, -27, -16, -5, 5, 16, 27, 39, 53, 69, 90, 127]
/-- Twice the FP4 E2M1 values. -/
def fp4Levels : List Int := [0, 1, 2, 3, 4, 6, 8, 12, 0, -1, -2, -3, -4, -6, -8, -12]

/-- The level of a nibble code under a tag (R137). -/
def q4Level (tag code : Nat) : Int :=
  match tag with
  | 0 => nq4Levels.getD code 0
  | 1 => sgn 4 code
  | 2 => fp4Levels.getD code 0
  | _ => 0

/-- The divisor of a tag (R137). -/
def q4Div (tag : Nat) : Nat :=
  match tag with
  | 0 => 127
  | 1 => 7
  | _ => 12

/-- The block scale bs under super-scale bits `sup` (R138), with its flags. -/
def q4Scale (sup s tag : Nat) : Res :=
  if tag = 3 then (0, 0)
  else match unpack .f32 sup with
    | .nan sg => (Ff.f32.nan, flagIf sg fNV)
    | .inf n => if s = 0 then (Ff.f32.nan, fNV) else (Ff.f32.inf n, 0)
    | .fin n m e => fQuot .f32 n (m * s) e (255 * q4Div tag)

/-- The decoded value of an element of level `l` under block scale bits `bs` (R139): the exact product. -/
def q4Val (bs : Nat) (l : Int) : FV × Flags := fvMul (unpack .f32 bs) (.ofInt l)

/-! ## Reductions (R144) -/

/-- Combine neighbours. -/
def pairUp {α : Type} (f : α → α → α) : List α → List α
  | a :: b :: l => f a b :: pairUp f l
  | l => l

/-- The pairwise tree over 2^n leaves. -/
def treeFold {α : Type} (f : α → α → α) : Nat → List α → List α
  | 0, l => l
  | n + 1, l => treeFold f n (pairUp f l)

end Sys2Proof.Machine
end

