-- ==== Sys2Proof/Machine/Ops.lean ====
section
/-! DEFINITION. Named operations over the state: sparse tables, memory bytes, registers, results on their way, events,
brake-van records and taking a trap. -/

namespace Sys2Proof.Machine

/-! ## Sparse tables -/

/-- The value at a key, or the default. -/
def smGet {β : Type} (d : β) : SMap β → Nat → β
  | [], _ => d
  | (k, v) :: m, j => if k = j then v else smGet d m j

/-- Put a value at a key. -/
def smPut {β : Type} : SMap β → Nat → β → SMap β
  | [], j, w => [(j, w)]
  | (k, v) :: m, j, w =>
    if j < k then (j, w) :: (k, v) :: m else if k = j then (j, w) :: m else (k, v) :: smPut m j w

/-- Remove a key. -/
def smDel {β : Type} (m : SMap β) (j : Nat) : SMap β := m.filter (fun p => p.1 ≠ j)

/-- Change every value of a table. -/
def smMap {β γ : Type} (f : Nat → β → γ) (m : SMap β) : SMap γ := m.map (fun p => (p.1, f p.1 p.2))

/-- Put a value at a key of a table in canonical form: the default is not listed. -/
def cmPut {β : Type} [DecidableEq β] (d : β) (m : SMap β) (j : Nat) (w : β) : SMap β :=
  if w = d then smDel m j else smPut m j w

/-- The canonical form of a table: keys strictly rising, no entry equal to the default. -/
def cmWf {β : Type} [DecidableEq β] (d : β) : SMap β → Bool
  | [] => true
  | [(_, v)] => v ≠ d
  | (k, v) :: (k', v') :: m => v ≠ d && k < k' && cmWf d ((k', v') :: m)

/-- The canonical form of memory (R20): what an unlisted byte reads as is zero. -/
abbrev Memory.wf (m : List Host.Cell) : Bool := cmWf (0 : BitVec 8) m

/-! ## Memory bytes -/

/-- The byte at a device physical address; bytes nothing has written read zero. -/
def rdByte (m : List Host.Cell) (a : Nat) : Byte := smGet 0 m a

/-- Store one byte. -/
def wrByte (m : List Host.Cell) (a : Nat) (b : Byte) : List Host.Cell := cmPut 0 m a b

/-- `n` bytes from `a`, little-endian (R2). -/
def rdNat (m : List Host.Cell) (a : Nat) : Nat → Nat
  | 0 => 0
  | n + 1 => (rdByte m a).toNat + 256 * rdNat m (a + 1) n

/-- Store the low `n` bytes of `v` at `a`, little-endian (R2). -/
def wrNat (m : List Host.Cell) (a v : Nat) : Nat → List Host.Cell
  | 0 => m
  | n + 1 => wrNat (wrByte m a (BitVec.ofNat 8 v)) (a + 1) (v / 256) n

/-- Store a list of bytes from `a`. -/
def wrList (m : List Host.Cell) (a : Nat) : List Byte → List Host.Cell
  | [] => m
  | b :: bs => wrList (wrByte m a b) (a + 1) bs

/-- Remove every byte of a range: it then reads zero. -/
def clearRange (m : List Host.Cell) (a n : Nat) : List Host.Cell := m.filter (fun p => p.1 < a || a + n ≤ p.1)

/-- Byte `i` of a 256-B quantity. -/
def wByte (w : Wide) (i : Nat) : Byte := w.extractLsb' (8 * i) 8

/-- The 256-B quantity of a byte function. -/
def wOfBytes (f : Nat → Nat) : Wide :=
  BitVec.ofNat 2048 ((List.range 256).foldr (fun i acc => f i % 256 + 256 * acc) 0)

/-- Replace bytes `o` to `o + n - 1` of a 256-B quantity by the low bytes of `v`. -/
def wSplice (w : Wide) (o n v : Nat) : Wide :=
  let m := BitVec.ofNat 2048 ((2 ^ (8 * n) - 1) <<< (8 * o))
  (w &&& ~~~m) ||| (BitVec.ofNat 2048 (v <<< (8 * o)) &&& m)

/-! ## Cores and contexts -/

def getCore (s : State) (c : Nat) : Core := smGet {} s.cores c
def setCore (s : State) (c : Nat) (k : Core) : State := { s with cores := smPut s.cores c k }
def modCore (s : State) (c : Nat) (f : Core → Core) : State := setCore s c (f (getCore s c))

def ctxOf (k : Core) (x : Nat) : Ctx := smGet {} k.ctxs x
def putCtx (k : Core) (x : Nat) (v : Ctx) : Core := { k with ctxs := smPut k.ctxs x v }
def getCtx (s : State) (c x : Nat) : Ctx := ctxOf (getCore s c) x
def setCtx (s : State) (c x : Nat) (v : Ctx) : State := modCore s c (fun k => putCtx k x v)
def modCtx (s : State) (c x : Nat) (f : Ctx → Ctx) : State := setCtx s c x (f (getCtx s c x))
/-- Change the registers of a context. -/
def modRegs (s : State) (c x : Nat) (f : Regs → Regs) : State := modCtx s c x (fun v => { v with r := f v.r })

def getCl (s : State) (n : Nat) : Cluster := smGet {} s.clusters n
def setCl (s : State) (n : Nat) (v : Cluster) : State := { s with clusters := smPut s.clusters n v }
def modCl (s : State) (n : Nat) (f : Cluster → Cluster) : State := setCl s n (f (getCl s n))

def getQ (s : State) (n : Nat) : Queue := smGet {} s.f.queues n
def setQ (s : State) (n : Nat) (v : Queue) : State := { s with f := { s.f with queues := smPut s.f.queues n v } }
def modQ (s : State) (n : Nat) (f : Queue → Queue) : State := setQ s n (f (getQ s n))

def getJob (s : State) (n : Nat) : Job := smGet {} s.f.jobs n
/-- The cores of a job: both of each pair where it is protected. -/
def jobCores (j : Job) : List Nat := if j.prot then j.members.flatMap (fun m => [m, m + 1]) else j.members
def setJob (s : State) (n : Nat) (v : Job) : State := { s with f := { s.f with jobs := smPut s.f.jobs n v } }
def modJob (s : State) (n : Nat) (f : Job → Job) : State := setJob s n (f (getJob s n))

def getReq (s : State) (n : Nat) : Req := smGet {} s.x.reqs n
def setReq (s : State) (n : Nat) (v : Req) : State := { s with x := { s.x with reqs := smPut s.x.reqs n v } }
def modReq (s : State) (n : Nat) (f : Req → Req) : State := setReq s n (f (getReq s n))
/-- Requests under way that `f` picks. -/
def reqsOf (s : State) (f : Req → Bool) : List Nat := (s.x.reqs.filter (fun p => f p.2)).map (·.1)
def dropReq (s : State) (n : Nat) : State := { s with x := { s.x with reqs := smDel s.x.reqs n } }

def getUnit (s : State) (n : Nat) : LUnit := smGet {} s.x.lunits n
def setUnit (s : State) (n : Nat) (v : LUnit) : State := { s with x := { s.x with lunits := smPut s.x.lunits n v } }
def modUnit (s : State) (n : Nat) (f : LUnit → LUnit) : State := setUnit s n (f (getUnit s n))

/-- The agent number of a context (R100). -/
def agentOf (c x : Nat) : Nat := 4 * c + x
/-- The cluster of a core (R10). -/
def clusterOf (c : Nat) : Nat := c / 8

/-! ## Time, free values and steps to come -/

/-- The timebase in a cycle (R431): five ticks in eight cycles at 1.6 GHz, five in two at 400 MHz. -/
def timebase (s : State) : Nat := s.t.tbl + 5 * (s.t.now - s.t.tbAt) / (if s.t.fast then 8 else 2)

/-- Put a step on the agenda for the cycle `due`. -/
def schedule (s : State) (due : Nat) (i : Instr) : State := { s with t := { s.t with agenda := (due, i) :: s.t.agenda } }

/-- Draw a fresh free value's number. -/
def draw (s : State) : Nat × State := (s.t.free, { s with t := { s.t with free := s.t.free + 1 } })

/-- Hand out an identifier. -/
def newId (s : State) : Nat × State := (s.t.nextId, { s with t := { s.t with nextId := s.t.nextId + 1 } })

/-- The part's answer to a control-space access. -/
def respond (s : State) (r : Response) : State := { s with resp := r }

/-! ## Control registers that a write only stores (R24)

Offsets are from the start of control space. -/

/-- A timetable of 64 equal owner bytes. -/
def tblOf (b : Nat) : BitVec 512 := BitVec.ofNat 512 ((List.range 64).foldr (fun _ acc => b + 256 * acc) 0)

/-- A pseudo-channel timetable with nothing assigned: positions 0 and 32 to refresh, the others to nobody (R78). -/
def httReset : BitVec 512 :=
  BitVec.ofNat 512 ((List.range 64).foldr (fun i acc => (if i = 0 ∨ i = 32 then 0x10 else 0x1F) + 256 * acc) 0)

/-- The value of a control register before any write. -/
def cregReset (off : Nat) : BitVec 512 :=
  if off = 0x20F060 then 8 else if off = 0x20F068 then 16 else if off = 0x10A000 then 250000
  else if off = 0x1480 then BitVec.ofNat 512 (720 + 800 * 2 ^ 12 + 880 * 2 ^ 24)
  else if 0x10000 ≤ off ∧ off < 0xB0000 ∧ off % 0x10000 = 0x30 then 32
  else if 0x10000 ≤ off ∧ off < 0xB0000 ∧ 0x400 ≤ off % 0x10000 ∧ off % 0x10000 < 0x600 then tblOf 0x1F
  else if 0x304000 ≤ off ∧ off < 0x308000 then httReset
  else 0

/-- A control register. -/
def creg (s : State) (off : Nat) : BitVec 512 := smGet (cregReset off) s.creg off
/-- Store a control register. -/
def setCreg (s : State) (off : Nat) (v : BitVec 512) : State := { s with creg := smPut s.creg off v }
/-- A field of a control register. -/
def cfield (s : State) (off hi lo : Nat) : Nat := bitsN (creg s off).toNat hi lo

/-- The byte address of the control space (R20). -/
def controlBase : Nat := 0xE000000000000
/-- The queue register block of queue `q` (R349). -/
def queueReg (q r : Nat) : Nat := 0x100000 + 0x100 * q + r

/-! ## Registers of a context -/

/-- An s register; s0 reads as zero (R199). -/
def readS (r : Regs) (n : Nat) : Word := if n = 0 then 0 else smGet 0 r.sregs n
/-- Write an s register, full; a write to s0 is discarded (R199). -/
def writeS (r : Regs) (n : Nat) (v : Word) : Regs :=
  if n = 0 then r else { r with sregs := smPut r.sregs n v, sEmpty := r.sEmpty &&& ~~~(1#64 <<< n) }
/-- Whether an s register is empty; s0 is always full (R199). -/
def emptyS (r : Regs) (n : Nat) : Bool := n ≠ 0 && r.sEmpty.getLsbD n

/-- A predicate; P0 reads true (R199). -/
def readP (r : Regs) (n : Nat) : Bool := n = 0 || r.preds.getLsbD n
/-- Write a predicate; a write to P0 is discarded (R199). -/
def writeP (r : Regs) (n : Nat) (b : Bool) : Regs :=
  if n = 0 then r
  else { r with preds := if b then r.preds ||| (1#16 <<< n) else r.preds &&& ~~~(1#16 <<< n) }

/-- The place of an address register in its table: a file then b file. -/
def aIdx (file : Bool) (n : Nat) : Nat := if file then 16 + n else n
def readA (r : Regs) (file : Bool) (n : Nat) : Word := smGet 0 r.aregs (aIdx file n)
def writeA (r : Regs) (file : Bool) (n : Nat) (v : Word) : Regs :=
  { r with aregs := smPut r.aregs (aIdx file n) v, aEmpty := r.aEmpty &&& ~~~(1#32 <<< aIdx file n) }
def emptyA (r : Regs) (file : Bool) (n : Nat) : Bool := r.aEmpty.getLsbD (aIdx file n)
def strideOf (r : Regs) (file : Bool) (n : Nat) : BitVec 12 := smGet 0 r.strides (aIdx file n)

/-- The place of a lane mask: k then j. -/
def kIdx (file : Bool) (n : Nat) : Nat := if file then 8 + n else n
def readK (r : Regs) (file : Bool) (n : Nat) : Word := smGet 0 r.masks (kIdx file n)
def writeK (r : Regs) (file : Bool) (n : Nat) (v : Word) : Regs :=
  { r with masks := smPut r.masks (kIdx file n) v, mEmpty := r.mEmpty &&& ~~~(1#16 <<< kIdx file n) }
def emptyK (r : Regs) (file : Bool) (n : Nat) : Bool := r.mEmpty.getLsbD (kIdx file n)

def readC (r : Regs) (n : Nat) : BitVec 16 := smGet 0 r.ctrs n
def writeC (r : Regs) (n : Nat) (v : BitVec 16) : Regs := { r with ctrs := smPut r.ctrs n v }

/-- The frame base of a file (R34). -/
def vfb (r : Regs) (file : Bool) : BitVec 12 := if file then r.vfby else r.vfbx
/-- The absolute index that a vector register name reaches (R34). -/
def vAbs (r : Regs) (file : Bool) (n : Nat) : Nat := ((vfb r file).toNat + n) % 4096
/-- The place of a vector register in its table. -/
def vIdx (file : Bool) (abs : Nat) : Nat := (if file then 4096 else 0) + abs
def readV (k : Core) (file : Bool) (abs : Nat) : Wide := smGet 0 k.vf.vregs (vIdx file abs)
def writeV (k : Core) (file : Bool) (abs : Nat) (v : Wide) : Core :=
  { k with vf := { k.vf with vregs := cmPut 0 k.vf.vregs (vIdx file abs) v, vEmpty := smDel k.vf.vEmpty (vIdx file abs), vBad := smDel k.vf.vBad (vIdx file abs) } }
def emptyV (k : Core) (file : Bool) (abs : Nat) : Bool := smGet false k.vf.vEmpty (vIdx file abs)

/-- The special register of a flag set with flags added: sticky (R128). -/
def raise (r : Regs) (f : BitVec 6) : Regs := { r with fpstat := r.fpstat ||| f }

/-! ## Results (R203, R205, R307) -/

/-- Mark a destination empty (R203). -/
def markEmpty (k : Core) (x : Nat) : Dst → Core
  | .s n => if n = 0 then k else putCtx k x { ctxOf k x with r := { (ctxOf k x).r with sEmpty := (ctxOf k x).r.sEmpty ||| (1#64 <<< n) } }
  | .v f a => { k with vf := { k.vf with vEmpty := smPut k.vf.vEmpty (vIdx f a) true } }
  | .k f n => putCtx k x { ctxOf k x with r := { (ctxOf k x).r with mEmpty := (ctxOf k x).r.mEmpty ||| (1#16 <<< kIdx f n) } }
  | .a f n => putCtx k x { ctxOf k x with r := { (ctxOf k x).r with aEmpty := (ctxOf k x).r.aEmpty ||| (1#32 <<< aIdx f n) } }
  | .vtest .. => k
  | .squashed => k

/-- Write a destination and mark it full. -/
def putDst (k : Core) (x : Nat) (d : Dst) (v : Wide) : Core :=
  match d with
  | .s n => putCtx k x { ctxOf k x with r := writeS (ctxOf k x).r n (v.setWidth 64) }
  | .v f a => writeV k f a v
  | .k f n => putCtx k x { ctxOf k x with r := writeK (ctxOf k x).r f n (v.setWidth 64) }
  | .a f n => putCtx k x { ctxOf k x with r := writeA (ctxOf k x).r f n (v.setWidth 64) }
  | .vtest pd pe c m =>
    let r := (ctxOf k x).r
    let r := writeP (writeP (writeP r pd.toNat (c > 0)) (pd ^^^ 1).toNat (c = 0)) pe.toNat (c = m)
    putCtx k x { ctxOf k x with r := { r with vcount := c } }
  | .squashed => k

/-- Mark a destination full with its current content (R160 step 2, R205). -/
def markFull (k : Core) (x : Nat) : Dst → Core
  | .s n => putCtx k x { ctxOf k x with r := { (ctxOf k x).r with sEmpty := (ctxOf k x).r.sEmpty &&& ~~~(1#64 <<< n) } }
  | .v f a => { k with vf := { k.vf with vEmpty := smDel k.vf.vEmpty (vIdx f a) } }
  | .k f n => putCtx k x { ctxOf k x with r := { (ctxOf k x).r with mEmpty := (ctxOf k x).r.mEmpty &&& ~~~(1#16 <<< kIdx f n) } }
  | .a f n => putCtx k x { ctxOf k x with r := { (ctxOf k x).r with aEmpty := (ctxOf k x).r.aEmpty &&& ~~~(1#32 <<< aIdx f n) } }
  | .vtest .. => k
  | .squashed => k

/-- Squash the older producers of a destination (R205). -/
def squash (d : Dst) (l : List Landing) : List Landing :=
  match d with
  | .vtest .. => l
  | .squashed => l
  | d => l.map (fun p => if p.dst = d then { p with dst := .squashed } else p)

/-- Issue a write of latency `lat` (R203): at once at the end of the cycle when `lat` is 1, else on its way. -/
def postResult (s : State) (c x lat : Nat) (d : Dst) (v : Wide) (fl : BitVec 6 := 0) (load : Bool := false)
    (ue : Option (Nat × Nat × Nat) := none) : State :=
  let s1 := modCtx s c x (fun k => { k with landings := squash d k.landings })
  if lat ≤ 1 then
    modCore s1 c (fun k => let k := putDst k x d v; putCtx k x { ctxOf k x with r := raise (ctxOf k x).r fl })
  else
    let (i, s2) := newId s1
    let due := s.t.now + lat - 1
    let s3 := modCore s2 c (fun k =>
      let k := markEmpty k x d
      let v0 := ctxOf k x
      putCtx k x { v0 with
        landings := v0.landings ++ [{ id := i, due, dst := d, val := v, flags := fl, load, ue }]
        r := { v0.r with olcnt := v0.r.olcnt + (if load then 1 else 0) } })
    schedule s3 due (.registerResultLanding c x i)

/-- Issue a write whose latency a path decides: the register stays empty until the request `q` answers (R203). -/
def postPending (s : State) (c x : Nat) (d : Dst) (q : Nat) : State :=
  let (i, s2) := newId (modCtx s c x (fun k => { k with landings := squash d k.landings }))
  modCore s2 c (fun k =>
    let k := markEmpty k x d
    let v0 := ctxOf k x
    putCtx k x { v0 with landings := v0.landings ++ [{ id := i, dst := d, req := some q }] })

/-! ## Brake van (R380 to R384) -/

/-- A record's bits (R381). -/
def bvBits (kind queue delta : Nat) (payload : Nat) : BitVec 128 :=
  BitVec.ofNat 128 (kind + queue * 2 ^ 5 + delta * 2 ^ 12 + payload * 2 ^ 32)

/-- Put one finished record into the merge FIFO. -/
def bvPush (s : State) (b : BitVec 128) : State :=
  { s with d := { s.d with bvFifo := s.d.bvFifo ++ [b] } }

/-- A TIME record's bits (R382): timebase, GAP and reason in the payload. -/
def bvTime (tb : Nat) (gap : Bool) (reason : Nat) : BitVec 128 :=
  bvBits 0 127 0 (tb % 2 ^ 64 + (if gap then 2 ^ 64 else 0) + reason * 2 ^ 65)

/-- The source of a record: a core's agent, or the front end after all of them (R383). -/
def bvSource (kind payload : Nat) : Nat := if kind = 7 ∨ kind = 8 ∨ kind = 9 then min (payload % 512) 320 else 320

/-- A record enters the brake van, if it takes any (R380). -/
def bvRecord (s : State) (kind : Nat) (queue : Option Nat) (payload : Nat) : State :=
  if !s.d.bvEn || s.d.bvStopped then s
  else { s with d := { s.d with bvNow := s.d.bvNow ++ [(bvSource kind payload, kind, queue, payload)] } }

/-- A record of the present tick goes to the merge FIFO: stamped, preceded by TIME and LOST records, or dropped (R383, R384). -/
def bvEnter (s : State) (kind : Nat) (queue : Option Nat) (payload : Nat) : State :=
  if s.d.bvFifo.length ≥ 4096 then { s with d := { s.d with bvDrops := s.d.bvDrops + 1, bvLost := s.d.bvLost + 1 } }
  else
    let now := timebase s
    let gap := s.d.bvGap
    let time := match gap with
      | some r => [bvTime now true r]
      | none => if s.d.bvFirst then [bvTime now false 0] else if now - s.d.bvLast ≥ 2 ^ 20 then [bvTime now false 1] else []
    let delta := if time = [] then now - s.d.bvLast else 0
    let lost := if s.d.bvDrops = 0 then [] else [bvBits 12 127 delta (min s.d.bvDrops (2 ^ 32 - 1))]
    let delta := if lost = [] then delta else 0
    { s with d := { s.d with
      bvFifo := s.d.bvFifo ++ time ++ lost ++ [bvBits kind (queue.getD 127) delta payload]
      bvLast := now, bvFirst := false, bvGap := none, bvDrops := 0 } }

/-- The records of a tick in the order of their sources, those of one source as they came (R383). -/
def bySource : List (Nat × Nat × Option Nat × Nat) → List (Nat × Nat × Option Nat × Nat)
  | [] => []
  | r :: l => put r (bySource l)
where
  /-- before the first of a later or equal source -/
  put (r : Nat × Nat × Option Nat × Nat) : List (Nat × Nat × Option Nat × Nat) → List (Nat × Nat × Option Nat × Nat)
    | [] => [r]
    | q :: l => if r.1 ≤ q.1 then r :: q :: l else q :: put r l

/-- The tick is over, or the clocks or the brake van change: what has entered in it goes to the merge FIFO. -/
def bvSettle (s : State) : State :=
  (bySource s.d.bvNow).foldl (fun s r => bvEnter s r.2.1 r.2.2.1 r.2.2.2) { s with d := { s.d with bvNow := [] } }

/-- An event of STOPON's kind `b` stops the brake van (R380). -/
def bvStopOnEvent (s : State) (b : Nat) : State :=
  if s.d.bvStopOn.getLsbD b && s.d.bvEn then { s with d := { s.d with bvStopped := true } } else s

/-! ## Firmware events (R352 to R354) -/

/-- Post an event, or leave it with its poster until the queue has room (R354). -/
def postEvent (s : State) (type : Nat) (key : Option Nat) (part : BitVec 4) (data : Nat) : State :=
  let e : Event := { type, key, part, time := timebase s, data := BitVec.ofNat 128 data }
  if s.w.events.length < 1024 ∧ s.w.backlog = [] then { s with w := { s.w with events := s.w.events ++ [e] } }
  else { s with w := { s.w with backlog := s.w.backlog ++ [e] } }

/-- Whether the event queue takes another record. -/
def eventRoom (s : State) : Bool := s.w.events.length < 1024 && s.w.backlog.isEmpty

/-- The queue whose stream placed a context's job (R353). -/
def queueOf (s : State) (v : Ctx) : Option Nat := v.j.job.map (fun j => (getJob s j).queue)

/-! ## Taking a trap (R366 to R369) -/

/-- The contexts of a job: core positions with the context number, odd partners of pairs left out (R146). -/
def membersOf (s : State) (c x : Nat) : List Nat :=
  match (getCtx s c x).j.job with
  | some j => (getJob s j).members
  | none => [c]

/-- Stop one context with a trap record (R367): the record is written to the agent's place, DONEMASK and the record show
what was done, the context is neither running nor ready (R369). -/
def stopWithTrap (s : State) (c x cls cause slot detail origin : Nat) (baddr : BitVec 32) (done : BitVec 8) : State :=
  let v := getCtx s c x
  let rec_ : TrapRec := { cls, cause, slot, done, rank := v.j.rank, prot := v.j.prot, origin, baddr, detail,
                          time := timebase s, seq := (v.seq + 1) % 2 ^ 16 }
  let s := setCtx s c x { v with status := .trapped, trap := some rec_, seq := (v.seq + 1) % 2 ^ 16,
                                 r := { v.r with donemask := done, pc := baddr }, heldUntil := none, heldGrps := [], resumed := false }
  let s := modCore s c (fun k => if k.running = some x then { k with running := none, lastCtx := x, nextIssue := s.t.now + 1 } else k)
  { s with w := { s.w with traprecs := smPut s.w.traprecs (agentOf c x) rec_ } }

/-- A context stops with a trap, or does so once it has issued what its gang's sequencer had sent it (R155). -/
def stopLater (s : State) (c x : Nat) (t : StopTrap) (baddr : BitVec 32) (done : BitVec 8) : State :=
  if (getCtx s c x).cast = [] then stopWithTrap s c x t.cls t.cause t.slot t.detail t.origin baddr done
  else modCtx s c x (fun v => { v with stopWith := some t })

/-- The other members of a gang that a trap stops: not those that have ended or stand trapped. -/
def siblings (s : State) (c x : Nat) : List Nat :=
  (membersOf s c x).filter (fun m => m ≠ c && (match (getCtx s m x).status with
    | .trapped => false
    | .ended => false
    | .free => false
    | _ => true))

/-- Take a trap of a context: its own record, sibling records on the other members of its gang (R155), one event of
TYPE 11 and one brake-van record (R367, R382). `own` lists members that raise a trap of their own at the same bundle: core, class,
sub-cause, slot and detail; `sibDone` is what a sibling has done of the bundle. -/
def takeTrap (s : State) (c x cls cause slot detail : Nat) (baddr : BitVec 32) (done : BitVec 8 := 0)
    (own : List (Nat × Nat × Nat × Nat × Nat) := []) (sibDone : Nat → BitVec 8 := fun _ => 0) : State :=
  let v := getCtx s c x
  let s1 := stopLater s c x { cls, cause, slot, detail, origin := 0 } baddr done
  let s2 := (siblings s c x).foldl (fun s m => match own.find? (fun p => p.1 = m) with
    | some (_, cls', cause', slot', detail') =>
      stopLater s m x { cls := cls', cause := cause', slot := slot', detail := detail', origin := 0 } (getCtx s m x).r.pc (sibDone m)
    | none => stopLater s m x { cls := 9, cause := cls, slot := 255, detail := 0, origin := v.j.rank } (getCtx s m x).r.pc (sibDone m)) s1
  let s3 := bvRecord s2 7 (queueOf s v)
    (agentOf c x + cls * 2 ^ 16 + cause * 2 ^ 24 + baddr.toNat * 2 ^ 32 + (min slot 7) * 2 ^ 64)
  let s4 := bvStopOnEvent s3 1
  postEvent s4 11 (queueOf s v) v.j.part (Config.eventData 11 [agentOf c x, cls, cause]).toNat

/-- Return from a trap by TACT resume (R369): the context decodes the bundle at BADDR again, the slots of DONEMASK as NOP. -/
def returnFromTrap (s : State) (c x : Nat) (step : Bool) : State :=
  let v := getCtx s c x
  if v.status = .trapped then
    setCtx s c x { v with status := .ready, trap := none, resumed := true, stepping := step }
  else s

end Sys2Proof.Machine
end

