-- ==== Sys2Proof/Machine/Operands.lean ====
section
/-! DEFINITION. Operand forms of the slot operations: immediates, elements and lanes of vector registers, scratchpad
addresses and box quads (R200, R217 to R219, R266). -/

namespace Sys2Proof.Machine

/-! ## Immediates -/

/-- A sign-extended 6-bit immediate (R241, R243). -/
def imm6s (i : BitVec 6) : Word := i.signExtend 64
/-- A zero-extended 6-bit immediate. -/
def imm6u (i : BitVec 6) : Word := i.setWidth 64
/-- A bundle address displaced by a signed 18-bit offset (R251). -/
def offTarget (b : BitVec 32) (off : BitVec 18) : BitVec 32 := b + off.signExtend 32

/-! ## Element types (R219, R266) -/

/-- An element type of the vector slots. -/
inductive ElTy where
  | i (w : Nat)
  | n (w : Nat)
  | f (t : Ff)
  deriving DecidableEq, Repr

/-- The element width. -/
def ElTy.width : ElTy → Nat
  | .i w => w
  | .n w => w
  | .f t => t.width

/-- The full set of TY (R219). -/
def tyFull (code : Nat) : Option ElTy :=
  match code with
  | 0 => some (.i 8)
  | 1 => some (.i 16)
  | 2 => some (.i 32)
  | 3 => some (.n 8)
  | 4 => some (.n 16)
  | 5 => some (.n 32)
  | 6 => some (.f .f16)
  | 7 => some (.f .b16)
  | 8 => some (.f .f32)
  | _ => none

/-- The class codes of VCVT (R219). -/
def tyClass (code : Nat) : ElTy :=
  match code with
  | 0 => .i 8
  | 1 => .i 16
  | 2 => .i 32
  | 3 => .n 8
  | 4 => .n 16
  | 5 => .f .f16
  | 6 => .f .b16
  | _ => .f .f32

/-- Elements of a 256-B register. -/
def elCount (w : Nat) : Nat := 2048 / w
/-- The lane of an element (R266). -/
def laneOf (w e : Nat) : Nat := e * w / 32
/-- Element `e` of width `w` as a plain number. -/
def el (w : Nat) (v : Wide) (e : Nat) : Nat := (v.toNat >>> (w * e)) % 2 ^ w

/-- An element's integer value: signed for `.i`, plain for `.n` (R266). -/
def elInt (t : ElTy) (bits : Nat) : Int :=
  match t with
  | .i w => sgn w bits
  | .n _ => bits
  | .f t => sgn t.width bits

/-- An element's value as a source of a conversion (R131). -/
def elVal (t : ElTy) (bits : Nat) : Val :=
  match t with
  | .i w => .int (sgn w bits)
  | .n _ => .int bits
  | .f t => .real (unpack t bits)

/-- A conversion into an element type (R131). -/
def cvtEl (t : ElTy) (rm : BitVec 2) (v : Val) : Res :=
  match t with
  | .i w => let (n, fl) := cvtInt (-((2 ^ (w - 1) : Nat) : Int)) (((2 ^ (w - 1) : Nat) : Int) - 1) rm v; (wrap w n, fl)
  | .n w => let (n, fl) := cvtInt 0 (((2 ^ w : Nat) : Int) - 1) rm v; (wrap w n, fl)
  | .f t => cvtFloat t rm v

/-- `k` elements from element `e` on: those of held lanes from `old`, the others from `f`, with the flags of the active
lanes (R267). -/
def elemsFrom (w : Nat) (hold : Word) (old : Wide) (f : Nat → Res) : Nat → Nat → Res
  | 0, _ => (0, 0)
  | k + 1, e =>
    let (r, fl) := elemsFrom w hold old f k (e + 1)
    if hold.getLsbD (laneOf w e) then (el w old e + 2 ^ w * r, fl)
    else let (b, g) := f e; (b % 2 ^ w + 2 ^ w * r, fl ||| g)

/-- A register made element by element under the hold mask (R267). -/
def mapEls (w : Nat) (hold : Word) (old : Wide) (f : Nat → Res) : Wide × Flags :=
  let (r, fl) := elemsFrom w hold old f (elCount w) 0
  (BitVec.ofNat 2048 r, fl)

/-- One bit for each lane of which `f` holds, from lane `l` on, `k` lanes. -/
def lanesFrom (f : Nat → Bool) : Nat → Nat → Nat
  | 0, _ => 0
  | k + 1, l => (if f l then 1 else 0) + 2 * lanesFrom f k (l + 1)

/-- A lane mask from a condition on lanes. -/
def lanesOf (f : Nat → Bool) : Word := BitVec.ofNat 64 (lanesFrom f 64 0)

/-- 2,048 bits, 32 for each bit of a lane mask. -/
def laneBits (k : Word) : Wide :=
  BitVec.ofNat 2048 ((List.range 64).foldr (fun l acc => (if k.getLsbD l then 2 ^ 32 - 1 else 0) + 2 ^ 32 * acc) 0)

/-- Whole lanes of `new` where the hold mask is 0, of `old` where it is 1 (R267). -/
def mergeLanes (hold : Word) (old new : Wide) : Wide :=
  let m := laneBits hold
  (new &&& ~~~m) ||| (old &&& m)

/-- The number of one bits of a lane mask. -/
def popc (k : Word) : Nat := (List.range 64).foldl (fun n l => if k.getLsbD l then n + 1 else n) 0

/-! ## Scratchpad addresses (R200) -/

/-- The row that a scratchpad access forms; 512 and above is out of range. -/
def spRow (ar : Word) (imm3 : BitVec 3) : Nat := bitsN ar.toNat 16 8 + imm3.toNat
/-- The byte within the row. -/
def spByte (ar : Word) : Nat := bitsN ar.toNat 7 0
/-- The key of a scratchpad row: bank x 512 + row (R39). -/
def spKey (bank row : Nat) : Nat := 512 * bank + row

/-! ## Box quads (R218) -/

/-- What the address registers 4Q to 4Q + 3 name: identifier, extents less 1, coordinates. -/
structure Quad where
  tid : Nat
  ext : List Nat
  coord : List Nat
  deriving DecidableEq, Repr

/-- The box of a quad. -/
def quadOf (r : Regs) (file : Bool) (q : BitVec 2) : Quad :=
  let a (i : Nat) : Nat := (readA r file (4 * q.toNat + i)).toNat
  { tid := bitsN (a 0) 15 0
    ext := [bitsN (a 0) 31 16 + 1, bitsN (a 0) 47 32 + 1, bitsN (a 0) 63 48 + 1, 1, 1, 1]
    coord := [bitsN (a 1) 31 0, bitsN (a 1) 63 32, bitsN (a 2) 31 0, bitsN (a 2) 63 32, bitsN (a 3) 31 0, bitsN (a 3) 63 32] }

end Sys2Proof.Machine
end

