-- ==== Sys2Proof/Machine/Scratchpad.lean ====
section
/-! DEFINITION. Scratchpad banks, parity groups and tiles: rows, reconstruction, the parity update queue, what two
accesses of one bundle do to each other, and the tile table (R39 to R66). -/

namespace Sys2Proof.Machine

/-! ## Rows and groups -/

def getGrp (k : Core) (g : Nat) : Group := smGet {} k.sp.groups g
def setGrp (k : Core) (g : Nat) (v : Group) : Core := { k with sp := { k.sp with groups := smPut k.sp.groups g v } }
def modGrp (k : Core) (g : Nat) (f : Group → Group) : Core := setGrp k g (f (getGrp k g))

/-- The parity group of a bank, parity banks included (R39). -/
def grpOf (bank : Nat) : Nat := if bank < 32 then bank / 4 else bank - 32

/-- The stored content of a row. -/
def rowOf (k : Core) (bank row : Nat) : Wide := smGet 0 k.sp.rows (spKey bank row)
/-- Store a row with fresh check bits. -/
def putRow (k : Core) (bank row : Nat) (v : Wide) : Core :=
  { k with sp := { k.sp with rows := cmPut 0 k.sp.rows (spKey bank row) v, badRows := smDel k.sp.badRows (spKey bank row),
                             softRows := smDel k.sp.softRows (spKey bank row) } }
/-- Whether a row holds an uncorrectable error (R40). -/
def softRow (k : Core) (bank row : Nat) : Bool := smGet false k.sp.softRows (spKey bank row)
def badRow (k : Core) (bank row : Nat) : Bool := smGet false k.sp.badRows (spKey bank row)

/-- The bank that a group has retired (R56). -/
def retBank (k : Core) (g : Nat) : Option Nat := (getGrp k g).ret.map (fun b => 4 * g + b.toNat)
/-- GSTS.NOSEC: retired data bank, retired parity bank or lost parity (R60). -/
def noSec (k : Core) (g : Nat) : Bool := (getGrp k g).ret.isSome || (getGrp k g).pret || (getGrp k g).plost
/-- GSTSg (R60). -/
def gsts (k : Core) (g : Nat) : Nat :=
  let v := getGrp k g
  let b (c : Bool) (i : Nat) : Nat := if c then 2 ^ i else 0
  v.queue.length + b v.ret.isSome 4 + b (noSec k g) 5 + b v.plost 6 + v.plrow * 2 ^ 7 + b v.held.isSome 16 + b v.dis 17
/-- GCTLg as read (R60): a retirement reads back once it is written. -/
def gctl (k : Core) (g : Nat) : Nat :=
  let v := getGrp k g
  let b (c : Bool) (i : Nat) : Nat := if c then 2 ^ i else 0
  let r := v.retWritten
  v.fmt.toNat + b r.isSome 4 + (r.getD 0).toNat * 2 ^ 5 + b v.pretWritten 7 + b v.rebuild.isSome 8 + b v.dis 9

/-- The XOR of a row over the data banks of a group but one (R49). -/
def xorOthers (k : Core) (g bank row : Nat) : Wide :=
  (List.range 4).foldl (fun acc i => if 4 * g + i = bank then acc else acc ^^^ rowOf k (4 * g + i) row) 0

/-- A reconstruction of a row (R49), with what is wrong with it (R57). -/
def reconstruct (k : Core) (bank row : Nat) : Wide × Option (Nat × Nat) :=
  let g := grpOf bank
  let bad := (List.range 4).any (fun i => 4 * g + i ≠ bank && badRow k (4 * g + i) row) || badRow k (32 + g) row
  (xorOthers k g bank row ^^^ rowOf k (32 + g) row,
   if (getGrp k g).plost then some (18, 1) else if bad then some (18, 0) else none)

/-- A row as a read of it gives it, of a retired bank by reconstruction, with what is wrong with it (R40, R49, R56). -/
def readSeen (k : Core) (b r : Nat) : Wide × Option (Nat × Nat) :=
  if retBank k (grpOf b) = some b then reconstruct k b r else (rowOf k b r, if badRow k b r then some (17, 0) else none)

/-- A direct read (R40). -/
def readDirect (k : Core) (bank row : Nat) : Wide × Option (Nat × Nat) :=
  (rowOf k bank row, if badRow k bank row then some (17, 0) else none)

/-- The corrected errors that a direct read of a row counts (R40). -/
def countCE (k : Core) (bank row : Nat) : Core :=
  if smGet false k.sp.softRows (spKey bank row) then
    { k with sp := { k.sp with cecnt := smPut k.sp.cecnt bank (min (2 ^ 32 - 1) (smGet 0 k.sp.cecnt bank + 1)) } }
  else k

/-- Note a bank used in a cycle (R42, R47). -/
def useBank (k : Core) (now bank : Nat) : Core :=
  { k with sp := { k.sp with bankUse := bank :: (if k.sp.bankUseAt = now then k.sp.bankUse else []), bankUseAt := now } }
/-- Whether the issuing bundle or a chunk uses a bank in this cycle. -/
def bankBusy (k : Core) (now bank : Nat) : Bool := k.sp.bankUseAt = now && k.sp.bankUse.contains bank
/-- Note the parity bank of a group busy in a cycle (R51). -/
def busyParity (k : Core) (now g : Nat) : Core := modGrp k g (fun v => { v with busyAt := some now })

/-- The rows that a reconstruction reads: the other three of its group and the parity row (R49). -/
def reconRows (bank row : Nat) : List (Nat × Nat) :=
  let g := grpOf bank
  (((List.range 4).map (4 * g + ·)).filter (· ≠ bank)).map (·, row) ++ [(32 + g, row)]
/-- The bank accesses of a reconstruction, whose rows pass their ECC checks as in direct reads (R40, R42, R49). -/
def readRecon (k : Core) (now bank row : Nat) : Core :=
  busyParity ((reconRows bank row).foldl (fun k p => useBank (countCE k p.1 p.2) now p.1) k) now (grpOf bank)
/-- A direct read's bank access; two reads of one row in a bundle are one access (R40, R44). -/
def readBank (k : Core) (now bank row : Nat) : Core := if bankBusy k now bank then k else useBank (countCE k bank row) now bank
/-- A row is left with check bits that decode as uncorrectable (R370). -/
def markBad (k : Core) (bank row : Nat) : Core := { k with sp := { k.sp with badRows := smPut k.sp.badRows (spKey bank row) true } }

/-- A write of a whole row in its access cycle (R50, R56): to a live bank with a parity delta queued, or to parity alone. -/
def writeRow (k : Core) (now bank row : Nat) (v : Wide) : Core :=
  let g := grpOf bank
  let k := useBank k now bank
  if retBank k g = some bank then
    let k := ((reconRows bank row).filter (·.1 < 32)).foldl (fun k p => useBank (countCE k p.1 p.2) now p.1) k
    busyParity (useBank (putRow k (32 + g) row (v ^^^ xorOthers k g bank row)) now (32 + g)) now g
  else
    let old := rowOf k bank row
    let k := putRow k bank row v
    if (getGrp k g).pret then k
    else modGrp k g (fun u => { u with queue := u.queue ++ [{ row, delta := old ^^^ v, at_ := now }] })

/-- A write of part of a row: of a live bank an uncorrectable row stays one; of a retired bank the bytes that stay are reconstructed, and
an error in that is a reconstruction fault and leaves the parity row uncorrectable (R56, R57; the model's choice, in the assumption log). -/
def writePart (k : Core) (now bank row : Nat) (f : Wide → Wide) : Core × Option (Nat × Nat) :=
  let g := grpOf bank
  if retBank k g = some bank then
    let (old, ue) := reconstruct k bank row
    let k := writeRow (countCE k (32 + g) row) now bank row (f old)
    (if ue.isSome then markBad k (32 + g) row else k, ue)
  else
    let bad := badRow k bank row
    let k := writeRow k now bank row (f (rowOf k bank row))
    (if bad then markBad k bank row else k, none)

/-- Where an uncorrectable error of a scratchpad read lies, as its event reports it (R40, R57, R353). -/
def ueData (cls cause loc : Nat) : Nat :=
  (Config.eventData 7 (if cls = 18 then [cls, cause, grpOf (loc / 512), loc % 512, loc / 512] else [loc / 512, loc % 512])).toNat

/-- The entry of a queue for a row that stands last, counted from 1 (R53); 0 for none. -/
def stalePos (q : List PEntry) (row : Nat) : Nat :=
  (q.foldl (fun (p : Nat × Nat) e => (p.1 + 1, if e.row = row then p.1 + 1 else p.2)) (0, 0)).2
/-- The stale-parity bit of a row (R52). -/
def stale (k : Core) (g row : Nat) : Bool := (getGrp k g).queue.any (fun e => e.row = row)

/-! ## The accesses of one bundle (R44 to R46) -/

/-- A bank access of a C slot. -/
structure Acc where
  pos : Nat
  bank : Nat
  row : Nat
  write : Bool
  deriving DecidableEq, Repr

/-- What becomes of the accesses: a conflict with its cause and slot, or which slots read by reconstruction. -/
inductive Plan where
  | conflict (cause slot : Nat)
  | go (recon : List Nat)
  deriving DecidableEq, Repr

/-- Accesses that name a retired bank alone. -/
def planOne (k : Core) (a : Acc) : List Nat :=
  if !a.write && retBank k (grpOf a.bank) = some a.bank then [a.pos] else []

/-- The table of R44 over at most two accesses. -/
def planAcc (k : Core) : List Acc → Plan
  | [] => .go []
  | [a] => .go (planOne k a)
  | a :: b :: _ =>
    let g := grpOf a.bank
    if g ≠ grpOf b.bank then .go (planOne k a ++ planOne k b)
    else if retBank k g = some a.bank || retBank k g = some b.bank then .conflict 3 b.pos
    else if a.bank ≠ b.bank then .go []
    else if a.write || b.write then .conflict 1 b.pos
    else if a.row = b.row then .go []
    else if noSec k g then .conflict 2 b.pos
    else .go [b.pos]

/-- The first access, in position order, that needs a stale row for a reconstruction (R45 cause 4). -/
def planStale (k : Core) (recon : List Nat) (l : List Acc) : Option Nat :=
  (l.find? (fun a => recon.contains a.pos && stale k (grpOf a.bank) a.row)).map (·.pos)

/-- The cycles for which the accesses hold the bundle (R53 to R56). -/
def planHold (k : Core) (recon : List Nat) (l : List Acc) : Nat :=
  l.foldl (fun h a =>
    let g := grpOf a.bank
    let v := getGrp k g
    let q := v.queue.length
    let n := (l.filter (fun b => grpOf b.bank = g && b.write && retBank k g ≠ some b.bank)).length
    let h := if v.pret then h else max h (q + n - 8)
    let h := if recon.contains a.pos then max h (stalePos v.queue a.row) else h
    let h := if a.write && retBank k g = some a.bank then max h q else h
    if v.retWritten ≠ v.ret || v.pretWritten ≠ v.pret then max h (max q 1) else h) 0

/-! ## Tiles (R63 to R66) -/

def getTile (k : Core) (e : Nat) : Option Tile := (k.sp.tiles.find? (fun p => p.1 = e)).map (·.2)
/-- The state of a valid entry. -/
def tileStOf (k : Core) (e : Nat) : Option TileSt := (k.sp.tiles.find? (fun p => p.1 = e)).map (fun p => p.2.st)
def setTileSt (k : Core) (e : Nat) (st : TileSt) : Core :=
  match getTile k e with
  | some t => { k with sp := { k.sp with tiles := smPut k.sp.tiles e { t with st } } }
  | none => k
/-- The valid entry that a row belongs to (R63). -/
def tileAt (k : Core) (bank row : Nat) : Option Nat :=
  (k.sp.tiles.find? (fun p => p.2.blo ≤ bank && bank ≤ p.2.bhi && p.2.wlo ≤ row && row ≤ p.2.whi)).map (·.1)
/-- The number that an entry's state reads as (R63). -/
def TileSt.code : TileSt → Nat
  | .empty => 0
  | .filling => 1
  | .ready => 2
  | .draining => 3
/-- TTEe (R63). -/
def tteWord (k : Core) (e : Nat) : Nat :=
  match getTile k e with
  | some t => t.blo + t.bhi * 2 ^ 5 + t.wlo * 2 ^ 10 + t.whi * 2 ^ 19 + t.st.code * 2 ^ 28 + 2 ^ 30
  | none => 0
/-- Banks of a tile, across (R309). -/
def Tile.nb (t : Tile) : Nat := t.bhi - t.blo + 1
/-- Tile rows of a tile. -/
def Tile.nrows (t : Tile) : Nat := t.nb * (t.whi - t.wlo + 1)
/-- Bank and row of tile row `n` (R309). -/
def Tile.rowAt (t : Tile) (n : Nat) : Nat × Nat := (t.blo + n % t.nb, t.wlo + n / t.nb)
/-- The input mask bits of a tile's banks. -/
def Tile.inMask (t : Tile) (m : BitVec 32) : Bool := (List.range 32).any (fun b => t.blo ≤ b && b ≤ t.bhi && m.getLsbD b)

end Sys2Proof.Machine
end

