-- ==== Sys2Proof/Machine/Issue.lean ====
section
/-! DEFINITION. What every slot operation has in common: its guard, the registers it reads and writes, its checks in the
order of R433, the waits that its W bit governs, and its effect at issue. A bundle and a slot operation alone are judged by
the same steps. -/

namespace Sys2Proof.Machine

/-- A register by name, as an operand. -/
inductive Rd where
  | s (n : Nat)
  | v (file : Bool) (n : Nat)
  | k (file : Bool) (n : Nat)
  | a (file : Bool) (n : Nat)
  deriving DecidableEq, Repr

/-- How a check of one slot ends: it passes; it waits, which W decides (R204); it blocks whatever W; it traps. -/
inductive Verdict where
  | go
  | wait (cause detail : Nat)
  | block (cause detail : Nat)
  | trap (cls cause detail : Nat)
  deriving DecidableEq, Repr

/-- What a slot sees at issue: the state at the start of the cycle, its core and context, which slots read by
reconstruction, and the input mask in force for the bundle (R157, R258). -/
structure Env where
  p : State
  c : Nat
  x : Nat
  rc : List Nat
  mask : BitVec 32
  /-- the bundle holds BR, BRX, CALL, CALLX or RET (R338) -/
  redir : Bool := false

/-- The scratchpad access of a slot: bank, address register, displacement, and whether it writes. -/
structure SpAcc where
  bank : BitVec 5
  ar : BitVec 4
  imm : BitVec 3
  write : Bool

/-- What the B slot does to the flow, for R226 and R338. -/
inductive Flow where
  | none
  | redirect
  | loop
  | fallback
  /-- STAGE: its count is compared in a gang (R154) -/
  | stage
  /-- SEG, RDV, HALT, YIELD: whether they issue is compared in a gang (R154) -/
  | sync
  deriving DecidableEq, Repr

/-- A slot operation. -/
structure SlotOp where
  /-- slot position (R215) -/
  pos : Nat
  h : Hd
  /-- a reserved field value (R225) -/
  bad : Bool := false
  flow : Flow := .none
  /-- registers read when the guard is true, and when it is false (SEL) -/
  reads : List Rd := []
  readsF : List Rd := []
  /-- registers written (R205) -/
  writes : List Rd := []
  /-- checks that need no register value (R433 step 2) -/
  early : Env → Verdict := fun _ => .go
  sp : Option SpAcc := none
  /-- value checks and waits (R433 step 4) -/
  check : Env → Verdict := fun _ => .go
  /-- a breakpoint with its number (R264) -/
  brk : Option (BitVec 12) := none
  /-- opens a segment with the mask of an s register (R258) -/
  seg : Option (BitVec 6) := none
  /-- a bundle with this slot may be delayed by the throttle (R228) -/
  heavy : Bool := false
  /-- the effect at issue with a true guard -/
  eff : Env → State → State := fun _ s => s
  /-- the effect with a false guard (R206) -/
  effF : Env → State → State := fun _ s => s
  /-- posts a system event (R263) -/
  posts : Bool := false
  /-- what a gang compares beside where control goes: the trip count of a LOOP that issues (R154) -/
  key : Env → Nat := fun _ => 0
  /-- what a coherent store contributes to the bundle's signature: tensor, coordinates and data (R371) -/
  stored : Env → List Nat := fun _ => []
  /-- an uncorrectable error that its matrix sources hold: sub-cause of class 17 and place (R370) -/
  unsound : Env → Option (Nat × Nat) := fun _ => none
  /-- what the odd core of a protected pair does in place of the effect, where the even core serves both (R165, R334) -/
  odd : Option (Env → State → State) := none

def Env.core (e : Env) : Core := getCore e.p e.c
def Env.ctx (e : Env) : Ctx := getCtx e.p e.c e.x
def Env.r (e : Env) : Regs := e.ctx.r

/-- The guard of a slot word (R216). -/
def guardOf (h : Hd) (r : Regs) : Bool := readP r h.g.toNat != h.n

/-- A pass that a condition turns into a verdict. -/
def stopIf (b : Bool) (v : Verdict) : Verdict := if b then v else .go
/-- The first verdict that is not a pass. -/
def Verdict.andThen (a b : Verdict) : Verdict := if a = .go then b else a

/-! ## Sources and destinations (R204, R214) -/

/-- The domain of an absolute vector register, and of its copy in another bank: (file x 8 + bank) x 64 + block (R214). -/
def domOf (file : Bool) (abs : Nat) : Nat := ((if file then 8 else 0) + abs % 8) * 64 + abs / 64
/-- Whether an absolute register is mirrored by the context (R213). -/
def mirrored (j : Place) (file : Bool) (abs : Nat) : Bool := (if file then j.miry else j.mirx).contains abs
/-- The domain of a mirror copy (R213). -/
def mirDom (file : Bool) (abs : Nat) : Nat := ((if file then 8 else 0) + (abs + 4) % 8) * 64 + abs / 64
def domPower (k : Core) (d : Nat) : Power := smGet .on k.vf.domains d

/-- The power check of an access to a vector register (R214): a read of a mirrored register uses a copy that is on; a
write to one needs neither copy off. Cause 100 is the wait for a domain. -/
def powerCheck (k : Core) (j : Place) (file : Bool) (abs : Nat) (write : Bool) : Verdict :=
  let d := domOf file abs
  let one (d : Nat) : Verdict := match domPower k d with
    | .on => .go
    | .off => .trap 6 0 abs
    | _ => .block 100 d
  if mirrored j file abs then
    let m := mirDom file abs
    if write then
      if domPower k d = .off || domPower k m = .off then .trap 6 0 abs
      else (one d).andThen (one m)
    else if domPower k d = .on || domPower k m = .on then .go
    else if domPower k d = .off then one m
    else one d
  else one d

/-- The source check of one register (R433 step 3): power first, then full or empty. DETAIL names the register. -/
def srcCheck (k : Core) (v : Ctx) : Rd → Verdict
  | .s n => stopIf (emptyS v.r n) (.wait 0 n)
  | .v f n =>
    let a := vAbs v.r f n
    (powerCheck k v.j f a false).andThen (stopIf (emptyV k f a) (.wait 0 n))
  | .k f n => stopIf (emptyK v.r f n) (.wait 0 n)
  | .a f n => stopIf (emptyA v.r f n) (.wait 0 n)

/-- The power check of a destination (R214). -/
def dstCheck (k : Core) (v : Ctx) : Rd → Verdict
  | .v f n => powerCheck k v.j f (vAbs v.r f n) true
  | _ => .go

/-- Step 3 of R433 for one slot. -/
def srcVerdict (k : Core) (v : Ctx) (reads writes : List Rd) : Verdict :=
  Verdict.andThen (reads.foldl (fun (a : Verdict) r => a.andThen (srcCheck k v r)) .go)
    (writes.foldl (fun (a : Verdict) r => a.andThen (dstCheck k v r)) .go)

/-! ## The steps of R433 -/

/-- How the decode of a bundle ends. -/
inductive Judge where
  /-- issues, with the slots that read by reconstruction -/
  | go (rc : List Nat)
  /-- held for some cycles: 0 scratchpad, 1 ports, 2 throttle -/
  | hold (n stage : Nat)
  | block (cause slot detail : Nat)
  | trap (cls cause slot detail : Nat)
  deriving DecidableEq, Repr

/-- A slot's verdict as the bundle's outcome, by the W bit of the slot (R204). -/
def verdictOf (op : SlotOp) : Verdict → Option Judge
  | .go => none
  | .wait cause detail => if op.h.w then some (.block cause op.pos detail) else some (.trap 3 cause op.pos detail)
  | .block cause detail => some (.block cause op.pos detail)
  | .trap cls cause detail => some (.trap cls cause op.pos detail)

/-- The first slot in position order that a check stops. -/
def firstStop (f : SlotOp → Verdict) : List SlotOp → Option Judge
  | [] => none
  | op :: l => match verdictOf op (f op) with
    | some j => some j
    | none => firstStop f l

/-- The first slot that writes a register which an earlier slot writes (R205); s0 is no register. -/
def twoWriters : List Rd → List SlotOp → Option Nat
  | _, [] => none
  | seen, op :: l =>
    if op.writes.any (fun r => r ≠ .s 0 && seen.contains r) then some op.pos else twoWriters (seen ++ op.writes) l

/-- The loop levels that a taken BR or BRX leaves active: innermost levels whose body does not hold the target go (R257). -/
def popLoops (t : BitVec 32) : List LoopLvl → List LoopLvl
  | [] => []
  | l :: ls => if l.start ≤ t ∧ t ≤ l.fin then l :: ls else popLoops t ls
/-- The levels active at a bundle: at the target of a taken BR or BRX those that it leaves (R257). -/
def activeLoops (r : Regs) : List LoopLvl := if r.redirectPops && r.redirect.isNone then popLoops r.pc r.loops else r.loops
/-- The target bundle issues: the levels that do not hold it are popped (R257). -/
def settlePops (r : Regs) : Regs := if r.redirectPops && r.redirect.isNone then { r with loops := activeLoops r, redirectPops := false } else r

/-- Step 1: reserved fields, two writers, delay bundles and last bundles of loop bodies (R225, R226, R338). -/
def stepOne (v : Ctx) (ops : List SlotOp) : Option Judge :=
  match ops.find? (·.bad) with
  | some op => some (.trap 1 0 op.pos 0)
  | none => match twoWriters [] ops with
    | some pos => some (.trap 2 0 pos 0)
    | none =>
      let delay := match v.r.redirect with
        | some (n, _) => n = 1 || n = 2
        | none => false
      let last := match activeLoops v.r with
        | l :: _ => l.fin = v.r.pc
        | [] => false
      if delay && (last || ops.any (fun o => o.flow = .redirect)) then some (.trap 2 1 6 0)
      else if last && ops.any (fun o => o.flow = .redirect || o.flow = .loop) then some (.trap 2 2 6 0)
      else none

/-- The bank access of a slot with a true guard. -/
def accOf (r : Regs) (op : SlotOp) : Option Acc :=
  op.sp.map (fun a => { pos := op.pos, bank := a.bank.toNat, row := spRow (readA r (op.pos = 5) a.ar.toNat) a.imm, write := a.write })

/-- The tile rule for one access (R46 step 3, R65): the tile of the row is ready, or the slot waits; a wait on a tile that
a held copy of the segment drains is an idempotence trap (R157). -/
def tileRule (s : State) (c x : Nat) (a : Acc) : Verdict :=
  match tileAt (getCore s c) a.bank a.row with
  | some e => match tileStOf (getCore s c) e with
    | some .ready => .go
    | some .draining =>
      if s.x.reqs.any (fun q => q.2.st = .held && q.2.core = c && q.2.ctx = x && q.2.tile = e) then .trap 7 2 0 else .wait 1 e
    | some _ => .wait 1 e
    | none => .go
  | none => .go

/-- Distinct vector registers that the slots read, by file, as absolute indices (R211). -/
def portReads (r : Regs) (file : Bool) (ops : List SlotOp) : List Nat :=
  (ops.flatMap (fun o => o.reads)).foldl (fun l d => match d with
    | .v f n => if f = file && !l.contains (vAbs r f n) then l ++ [vAbs r f n] else l
    | _ => l) []

/-- The least hold over the choices of a copy for each mirrored register; `n` counts the reads of each bank (R211, R213). -/
def portHold (mir : List Nat) : List Nat → (Nat → Nat) → Nat
  | [], n => (List.range 8).foldl (fun e b => max e ((n b - 2 + 1) / 2)) 0
  | g :: l, n =>
    let add (b : Nat) : Nat → Nat := fun i => if i = b then n i + 1 else n i
    if mir.contains g then min (portHold mir l (add (g % 8))) (portHold mir l (add ((g + 4) % 8)))
    else portHold mir l (add (g % 8))

/-- The port hold of a bundle over both files (R211). -/
def portStall (v : Ctx) (ops : List SlotOp) : Nat :=
  max (portHold v.j.mirx (portReads v.r false ops) (fun _ => 0)) (portHold v.j.miry (portReads v.r true ops) (fun _ => 0))

/-- The input mask in force for a bundle: that of a segment it opens, else that of the open one (R258); bits of banks
outside the job's groups are ignored. -/
def maskOf (v : Ctx) (ops : List SlotOp) : BitVec 32 :=
  let m : BitVec 32 := match (ops.find? (fun o => o.seg.isSome)).bind (·.seg) with
    | some r => (readS v.r r.toNat).setWidth 32
    | none => v.g.segMask
  m &&& BitVec.ofNat 32 ((List.range 8).foldl (fun a g => if v.j.gmask.getLsbD g then a + 15 * 2 ^ (4 * g) else a) 0)

/-- Steps 2 to 4 of R433 over the slots whose guards are true; SEL with a false guard reads its other source (R248). -/
def stepsTwoToFour (e : Env) (ops : List SlotOp) : Option Judge :=
  let live := ops.filter (fun o => guardOf o.h e.r)
  match firstStop (fun o => o.early e) live with
  | some j => some j
  | none => match firstStop (fun o => if guardOf o.h e.r then srcVerdict e.core e.ctx o.reads o.writes else srcVerdict e.core e.ctx o.readsF []) ops with
    | some j => some j
    | none => firstStop (fun o => o.check e) live

/-- Whether a context stands on the even, or on the odd position of a protected pair (R164). -/
def evenOfPair (c : Nat) (v : Ctx) : Bool := v.j.prot && c % 2 = 0
def oddOfPair (c : Nat) (v : Ctx) : Bool := v.j.prot && c % 2 = 1

/-- Whether another context of the core is ready to take the issue slot (R151). -/
def otherReady (s : State) (c x : Nat) : Bool :=
  (List.range 4).any (fun y => y ≠ x && (getCtx s c y).status = .ready && !oddOfPair c (getCtx s c y))

/-- The scratchpad of a pair's odd core as it will stand when that core issues the bundle, two cycles later: with what the bundles that
it has still to issue append, and two entries drained (R51, R164; the model's choice, in the assumption log). -/
def oddAhead (s : State) (c x : Nat) : Core :=
  let k := ((getCtx s c x).commits.flatMap (·.wr)).foldl (fun (k : Core) w =>
    if retBank k (grpOf w.1) = some w.1 || (getGrp k (grpOf w.1)).pret then k
    else modGrp k (grpOf w.1) (fun v => { v with queue := v.queue ++ [{ row := w.2, delta := 0, at_ := s.t.now }] })) (getCore s (c + 1))
  (List.range 8).foldl (fun k g => modGrp k g (fun v => { v with queue := v.queue.drop 2 })) k
/-- The scratchpads that a bundle's accesses are judged on: the core's own, and its partner's in a protected pair (R165). -/
def judgedOn (s : State) (c x : Nat) : List Core :=
  if evenOfPair c (getCtx s c x) then [getCore s c, oddAhead s c x] else [getCore s c]

/-- The conflict that accesses meet on some of the scratchpads. -/
def planOn (ks : List Core) (accs : List Acc) : Option (Nat × Nat) :=
  ks.findSome? (fun k => match planAcc k accs with
    | .conflict cause slot => some (cause, slot)
    | .go _ => none)
/-- The slots that read by reconstruction on a scratchpad. -/
def reconOn (k : Core) (accs : List Acc) : List Nat :=
  match planAcc k accs with
  | .go rc => rc
  | .conflict _ _ => accs.flatMap (planOne k)

/-- Step 5 of R433 up to the holds: conflicts, strict-mode ports, tiles, strict-mode stale rows. -/
def stepFive (e : Env) (live : List SlotOp) : Option Judge ⊕ List Nat :=
  let accs := live.filterMap (accOf e.r)
  let ks := judgedOn e.p e.c e.x
  match planOn ks accs with
  | some (cause, slot) => .inl (some (.trap 4 cause slot 0))
  | none =>
    let rc := reconOn e.core accs
    if e.ctx.j.strict && portStall e.ctx live > 0 then .inl (some (.trap 5 0 255 0))
    else match firstStop (fun o => match accOf e.r o with
        | some a => tileRule e.p e.c e.x a
        | none => .go) live with
      | some j => .inl (some j)
      | none => match (if e.ctx.j.strict then ks.findSome? (fun k => planStale k (reconOn k accs) accs) else none) with
        | some slot => .inl (some (.trap 4 4 slot 0))
        | none => .inr rc

/-- What a bundle's slots see at decode. -/
def envOf (s : State) (c x : Nat) (ops : List SlotOp) (rc : List Nat) : Env :=
  let v := getCtx s c x
  { p := s, c, x, rc, mask := maskOf v (ops.filter (fun o => guardOf o.h v.r)), redir := ops.any (fun o => o.flow = .redirect) }

/-- Steps 1 to 4 of R433. -/
def judgeFront (s : State) (c x : Nat) (ops : List SlotOp) : Option Judge :=
  let v := getCtx s c x
  match stepOne v ops with
  | some j => some j
  | none => stepsTwoToFour (envOf s c x ops []) ops

/-- Steps 5 and 6 of R433 but for the throttle and the comparators. -/
def judgeBack (s : State) (c x : Nat) (ops : List SlotOp) (stage : Nat) : Judge :=
  let v := getCtx s c x
  let live := ops.filter (fun o => guardOf o.h v.r)
  let e := envOf s c x ops []
  match stepFive e live with
  | .inl (some j) => j
  | .inl none => .go []
  | .inr rc =>
    let accs := live.filterMap (accOf v.r)
    let h := (judgedOn s c x).foldl (fun h k => max h (planHold k (reconOn k accs) accs)) 0
    let p := portStall v live
    if h > 0 then .hold h 0
    else if stage < 1 && p > 0 then .hold p 1
    else match (live.find? (fun o => o.brk.isSome)).bind (fun o => o.brk.map (fun b => (o.pos, b))) with
      | some (pos, b) => .trap 13 0 pos b.toNat
      | none => .go rc

/-- The decode of the slots of a bundle (R433). `stage` tells which holds have passed already. -/
def judge (s : State) (c x : Nat) (ops : List SlotOp) (stage : Nat) : Judge :=
  match judgeFront s c x ops with
  | some j => j
  | none => judgeBack s c x ops stage

/-! ## Outcomes -/

/-- A domain found in retention starts to wake: on for the access 32 cycles after this decode (R214). -/
def wakeDomain (s : State) (c d : Nat) : State :=
  match domPower (getCore s c) d with
  | .ret =>
    let s := modCore s c (fun k => { k with vf := { k.vf with domains := smPut k.vf.domains d (.waking (s.t.now + 31) false) } })
    schedule s (s.t.now + 31) (.domainWakeComplete c d)
  | _ => s

/-- The context leaves the issue slot; the selector issues no bundle in this cycle (R150). -/
def leaveSlot (s : State) (c x : Nat) (st : CtxStatus) : State :=
  let s := modCtx s c x (fun v => { v with status := st, heldUntil := none, heldStage := 0, heldGrps := [] })
  modCore s c (fun k => if k.running = some x then { k with running := none, lastCtx := x, nextIssue := s.t.now + 1, consec := 0 } else k)

/-- An engine wait (R149, R150); at a barrier or HALT the context has arrived (R162, R163). -/
def blockCtx (s : State) (c x cause slot detail : Nat) : State :=
  let s := if cause = 100 then wakeDomain s c detail else s
  let s := if cause = 3 ∨ cause = 104 then modCtx s c x (fun v => { v with rdvAt := some v.r.pc }) else s
  leaveSlot s c x (.blocked cause slot detail)

/-- The effects of the slots, in the order C0, C1, S, V0, V1, M, A, B; a SEG first of all (R258). -/
def issueOrder (op : SlotOp) : Nat :=
  if op.seg.isSome then 0 else match op.pos with
    | 4 => 1
    | 5 => 2
    | 0 => 3
    | 1 => 4
    | 2 => 5
    | 3 => 6
    | 7 => 7
    | _ => 8

/-- Put an operation at its place in the order of effects. -/
def insertOp (op : SlotOp) : List SlotOp → List SlotOp
  | [] => [op]
  | o :: l => if issueOrder op ≤ issueOrder o then op :: o :: l else o :: insertOp op l

/-- The odd core's part of a result that the even core obtained for both: the same value, two cycles later (R165). -/
def followDst (e : Env) (s : State) (d : Dst) : State :=
  match (getCtx s (e.c - 1) e.x).commits with
  | [] => s
  | m :: _ => match m.news.find? (fun l => l.dst = d) with
    | some l => match l.req with
      | some q => postPending s e.c e.x d q
      | none => postResult s e.c e.x (l.due + 1 - m.at_) d l.val l.flags l.load l.ue
    | none => match d with
      | .s n => postResult s e.c e.x 1 d ((readS m.post n).setWidth 2048)
      | _ => s
/-- The odd core follows for every register that an operation writes. -/
def followWrites (ws : List Rd) (e : Env) (s : State) : State :=
  ws.foldl (fun s w => match w with
    | .s n => followDst e s (.s n)
    | .a f n => followDst e s (.a f n)
    | .k f n => followDst e s (.k f n)
    | .v f n => followDst e s (.v f (vAbs e.r f n))) s

/-- The effect of one slot at issue: by its guard. -/
def effOf (e : Env) (s : State) (op : SlotOp) : State :=
  if guardOf op.h e.r then
    match op.odd with
    | some f => if oddOfPair e.c e.ctx then f e s else op.eff e s
    | none => op.eff e s
  else op.effF e s

/-- All effects of a bundle's slots, each reading the state at the start of the cycle (R203). -/
def effects (s : State) (c x : Nat) (ops : List SlotOp) (rc : List Nat) (s1 : State) : State :=
  (ops.foldr insertOp []).foldl (effOf (envOf s c x ops rc)) s1

/-- Parity groups that a bundle's accesses name. -/
def heldGroups (s : State) (c x : Nat) (ops : List SlotOp) : List Nat :=
  let r := (getCtx s c x).r
  ((ops.filter (fun o => guardOf o.h r)).filterMap (accOf r)).map (fun a => grpOf a.bank)

/-- Hold a bundle (R46, R211, R228). Its groups take no chunk write for as long, so that no hold that has passed comes back (R47). -/
def holdBundle (s : State) (c x n stage : Nat) (ops : List SlotOp) : State :=
  let s := modCore s c (fun k => { k with consec := 0 })
  modCtx s c x (fun v => { v with heldUntil := some (s.t.now + n), heldStage := max stage v.heldStage, heldGrps := heldGroups s c x ops })

/-- Where the program address goes once a bundle has issued (R250, R254, R255): a fresh branch at 3 still has its two delay
bundles before it, 0 is a target that follows at once. -/
def finishFlow (s : State) (c x : Nat) : State :=
  modRegs s c x (fun r => match r.redirect with
    | none => { r with pc := r.pc + 1 }
    | some (0, t) => { r with pc := t, redirect := none }
    | some (1, t) => { r with pc := t, redirect := none }
    | some (n + 1, t) => { r with pc := r.pc + 1, redirect := some (n, t) })

/-- A slot operation executed alone: the checks of R433 for it, then its effect, in the context that runs on the core in
focus. The program address is left to the decode of the bundle. -/
def issueOne (s : State) (op : SlotOp) : Host.Outcome State Fault Refusal :=
  match (getCore s s.t.fcore).running with
  | none => .fault .noContext
  | some x =>
    let c := s.t.fcore
    match judge s c x [op] 0 with
    | .go rc => .next (effects s c x [op] rc s)
    | .hold n stage => .next (holdBundle s c x n stage [op])
    | .block cause slot detail => .next (blockCtx s c x cause slot detail)
    | .trap cls cause slot detail => .next (takeTrap s c x cls cause slot detail (getCtx s c x).r.pc)

end Sys2Proof.Machine
end

