-- ==== Sys2Proof/Machine/Tensor.lean ====
section
/-! DEFINITION. Tensors: descriptors, coordinates, boxes, the bytes of elements in frames and in tile rows, tile-table
entries, and nest descriptors (R20 to R31, R87, R309, R314). -/

namespace Sys2Proof.Machine

/-! ## The physical map (R20) -/

/-- The regions of device physical space. -/
inductive Region where
  | hbm
  | window
  | host
  | control
  | reserved
  deriving DecidableEq, Repr

def windowBase : Nat := 0x1000000000000
def hostBase : Nat := 0x2000000000000

/-- The region of a physical byte address. -/
def regionOf (a : Nat) : Region :=
  if a < 0x3000000000 then .hbm
  else if windowBase ≤ a ∧ a < windowBase + 0xA000000 then .window
  else if hostBase ≤ a ∧ a < 0x3000000000000 then .host
  else if controlBase ≤ a ∧ a < 0xE000100000000 then .control
  else .reserved

/-- The cluster of a window address, and its offset in that window (R20). -/
def windowOf (a : Nat) : Nat × Nat := ((a - windowBase) / 0x1000000, (a - windowBase) % 0x1000000)
/-- The pseudo-channel of an HBM address (R21): 64 x stack + frame mod 64. -/
def pchOf (a : Nat) : Nat := 64 * (a / 0xC00000000) + (a % 0xC00000000) / 0x4000 % 64
def frameBytes : Nat := 16384

/-! ## Descriptors (R26, R27) -/

/-- A descriptor's fields. -/
structure Desc where
  valid : Bool
  rank : Nat
  fmt : Nat
  order : List Nat
  part : Nat
  ns : Bool
  ccl : Nat
  ext : List Nat
  tsh : List Nat
  ttb : Nat
  nt : Nat
  deriving DecidableEq, Repr

/-- Read a descriptor image (R26). -/
def descOf (img : BitVec 512) : Desc :=
  let w := img.toNat
  { valid := bitN w 0, rank := bitsN w 3 1, fmt := bitsN w 7 4
    order := (List.range 6).map (fun i => bitsN w (8 + 3 * i + 2) (8 + 3 * i))
    part := bitsN w 29 26, ns := bitN w 30, ccl := bitsN w 32 31
    ext := (List.range 6).map (fun d => bitsN w (64 + 32 * d + 31) (64 + 32 * d))
    tsh := (List.range 6).map (fun d => bitsN w (256 + 4 * d + 3) (256 + 4 * d))
    ttb := bitsN w 371 324 * 16
    nt := bitsN w 415 384 }

/-- The tile exponent of a format (R28). -/
def tileExp (fmt : Nat) : Nat :=
  match fmt with
  | 0 => 14
  | 1 => 13
  | 2 => 12
  | 3 => 11
  | 4 => 14
  | 5 => 13
  | 6 => 13
  | 7 => 12
  | 8 => 13
  | 9 => 14
  | _ => 15

def Desc.e (d : Desc) (x : Nat) : Nat := d.ext.getD x 0
/-- The extent of a tile in a dimension. -/
def Desc.span (d : Desc) (x : Nat) : Nat := 2 ^ d.tsh.getD x 0
/-- The number of tiles along a dimension (R29). -/
def Desc.tiles (d : Desc) (x : Nat) : Nat := (d.e x + d.span x - 1) / d.span x
/-- The dimension at an order position. -/
def Desc.ord (d : Desc) (i : Nat) : Nat := d.order.getD i 0
/-- The dimensions in use, fastest first. -/
def Desc.dims (d : Desc) : List Nat := (List.range d.rank).map d.ord
/-- The product of R27 rule 6. -/
def Desc.tileCount (d : Desc) : Nat := (List.range d.rank).foldl (fun n x => n * d.tiles x) 1

/-- Checks 1 to 5 of R27, which do not depend on NTILES or on who asks. -/
def Desc.shapeOk (d : Desc) : Bool :=
  d.valid && 1 ≤ d.rank && d.rank ≤ 6 && fmtOk d.fmt
  && (List.range d.rank).all (fun x => d.dims.contains x) && (List.range 6).all (fun i => i < d.rank || d.ord i = 0)
  && (List.range 6).all (fun x => if x < d.rank then d.e x ≠ 0 else d.e x = 0 && d.tsh.getD x 0 = 0)
  && d.tsh.foldl (· + ·) 0 = tileExp d.fmt
  && (d.fmt ≠ 8 || 5 ≤ d.tsh.getD (d.ord 0) 0) && (d.fmt ≠ 9 || 6 ≤ d.tsh.getD (d.ord 0) 0)

/-- Every check of R27. -/
def Desc.ok (d : Desc) (part : BitVec 4) (secure : Bool) : Bool :=
  d.shapeOk && d.nt = d.tileCount && d.part = part.toNat && (d.ns || secure)

/-! ## Coordinates (R29) -/

/-- Tile number and in-tile offset over the given dimensions, with the running products. -/
def Desc.locateFrom (d : Desc) (c : List Nat) : List Nat → Nat → Nat → Nat × Nat
  | [], _, _ => (0, 0)
  | x :: l, tmul, omul =>
    let (t, o) := d.locateFrom c l (tmul * d.tiles x) (omul * d.span x)
    (c.getD x 0 / d.span x * tmul + t, c.getD x 0 % d.span x * omul + o)

/-- The mapping of R29. -/
def Desc.locate (d : Desc) (c : List Nat) : Nat × Nat := d.locateFrom c d.dims 1 1

/-- Whether a box lies inside the extents (R29). -/
def Desc.inBounds (d : Desc) (origin ext : List Nat) : Bool :=
  (List.range d.rank).all (fun x => origin.getD x 0 + ext.getD x 1 ≤ d.e x)

/-- The coordinates of element `j` of a box in box order (R309). -/
def Desc.boxCoord (d : Desc) (ext : List Nat) : List Nat → Nat → List Nat → List Nat
  | [], _, c => c
  | x :: l, j, c => d.boxCoord ext l (j / ext.getD x 1) (c.set x (c.getD x 0 + j % ext.getD x 1))

/-- Elements of a box. -/
def Desc.boxSize (d : Desc) (ext : List Nat) : Nat := d.dims.foldl (fun n x => n * ext.getD x 1) 1
/-- Tile and offset of element `j` of a box. -/
def Desc.boxElem (d : Desc) (origin ext : List Nat) (j : Nat) : Nat × Nat := d.locate (d.boxCoord ext d.dims j origin)

/-- The grid coordinates of a tile number in order of the dimensions (R169), and the number of one. -/
def Desc.gridFrom (d : Desc) : List Nat → Nat → List Nat
  | [], _ => []
  | x :: l, t => t % d.tiles x :: d.gridFrom l (t / d.tiles x)
def Desc.grid (d : Desc) (t : Nat) : List Nat := d.gridFrom d.dims t

/-! ## Bytes of elements (R28) -/

/-- Bytes of an element of a byte-wide format. -/
def fmtBytes (fmt : Nat) : Nat := fmtWidth fmt / 8

/-- First frame byte of an element, and the nibble where it is one (R28). -/
def elemPos (fmt k : Nat) : Nat × Option Bool :=
  if fmt = 9 then (34 * (k / 64) + 2 + k % 64 / 2, some (k % 2 = 1))
  else if fmt = 10 then (k / 2, some (k % 2 = 1))
  else (k * fmtBytes fmt, none)

/-- Frame bytes that an element occupies. -/
def elemBytes (fmt k : Nat) : List Nat :=
  match elemPos fmt k with
  | (p, some _) => [p]
  | (p, none) => (List.range (fmtBytes fmt)).map (p + ·)

/-- Frame bytes of the block data that an element needs (R28, R87). -/
def blockBytes (fmt k : Nat) : List Nat :=
  if fmt = 8 then [8192 + k / 32]
  else if fmt = 9 then [34 * (k / 64), 34 * (k / 64) + 1, 8704, 8705, 8706, 8707]
  else []

/-- An element taken from bytes: its bits and its block data: the scale X, or the super-scale, block scale and tag. -/
structure Src where
  fmt : Nat
  bits : Nat
  x : Nat := 0
  sup : Nat := 0
  s : Nat := 0
  tag : Nat := 0
  deriving DecidableEq, Repr

/-- A little-endian value from a byte function. -/
def leNat (f : Nat → Nat) (a : Nat) : Nat → Nat
  | 0 => 0
  | n + 1 => f a + 256 * leNat f (a + 1) n

/-- Element `k` of a tile whose frame bytes are `f`. -/
def srcOf (fmt : Nat) (f : Nat → Nat) (k : Nat) : Src :=
  match elemPos fmt k with
  | (p, some hi) => { fmt, bits := if hi then f p / 16 else f p % 16
                      sup := if fmt = 9 then leNat f 8704 4 else 0, s := if fmt = 9 then f (34 * (k / 64)) else 0
                      tag := if fmt = 9 then f (34 * (k / 64) + 1) % 4 else 0 }
  | (p, none) => { fmt, bits := leNat f p (fmtBytes fmt), x := if fmt = 8 then f (8192 + k / 32) else 0 }

/-- The exact value of an element, with the flags of decoding it (R132, R139, R141). -/
def Src.val (e : Src) : Val × Flags :=
  if e.fmt = 8 then (.real (mxVal e.bits e.x), 0)
  else if e.fmt = 9 then
    let (bs, fl) := q4Scale e.sup e.s e.tag
    let (v, g) := q4Val bs (q4Level e.tag e.bits)
    (.real v, fl ||| g)
  else (elemVal e.fmt e.bits, 0)

/-- The value as a floating-point value, for R134. -/
def Src.fv (e : Src) : FV :=
  match e.val.1 with
  | .int n => .ofInt n
  | .real v => v

/-- The stored bits of an element in a format that is no block format (R141). -/
def Src.to (e : Src) (fmt : Nat) : Res :=
  if e.fmt = fmt then (e.bits, 0)
  else let (v, fl) := e.val; let (b, g) := cvt fmt 0 v; (b, fl ||| g)

/-- A block of 32 elements in MXINT8: scale, bytes, flags; an MXINT8 block moves unchanged (R134, R141). -/
def mxBlock (es : List Src) : Nat × List Nat × Flags :=
  match es with
  | [] => (0, [], 0)
  | e :: _ =>
    if e.fmt = 8 then (e.x, es.map (·.bits), 0)
    else
      let (x, q, fl) := mxQuant 0 (es.map Src.fv)
      (x, q, es.foldl (fun a e => a ||| e.val.2) fl)

/-! ## Byte maps: key is a position, value the byte with its mask above it -/

/-- Put bits under a mask at a position. -/
def bmPut (m : SMap (BitVec 16)) (p v mask : Nat) : SMap (BitVec 16) :=
  let old := (smGet 0 m p).toNat
  let ob := old % 256
  let om := old / 256
  smPut m p (BitVec.ofNat 16 (Nat.lor (Nat.land ob (255 - mask)) (Nat.land v mask) + 256 * Nat.lor om mask))
/-- The byte at a position. -/
def bmByte (m : SMap (BitVec 16)) (p : Nat) : Nat := (smGet 0 m p).toNat % 256
/-- Put `n` little-endian bytes. -/
def bmNat (m : SMap (BitVec 16)) (p v : Nat) : Nat → SMap (BitVec 16)
  | 0 => m
  | n + 1 => bmNat (bmPut m p (v % 256) 255) (p + 1) (v / 256) n

/-- Put an element's bits of a byte-wide or nibble format at its position. -/
def bmElem (m : SMap (BitVec 16)) (fmt : Nat) (pos : Nat × Option Bool) (bits : Nat) : SMap (BitVec 16) :=
  match pos with
  | (p, some true) => bmPut m p (bits % 16 * 16) 0xF0
  | (p, some false) => bmPut m p (bits % 16) 0x0F
  | (p, none) => bmNat m p bits (fmtBytes fmt)

/-- Apply a byte map to a row of 256 bytes. -/
def bmApply (m : SMap (BitVec 16)) (v : Wide) : Wide :=
  m.foldl (fun v p => wSplice v p.1 1 (Nat.lor (Nat.land (wByte v p.1).toNat (255 - p.2.toNat / 256)) (p.2.toNat % 256))) v

/-! ## Tile rows (R309) -/

/-- Elements that a row of a format takes; a Q4 row is a frame image of 256 bytes. -/
def rowCap (fmt : Nat) : Nat :=
  if fmt = 8 then 128 else if fmt = 10 then 512 else if fmt = 9 then 256 else 256 / fmtBytes fmt

/-- Row byte and nibble of element `j` of a row. -/
def rowPos (fmt j : Nat) : Nat × Option Bool :=
  if fmt = 10 then (j / 2, some (j % 2 = 1)) else (j * fmtBytes fmt, none)

/-- Element `j` of a row. -/
def rowSrc (fmt : Nat) (row : Wide) (j : Nat) : Src :=
  let f (i : Nat) : Nat := (wByte row i).toNat
  match rowPos fmt j with
  | (p, some hi) => { fmt, bits := if hi then f p / 16 else f p % 16 }
  | (p, none) => { fmt, bits := leNat f p (fmtBytes fmt), x := if fmt = 8 then f (128 + j / 32) else 0 }

/-- The bytes that `n` elements put into a row, element `j` being `f j`, with their flags. A whole MXINT8 row is written with zero in the
bytes that hold nothing (R135). -/
def rowPack (fmt n : Nat) (f : Nat → Src) : SMap (BitVec 16) × Flags :=
  if fmt = 8 then
    (List.range ((n + 31) / 32)).foldl (fun a b =>
      let es := ((List.range 32).filter (fun i => 32 * b + i < n)).map (fun i => f (32 * b + i))
      let (x, q, fl) := mxBlock es
      let m := (q.zip (List.range 32)).foldl (fun m p => bmPut m (32 * b + p.2) p.1 255) a.1
      (bmPut m (128 + b) x 255, a.2 ||| fl)) (if n = 128 then (List.range 124).map (fun i => (132 + i, 0xFF00)) else [], 0)
  else
    (List.range n).foldl (fun a j => let (v, fl) := (f j).to fmt; (bmElem a.1 fmt (rowPos fmt j) v, a.2 ||| fl)) ([], 0)

/-! ## Chunks (R87) -/

/-- The chunks that a box touches: tiles ascending, chunks ascending, each (tile, index in the frame). -/
def Desc.chunks (d : Desc) (origin ext : List Nat) : List (Nat × Nat) :=
  let keys : SMap Unit := (List.range (d.boxSize ext)).foldl (fun m j =>
    let (t, k) := d.boxElem origin ext j
    smPut m (t * 64 + (elemPos d.fmt k).1 / 256) ()) []
  keys.map (fun p => (p.1 / 64, p.1 % 64))

/-- The elements of a box in one chunk, in box order: number in the box and offset in the tile. -/
def Desc.chunkElems (d : Desc) (origin ext : List Nat) (tile idx : Nat) : List (Nat × Nat) :=
  (List.range (d.boxSize ext)).filterMap (fun j =>
    let (t, k) := d.boxElem origin ext j
    if t = tile ∧ (elemPos d.fmt k).1 / 256 = idx then some (j, k) else none)

/-- The frame bytes that a chunk moves: those of its elements and their block data. -/
def Desc.chunkBytes (d : Desc) (origin ext : List Nat) (tile idx : Nat) : List Nat :=
  ((d.chunkElems origin ext tile idx).flatMap (fun p => elemBytes d.fmt p.2 ++ blockBytes d.fmt p.2)).eraseDups

/-- Whether a box is exactly one tile (R309, R316). -/
def Desc.oneTile (d : Desc) (origin ext : List Nat) : Bool :=
  (List.range 6).all (fun x =>
    if x < d.rank then origin.getD x 0 % d.span x = 0 && ext.getD x 1 = min (d.span x) (d.e x - origin.getD x 0)
    else ext.getD x 1 = 1)

/-! ## Tile-table entries (R30, R31) -/

def entP (e : BitVec 128) : Bool := e.getLsbD 0
def entWR (e : BitVec 128) : Bool := e.getLsbD 1
def entWatch (e : BitVec 128) : Bool := e.getLsbD 2
def entCC (e : BitVec 128) : Nat := bitsN e.toNat 4 3
def entBias (e : BitVec 128) : Bool := e.getLsbD 5
def entKey (e : BitVec 128) : Nat := bitsN e.toNat 11 6
def entOwner (e : BitVec 128) : Nat := bitsN e.toNat 15 12
def entPeer (e : BitVec 128) : Bool := e.getLsbD 16
def entFrame (e : BitVec 128) : Nat := bitsN e.toNat 59 22
def entMig (e : BitVec 128) : Nat := bitsN e.toNat 97 96
def entRd (e : BitVec 128) : Nat := bitsN e.toNat 111 104
/-- Whether every reserved field is zero. -/
def entRsv (e : BitVec 128) : Bool :=
  bitsN e.toNat 21 20 = 0 && bitsN e.toNat 63 60 = 0 && bitsN e.toNat 103 98 = 0 && bitsN e.toNat 127 112 = 0
/-- Whether an entry's frame lies in the host aperture, where class, key and bias are ignored (R23). -/
def entHost (e : BitVec 128) : Bool := !entPeer e && regionOf (entFrame e * frameBytes) = .host
/-- The cache class of a chunk (R23, R88). -/
def entClass (e : BitVec 128) (d : Desc) : Nat := if entHost e then 2 else if entCC e = 3 then d.ccl else entCC e

/-- Whether a frame is secure (R37). -/
def secureFrame (s : State) (f : Nat) : Bool :=
  (List.range 16).any (fun i =>
    let w := (creg s (0x100 + 16 * i)).toNat
    bitN w 127 && bitsN w 37 0 ≤ f && f ≤ bitsN w 101 64)

/-! ## Nest descriptors (R314) -/

/-- One level of a nest. -/
structure NestLvl where
  count : Nat
  rstep : Int
  astep : List Int
  bstep : List Int
  deriving DecidableEq, Repr

/-- A nest descriptor. -/
structure Nest where
  nlev : Nat
  dir : Nat
  stile : Nat
  ext : List Nat
  lvls : List NestLvl
  ok : Bool
  deriving DecidableEq, Repr

/-- Read a nest descriptor image of 256 bytes. -/
def nestOf (img : Wide) : Nest :=
  let w := img.toNat
  let b (i : Nat) : Nat := bitsN w (8 * i + 7) (8 * i)
  let h (i : Nat) : Nat := b i + 256 * b (i + 1)
  let z (lo hi : Nat) : Bool := (List.range (hi - lo)).all (fun i => b (lo + i) = 0)
  let nlev := b 0 % 8
  let lvls := (List.range 6).map (fun l =>
    { count := h (32 * l + 64), rstep := sgn 16 (h (32 * l + 66))
      astep := (List.range 6).map (fun d => sgn 16 (h (32 * l + 68 + 2 * d)))
      bstep := (List.range 6).map (fun d => sgn 16 (h (32 * l + 80 + 2 * d))) : NestLvl })
  { nlev, dir := b 0 / 8 % 4, stile := h 2
    ext := (List.range 6).map (fun i => leNat b (8 + 4 * i) 4), lvls
    ok := 1 ≤ nlev && nlev ≤ 6 && b 0 / 32 = 0 && b 0 / 8 % 4 ≠ 3 && z 1 2 && z 4 8 && z 32 64
      && (List.range 6).all (fun l => (decide (h (32 * l + 64) = 0) == decide (nlev ≤ l)) && z (32 * l + 92) (32 * l + 96))
      && (List.range 6).all (fun l => b 0 / 8 % 4 = 2 || z (32 * l + 80) (32 * l + 92)) }

/-- The iteration counts, 1 above NLEV. -/
def Nest.counts (n : Nest) : List Nat := n.lvls.map (fun l => max l.count 1)
/-- The number of iterations. -/
def Nest.total (n : Nest) : Nat := n.counts.foldl (· * ·) 1
/-- The indices of iteration `k`, i0 first. -/
def splitIdx : List Nat → Nat → List Nat
  | [], _ => []
  | c :: l, k => k % c :: splitIdx l (k / c)
/-- The sum over the levels of index times step. -/
def nestSum (idx : List Nat) (st : List Int) : Int := (idx.zip st).foldl (fun a p => a + (p.1 : Int) * p.2) 0
/-- The origin of an iteration on one side. -/
def Nest.origin (n : Nest) (b : Bool) (idx base : List Nat) : List Nat :=
  (List.range 6).map (fun d =>
    wrap 32 (((base.getD d 0 : Nat) : Int) + nestSum idx (n.lvls.map (fun l => (if b then l.bstep else l.astep).getD d 0))))
/-- The first tile row of an iteration. -/
def Nest.row0 (n : Nest) (idx : List Nat) : Int := nestSum idx (n.lvls.map (·.rstep))
/-- The corner indices of the nest (R315). -/
def Nest.corners : List Nat → List (List Nat)
  | [] => [[]]
  | c :: l => (Nest.corners l).flatMap (fun t => if c ≤ 1 then [0 :: t] else [0 :: t, (c - 1) :: t])

end Sys2Proof.Machine
end

