-- ==== Sys2Proof/Machine/Fabric.lean ====
section
/-! DEFINITION. Timetables, the paths of accesses, the cluster slices, write-backs and the window (R69 to R81). -/

namespace Sys2Proof.Machine

/-! ## Timetables (R76, R78, R80) -/

/-- The set that a pseudo-channel position serves: its place among the ten issuing positions, modulo 2 (R78). -/
def posSet (i : Nat) : Option Nat := ([0, 6, 12, 19, 25, 32, 38, 44, 51, 57].idxOf? i).map (· % 2)

/-- The shadow of a timetable (R81). -/
def shadowOf (s : State) (tbl : Nat) : BitVec 512 :=
  if tbl < 1000 then creg s (0x10000 + 0x10000 * (tbl / 8) + 0x400 + 64 * (tbl % 8)) else creg s (0x304000 + 64 * (tbl - 1000))
/-- The live timetable. -/
def liveOf (s : State) (tbl : Nat) : BitVec 512 :=
  if tbl < 1000 then smGet (tblOf 0x1F) (getCl s (tbl / 8)).ptt (tbl % 8) else smGet httReset s.x.htt (tbl - 1000)
/-- The cycle at which a written COMMIT switches the tables of a block. -/
def switchAt (s : State) (tbl : Nat) : Option Nat := if tbl < 1000 then (getCl s (tbl / 8)).commitAt else s.x.hbmCommit
/-- The timetable that governs a cycle: the shadow from the switch on, as it stands when a request looks (R80; the model's choice, in the
assumption log). -/
def tableAt (s : State) (tbl u : Nat) : BitVec 512 :=
  match switchAt s tbl with
  | some b => if b ≤ u then shadowOf s tbl else liveOf s tbl
  | none => liveOf s tbl
/-- The owner byte of a cycle. -/
def ownerAt (s : State) (tbl u : Nat) : Nat := bitsN (tableAt s tbl u).toNat (8 * (u % 64) + 7) (8 * (u % 64))

/-- Whether a cycle falls in a rollover, when no slot is taken (R106). -/
def inRollover (s : State) (u : Nat) : Bool :=
  (match s.c.rollEnd with
   | some e => e ≤ u + 127 && u ≤ e
   | none => false)
  || (match s.c.rollReq with
   | some b => b ≤ u && u < b + 128
   | none => false)

/-- Whether a cycle's entry serves a partition and a set. -/
def serves (s : State) (tbl : Nat) (set : Option Nat) (part u : Nat) : Bool :=
  ownerAt s tbl u = part && (set.isNone || posSet (u % 64) = set)

/-- Whether a demand request may take a cycle. -/
def slotFree (s : State) (tbl : Nat) (set : Option Nat) (part u : Nat) : Bool :=
  serves s tbl set part u && !inRollover s u && !s.x.claims.contains { tbl, at_ := u }

/-- The earliest cycle from `u` that a demand request may take (R76). -/
def findSlot (s : State) (tbl : Nat) (set : Option Nat) (part : Nat) : Nat → Nat → Option Nat
  | 0, _ => none
  | n + 1, u => if slotFree s tbl set part u then some u else findSlot s tbl set part n (u + 1)

/-- Cycles to look through: one period for each claim, one for a switch, one for the slot, and the rollover. -/
def findFuel (s : State) : Nat := 64 * (s.x.claims.length + 3) + 128

/-- Whether a partition owns an entry of the set on a timetable, now or after a pending switch. -/
def ownsSlot (s : State) (tbl : Nat) (set : Option Nat) (part : Nat) : Bool :=
  (List.range 64).any (fun i => serves s tbl set part (s.t.now + i))

/-- Claim a cycle. -/
def claimSlot (s : State) (tbl u : Nat) : State := { s with x := { s.x with claims := { tbl, at_ := u } :: s.x.claims } }

/-- Whether an access has returned by the end of this cycle. -/
def arrived (s : State) (k : Nat) : Bool :=
  let t := smGet {} s.x.tickets k
  t.legs.isEmpty && t.due ≤ s.t.now
/-- Whether its latency is over with this cycle, so that a result stands in its register for the next (R203, R227). -/
def landsNow (s : State) (k : Nat) : Bool :=
  let t := smGet {} s.x.tickets k
  t.legs.isEmpty && t.due ≤ s.t.now + 1
/-- The cycle in which it returns, once it is settled. -/
def dueOf (s : State) (k : Nat) : Nat := (smGet {} s.x.tickets k).due
def dropTicket (s : State) (k : Nat) : State := { s with x := { s.x with tickets := smDel s.x.tickets k } }

/-! ## Cluster slices (R69, R70, R72) -/

/-- The line number and set of an address. -/
def lineOf (a : Nat) : Nat := a / 128
def setOf (a : Nat) : Nat := a / 128 % 8192

/-- The first way that serves as a cache way for new lines: ways being swept are taken out (R74, R75). -/
def allocLow (c : Cluster) : Nat :=
  match c.sweep with
  | some (.grow _ q _) => q
  | some (.shrink p _ _) => p
  | none => c.present

def tagAt (c : Cluster) (w set : Nat) : Option LineTag := (c.tags.find? (fun p => p.1 = w * 8192 + set)).map (·.2)
/-- The way that holds a line. -/
def wayOf (c : Cluster) (line : Nat) : Option Nat :=
  (List.range 16).find? (fun w => match tagAt c w (line % 8192) with
    | some t => t.line = line
    | none => false)

def lruOf (c : Cluster) (set : Nat) : List Nat := smGet [] c.lru set
/-- Invalidate a way of a set. -/
def dropWay (c : Cluster) (w set : Nat) : Cluster :=
  { c with tags := smDel c.tags (w * 8192 + set), lru := smPut c.lru set ((lruOf c set).filter (· ≠ w)) }
/-- Make a way the most recent of its set. -/
def useWay (c : Cluster) (w set : Nat) : Cluster := { c with lru := smPut c.lru set (w :: (lruOf c set).filter (· ≠ w)) }

/-- A line enters the write-back buffer (R71). -/
def enterWb (c : Cluster) (t : LineTag) (sweep : Bool) (now : Nat) : Cluster :=
  { c with wb := c.wb ++ [{ line := t.line, part := t.part, sweep, since := now }] }

/-- A missed line takes its place in its set (R70). -/
def allocLine (c : Cluster) (part line : Nat) (dirty streaming : Bool) (now : Nat) : Cluster :=
  let set := line % 8192
  let ways := (List.range 16).filter (fun w => allocLow c ≤ w)
  let put (c : Cluster) (w : Nat) : Cluster :=
    let c := { c with tags := smPut c.tags (w * 8192 + set) { line, dirty, part } }
    if streaming then { c with lru := smPut c.lru set ((lruOf c set).filter (· ≠ w) ++ [w]) } else useWay c w set
  match ways.find? (fun w => (tagAt c w set).isNone) with
  | some w => put c w
  | none => match ((lruOf c set).filter (fun w => ways.contains w)).getLast? with
    | none => c
    | some w => match tagAt c w set with
      | some t =>
        if t.dirty then (if c.wb.length ≥ 64 then c else put (enterWb (dropWay c w set) t false now) w)
        else put (dropWay c w set) w
      | none => put c w

/-- What a completed access leaves of its line in its cluster's slice (R70, R72). -/
def touchLine (s : State) (cl : Option Nat) (part addr : Nat) (write : Bool) (cls : Nat) (hint : BitVec 2) : State :=
  match cl with
  | none => s
  | some n =>
    if regionOf addr ≠ .hbm then s else
    let bypass := hint = 2 || cls = 2
    modCl s n (fun c =>
      let line := lineOf addr
      let set := line % 8192
      match wayOf c line with
      | some w => match tagAt c w set with
        | some t =>
          if bypass && !t.dirty then dropWay c w set
          else
            let c := { c with tags := smPut c.tags (w * 8192 + set) { t with dirty := t.dirty || write } }
            if hint = 0 && !bypass then useWay c w set else c
        | none => c
      | none => if hint = 0 && !bypass then allocLine c part line write (cls = 1) s.t.now else c)

/-! ## Leases that serve a load (R103) -/

/-- The stream that an engine holds. -/
def streamOf (s : State) (e : Nat) : Option Nat := (s.f.queues.find? (fun q => q.2.eng = some e)).map (·.1)
/-- The agent number of a stream: that of the engine that holds it (R100, R113); a stream that none holds counts from 372. -/
def streamAgent (s : State) (q : Nat) : Nat := match (getQ s q).eng with
  | some e => 348 + e
  | none => 372 + q
/-- The stream of an agent number. -/
def agentStream (s : State) (agent : Nat) : Option Nat := if agent < 372 then streamOf s (agent - 348) else some (agent - 372)

/-- The clock of an agent (R100): contexts, application and firmware cores, and stream engines, whose clock is the stream's (R113). -/
def agentClock (s : State) (agent : Nat) : Nat :=
  if agent < 320 then (getCtx s (agent / 4) (agent % 4)).lc
  else if agent < 348 then smGet 0 s.c.agentClk agent
  else match agentStream s agent with
    | some q => (getQ s q).clock
    | none => 0

/-- Who holds the leased copies that serve an agent. -/
def holderOf (agent : Nat) : Nat :=
  if agent < 320 then agent / 32 else if agent < 336 then 10 else if agent < 348 then 11 else 12

def leaseOf (s : State) (holder line : Nat) : Option Lease := s.c.leases.find? (fun l => l.holder = holder && l.line = line)

/-- The lease that serves a load at a clock, if it still stands, with the load's time. -/
def leaseHit (s : State) (agent lc line : Nat) : Option Met :=
  match leaseOf s (holderOf agent) line with
  | some l => if max lc l.wts ≤ l.rts then some { time := max lc l.wts, copy := l } else none
  | none => none
/-- The same for a load on its way: its agent, and the clock if it is not the agent's own. -/
def loadHit (s : State) (load : Option (Nat × Option Nat)) (a : Nat) : Option Met :=
  match load with
  | some (agent, clk) => leaseHit s agent (clk.getD (agentClock s agent)) (lineOf a)
  | none => none

/-! ## Paths (R23, R76, R77) -/

/-- Whether an address takes no timetable: the host aperture, and frames under host bias (R23, R38). -/
def offTables (s : State) (a : Nat) : Bool :=
  regionOf a = .host || (regionOf a = .hbm && smGet false s.x.bias (a / frameBytes))

/-- The way of a line from cycle `t` to its home, from a spine agent or from its cluster's port. -/
def homeLeg (s : State) (part a t : Nat) : Leg :=
  if offTables s a then { addr := a, arrive := t, tbl := 0, part, hop := .outside }
  else if regionOf a = .window then { addr := a, arrive := t + 16, tbl := 8 * (windowOf a).1 + setOf a % 8, part, hop := .back 30 }
  else { addr := a, arrive := t + 40, tbl := 1000 + pchOf a, set := some (lineOf a % 2), part, hop := .back 240 }

/-- Whether a line of a cluster goes by the cluster's own port: lines of HBM, of its own window, and those that meet a lease. -/
def ownPort (s : State) (n a : Nat) (lease : Bool) : Bool :=
  lease || (!offTables s a && (regionOf a != .window || decide ((windowOf a).1 = n)))

/-- One line's path from cycle `t`: the line on its way, or what a spine agent's load meets in a lease at once (R105). -/
def pathLine (s : State) (part : Nat) (cl : Option Nat) (a t : Nat) (load : Option (Nat × Option Nat)) : List Leg × Option Met :=
  match cl with
  | none => match loadHit s load a with
    | some m => ([], some m)
    | none => ([homeLeg s part a t], none)
  | some n =>
    if ownPort s n a (loadHit s load a).isSome then
      ([{ addr := a, arrive := t, tbl := 8 * n + setOf a % 8, part
          hop := if regionOf a = .window && (windowOf a).1 = n && load.isNone then .back 30 else .look load }], none)
    else ([homeLeg s part a t], none)

/-- A line takes its slot: the earliest that no earlier demand has claimed (R76), and none of a cycle that is past. -/
def takeSlot (s : State) (l : Leg) : State × Leg :=
  match l.hop with
  | .outside => (s, { l with slot := some l.arrive })
  | _ => match findSlot s l.tbl l.set l.part (findFuel s) (max l.arrive (s.t.now - 1)) with
    | some u => (claimSlot s l.tbl u, { l with slot := some u })
    | none => (s, l)

/-- What a line does in the cycle of its slot: it returns, meets a lease, or goes on (R76, R77, R105). -/
def afterSlot (s : State) (l : Leg) (u : Nat) : State × List Leg × Nat × List Met :=
  match l.hop with
  | .back lat => (s, [], u + lat, [])
  | .outside => let (k, s) := draw s; (s, [], u + Config.hostLatency k, [])
  | .look load =>
    let n := l.tbl / 8
    match loadHit s load l.addr with
    | some m => (s, [], u + 30, [m])
    | none =>
      if (!offTables s l.addr && regionOf l.addr = .hbm && (wayOf (getCl s n) (lineOf l.addr)).isSome)
          || (regionOf l.addr = .window && (windowOf l.addr).1 = n) then (s, [], u + 30, [])
      else (s, [homeLeg s l.part l.addr u], 0, [])

/-- The lines of a ticket whose slot has come. -/
def settleLegs (s : State) : List Leg → State × List Leg × Nat × List Met
  | [] => (s, [], 0, [])
  | l :: ls =>
    let (s, k, d, m) := match l.slot with
      | some u => if u ≤ s.t.now then afterSlot s l u else (s, [l], 0, [])
      | none => (s, [l], 0, [])
    let (s, r, d', m') := settleLegs s ls
    (s, k ++ r, max d d', m ++ m')

/-- Whether a line has arrived where it waits for a slot, every line of that cycle being known. -/
def atTable (s : State) (l : Leg) : Bool := l.slot.isNone && l.arrive < s.t.now

/-- Tickets with lines that have arrived, in the order in which these take their slots: cycle of arrival, then rank (R76). -/
def arrivals (s : State) : List (Nat × Nat) :=
  let l := s.x.tickets.flatMap (fun p => (p.2.legs.filter (atTable s)).map (fun g => (g.arrive, p.2.ord, p.1)))
  ((l.foldl putIn []).map (fun x => (x.1, x.2.2))).eraseDups
where
  before (a b : Nat × Nat × Nat) : Bool := a.1 < b.1 || (a.1 = b.1 && (a.2.1 < b.2.1 || (a.2.1 = b.2.1 && a.2.2 ≤ b.2.2)))
  putIn : List (Nat × Nat × Nat) → Nat × Nat × Nat → List (Nat × Nat × Nat)
    | [], x => [x]
    | y :: l, x => if before y x then y :: putIn l x else x :: y :: l

/-- The lines of a ticket that arrived in one cycle take their slots. -/
def takeSlots (s : State) (arrive : Nat) : List Leg → State × List Leg
  | [] => (s, [])
  | l :: ls =>
    let (s, l) := if atTable s l && l.arrive = arrive then takeSlot s l else (s, l)
    let (s, r) := takeSlots s arrive ls
    (s, l :: r)

/-- Every line that arrived in an earlier cycle takes its slot, and those whose slot has come go on. -/
def advanceTickets (s : State) : State :=
  let s := (arrivals s).foldl (fun s (x : Nat × Nat) =>
    let k := smGet {} s.x.tickets x.2
    let (s, legs) := takeSlots s x.1 k.legs
    { s with x := { s.x with tickets := smPut s.x.tickets x.2 { k with legs } } }) s
  s.x.tickets.foldl (fun s p =>
    if p.2.legs.any (fun l => l.slot.any (fun u => u ≤ s.t.now)) then
      let (s, legs, d, m) := settleLegs s p.2.legs
      { s with x := { s.x with tickets := smPut s.x.tickets p.1 { p.2 with legs, due := max d p.2.due, met := p.2.met ++ m } } }
    else s) s

/-- At a rollover, slots taken in its 128 cycles are given back: their lines wait for the first ones after it (R106). -/
def giveBack (s : State) (b : Nat) : State :=
  let within (u : Nat) : Bool := b ≤ u && u < b + 128
  { s with x := { s.x with
    claims := s.x.claims.filter (fun c => !within c.at_)
    tickets := smMap (fun _ (k : Ticket) => { k with
      legs := k.legs.map (fun l => if l.slot.any within && l.hop != .outside then { l with slot := none } else l)
      met := k.met.map (fun m => { m with time := 0, copy := { m.copy with wts := 0, rts := 0 } }) }) s.x.tickets } }

/-- Whether a partition owns slots on the path of a line (R76, R89 cause 5). -/
def lineReach (s : State) (part : Nat) (cl : Option Nat) (a : Nat) : Bool :=
  if offTables s a then true
  else if regionOf a = .window then ownsSlot s (8 * (windowOf a).1 + setOf a % 8) none part
  else match cl with
    | none => ownsSlot s (1000 + pchOf a) (some (lineOf a % 2)) part
    | some n =>
      ownsSlot s (8 * n + setOf a % 8) none part
      && ((wayOf (getCl s n) (lineOf a)).isSome || ownsSlot s (1000 + pchOf a) (some (lineOf a % 2)) part)

/-- Both lines of a chunk. -/
def chunkReach (s : State) (part : Nat) (cl : Option Nat) (a : Nat) : Bool :=
  lineReach s part cl a && lineReach s part cl (a + 128)

/-- Start an access over the lines of a list of addresses from cycle `t`, as a load where one is named; its ticket. -/
def startPath (s : State) (part : Nat) (cl : Option Nat) (t : Nat) (load : Option (Nat × Option Nat)) (addrs : List Nat) (ord : Nat := 0) :
    Nat × State :=
  let ps := addrs.map (fun a => pathLine s part cl a t load)
  let met := ps.filterMap (·.2)
  let tk : Ticket := { legs := ps.flatMap (·.1), due := if met = [] then t else t + 30, met, ord }
  let (k, s) := newId s
  (k, { s with x := { s.x with tickets := smPut s.x.tickets k tk } })

/-- Another try at a line's home, at the partition's next slot there (R86). -/
def startAgain (s : State) (part a : Nat) (ord : Nat) : Nat × State :=
  let (k, s) := newId s
  (k, { s with x := { s.x with tickets := smPut s.x.tickets k { legs := [(fun l : Leg => { l with arrive := s.t.now }) (homeLeg s part a s.t.now)], due := s.t.now, ord } } })

/-- A ticket that returns after a fixed number of cycles. -/
def startFixed (s : State) (due : Nat) : Nat × State :=
  let (k, s) := newId s
  (k, { s with x := { s.x with tickets := smPut s.x.tickets k { due } } })

/-- A chunk goes out to a peer: a posted write, or a read whose completion comes within 50 µs, 80,000 cycles, or not at all (R88, R390). -/
def startPeer (s : State) (write : Bool) : Bool × Nat × State :=
  let (f, s) := draw s
  let n := Config.peerLatency f
  let late := !write && decide (80000 ≤ n)
  (late, startFixed s (s.t.now + if late then 80000 else n))

/-! ## Write-backs (R71) -/

/-- Whether a write-back may take a cycle: its partition owns it, and no demand request has claimed it (R71). -/
def slotLeft (s : State) (tbl : Nat) (set : Option Nat) (part u : Nat) : Bool :=
  serves s tbl set part u && !s.x.claims.contains { tbl, at_ := u }

/-- Port slots of cycle `t`: in the order of the buffer, each entry only after those before it. -/
def wbPorts (s : State) (n t : Nat) : List WbEntry → Bool → List Nat → List WbEntry
  | [], _, _ => []
  | e :: l, ok, used =>
    match e.u1 with
    | some _ => e :: wbPorts s n t l ok used
    | none =>
      let p := e.line % 8192 % 8
      if ok && e.since ≤ t && !used.contains p && slotLeft s (8 * n + p) none e.part t then
        { e with u1 := some t } :: wbPorts s n t l true (p :: used)
      else e :: wbPorts s n t l false used

/-- Pseudo-channel slots of cycle `t` for the entries that have arrived there, in the order of the buffer; `used` are the channels
whose slot another write-back has taken. -/
def wbChannels (s : State) (t : Nat) : List WbEntry → List Nat → List WbEntry × List Nat
  | [], used => ([], used)
  | e :: l, used =>
    let pc := pchOf (128 * e.line)
    let go := match e.u1, e.due with
      | some u, none => decide (u + 40 ≤ t) && !used.contains pc && slotLeft s (1000 + pc) (some (e.line % 2)) e.part t
      | _, _ => false
    let (r, used) := wbChannels s t l (if go then pc :: used else used)
    ((if go then { e with due := some (t + 240) } else e) :: r, used)

/-- The write-backs take the slots of the last cycle that no demand access has claimed: every demand access that could
still claim one has done so by now (R71). Between clusters the lower number goes first. -/
def advanceWb (s : State) : State :=
  ((List.range 10).foldl (fun (p : State × List Nat) n =>
    let c := getCl p.1 n
    if c.wb = [] then p
    else
      let (wb, used) := wbChannels p.1 (s.t.now - 1) (wbPorts p.1 n (s.t.now - 1) c.wb true []) p.2
      (setCl p.1 n { c with wb }, used)) (s, [])).1

/-! ## The window (R73 to R75) -/

/-- WAYPART as read (R73). -/
def waypart (c : Cluster) : Nat := c.ways + (if c.sweep.isSome then 16 else 0) + 256 * c.present

/-- Whether a written value of WAYPART has a legal WAYS and no reserved bit. -/
def waypartOk (v : Nat) : Bool := (v % 16 = 0 || v % 16 = 4 || v % 16 = 8 || v % 16 = 12) && v / 16 = 0

/-- The end of the cycle of a write of WAYPART: nothing, a grow or a shrink (R73 to R75). -/
def takeWaypart (s : State) (n : Nat) : State :=
  let c := getCl s n
  match c.wayNew with
  | none => s
  | some q =>
    let c := { c with wayNew := none }
    if q = c.present then setCl s n c
    else if c.present < q then setCl s n { c with ways := q, sweep := some (.grow c.present q 0), sweepAt := s.t.now }
    else setCl s n { c with ways := q, sweep := some (.shrink c.present q 0), sweepAt := s.t.now, present := q }

/-- Memory set to zero, as every agent and every key reads it (R74). -/
def clearMemory (s : State) (a n : Nat) : State :=
  let out (x : Nat) : Bool := x < a || a + n ≤ x
  { s with c := { s.c with
    mem := clearRange s.c.mem a n
    versions := s.c.versions.map (fun v => { v with bytes := v.bytes.filter (fun b => out b.1) })
    lineKeys := s.c.lineKeys.filter (fun p => out (128 * p.1))
    poison := s.c.poison.filter (fun p => out (128 * p.1))
    leases := s.c.leases.filter (fun l => out (128 * l.line)) } }

/-- BUSY clears after the last visit and the last acknowledgement of a write-back that the sweep started (R74, R75). -/
def busyClear (s : State) (n : Nat) : State :=
  let c := getCl s n
  match c.sweep with
  | some (.grow p q next) =>
    if next ≥ 8192 * (q - p) ∧ ¬ c.wb.any (·.sweep) then
      let s := setCl s n { c with sweep := none, present := q }
      clearMemory s (windowBase + 0x1000000 * n + 0x100000 * p) (0x100000 * (q - p))
    else s
  | some (.shrink p q next) => if next ≥ 8192 * (p - q) then setCl s n { c with sweep := none } else s
  | none => s

/-- Whether an access translated earlier still has a chunk in the window ways from `q` to `p` (R75). -/
def windowBusy (s : State) (n q p : Nat) : Bool :=
  let lo := windowBase + 0x1000000 * n + 0x100000 * q
  let hi := windowBase + 0x1000000 * n + 0x100000 * p
  s.x.reqs.any (fun r =>
    (r.2.chunks.any (fun k => !k.done && !k.peer && lo ≤ k.addr && k.addr < hi))
    || (r.2.tick.isSome && lo ≤ r.2.addr && r.2.addr < hi))

/-- Write back and invalidate the lines of a cluster that `f` picks, as bias flips and ownership moves need it: as many dirty ones as
the buffer has room for (R70, R71). -/
def flushWhere (c : Cluster) (now : Nat) (f : LineTag → Bool) : Cluster :=
  (c.tags.filter (fun p => f p.2)).foldl (fun c p =>
    if !p.2.dirty then dropWay c (p.1 / 8192) (p.1 % 8192)
    else if c.wb.length < 64 then dropWay (enterWb c p.2 false now) (p.1 / 8192) (p.1 % 8192)
    else c) c
/-- Whether such lines are left. -/
def unflushed (c : Cluster) (f : LineTag → Bool) : Bool := c.tags.any (fun p => f p.2)

/-! ## The rows -/

/-- WINDOW_GROW_VISIT: the next line of a grow sweep (R74 step 4); a dirty one waits for room in the write-back buffer (R70). -/
def execWindowGrowVisit (cl : Nat) (s : State) : Host.Outcome State Fault Refusal :=
  let c := getCl s cl
  match c.sweep with
  | some (.grow p q next) =>
    let w := p + next / 8192
    let set := next % 8192
    let full := c.wb.length ≥ 64 && (tagAt c w set).any (·.dirty)
    if next < 8192 * (q - p) ∧ c.sweepAt < s.t.now ∧ full = false then
      let c1 := match tagAt c w set with
        | some t => if t.dirty then enterWb (dropWay c w set) t true s.t.now else dropWay c w set
        | none => c
      .next (busyClear (setCl s cl { c1 with sweep := some (.grow p q (next + 1)) }) cl)
    else .next s
  | _ => .next s

/-- WINDOW_SHRINK_VISIT: the next line of a shrink sweep, once the older chunks have completed (R75 step 3). -/
def execWindowShrinkVisit (cl : Nat) (s : State) : Host.Outcome State Fault Refusal :=
  let c := getCl s cl
  match c.sweep with
  | some (.shrink p q next) =>
    if next < 8192 * (p - q) ∧ c.sweepAt < s.t.now ∧ (next ≠ 0 ∨ windowBusy s cl q p = false) then
      let a := windowBase + 0x1000000 * cl + 0x100000 * (q + next / 8192) + 128 * (next % 8192)
      let s := setCl s cl { c with sweep := some (.shrink p q (next + 1)) }
      .next (busyClear (clearMemory s a 128) cl)
    else .next s
  | _ => .next s

/-- WRITEBACK_ACK: an acknowledged entry leaves the buffer (R71). -/
def execWritebackAck (cl line : Nat) (s : State) : Host.Outcome State Fault Refusal :=
  match (getCl s cl).wb.find? (fun e => e.line = line && e.due.any (fun d => d ≤ s.t.now)) with
  | some e => .next (busyClear (modCl s cl (fun c => { c with wb := c.wb.erase e })) cl)
  | none => .next s

/-- REFRESH_SLOT: a refresh of the HBM; nothing that an agent can read changes (R78). -/
def execRefreshSlot (_pc : Nat) (s : State) : Host.Outcome State Fault Refusal := .next s

/-- TIMETABLE_SWITCH: at the end of the cycle before the switch, the shadows of a block become its live tables (R80). Blocks 0 to 9 are
clusters, 10 the HBM. -/
def execTimetableSwitch (blk : Nat) (s : State) : Host.Outcome State Fault Refusal :=
  if blk < 10 then
    if (getCl s blk).commitAt = some (s.t.now + 1) then
      .next (modCl s blk (fun c => { c with
        ptt := (List.range 8).foldl (fun m p => smPut m p (shadowOf s (8 * blk + p))) c.ptt, commitAt := none }))
    else .next s
  else if s.x.hbmCommit = some (s.t.now + 1) then
    .next { s with x := { s.x with htt := (List.range 256).foldl (fun m p => smPut m p (shadowOf s (1000 + p))) s.x.htt,
                                   hbmCommit := none } }
  else .next s

end Sys2Proof.Machine
end

