-- ==== Sys2Proof/Machine/Coherent.lean ====
section
/-! DEFINITION. Coherent accesses: logical clocks, stamps, leases, versions and their publication, chunk reads and writes,
rollover, and the accesses of application and firmware cores (R100 to R121). -/

namespace Sys2Proof.Machine

/-! ## Key material (R397, R398) -/

/-- The material of a key identifier: zero where the key stores plaintext. -/
def keyMat (s : State) (k : Nat) : BitVec 512 :=
  if (creg s (0x400 + 8 * k)).getLsbD 5 then 0 else smGet 0 s.h.keys k

/-- The material under which an address is reached: none outside HBM and the windows (R23, R397). -/
def matAt (s : State) (a k : Nat) : BitVec 512 :=
  if regionOf a = .hbm || regionOf a = .window then keyMat s k else 0

/-- A byte as it reads under a key's material: content written under another material is garbled. -/
def underKey (s : State) (mat : BitVec 512) (a : Nat) (b : Byte) : Byte :=
  match s.c.lineKeys.find? (fun p => p.1 = lineOf a) with
  | some (_, m) => if m = mat then b else Config.garble m mat a b
  | none => b

/-- Before a line is written in part under other material, the rest of it turns into what it reads as. -/
def reKey (s : State) (mat : BitVec 512) (line : Nat) : State :=
  match s.c.lineKeys.find? (fun p => p.1 = line) with
  | some (_, m) =>
    if m = mat then s
    else { s with c := { s.c with
      mem := (List.range 128).foldl (fun mem i => wrByte mem (128 * line + i) (Config.garble m mat (128 * line + i) (rdByte mem (128 * line + i)))) s.c.mem
      lineKeys := smPut s.c.lineKeys line mat } }
  | none => if mat = 0 then s else { s with c := { s.c with lineKeys := smPut s.c.lineKeys line mat } }

/-! ## Scopes and versions (R107, R110) -/

/-- Whether an agent is the context of a job with a rank, wherever that is placed (R119). -/
def isMember (s : State) (agent job rank : Nat) : Bool :=
  agent < 320 && (let j := (getCtx s (agent / 4) (agent % 4)).j; decide (j.job = some job) && j.rank = rank)

/-- Whether a version is published to an agent. -/
def publishedTo (s : State) (v : Version) (agent : Nat) : Bool :=
  v.pub.any (fun p => match p with
    | .member j k => isMember s agent j k
    | .core c => agent < 320 && agent / 4 = c
    | .cluster n => agent < 320 && agent / 32 = n)

/-- The byte that an agent's load returns: the newest version published to it (R110). Versions stand oldest first. -/
def seenByte (s : State) (agent a : Nat) : Byte :=
  match (s.c.versions.filter (fun v => publishedTo s v agent)).reverse.findSome? (fun v => (v.bytes.find? (fun b => b.1 = a)).map (·.2)) with
  | some b => b
  | none => rdByte s.c.mem a

/-- The newest byte, published or not. -/
def newestByte (s : State) (a : Nat) : Byte :=
  match s.c.versions.reverse.findSome? (fun v => (v.bytes.find? (fun b => b.1 = a)).map (·.2)) with
  | some b => b
  | none => rdByte s.c.mem a

/-- Store bytes that every agent sees: older versions of them are overtaken (R110). -/
def storeAll (s : State) (bs : List Host.Cell) : State :=
  { s with c := { s.c with
    mem := bs.foldl (fun m b => wrByte m b.1 b.2) s.c.mem
    versions := s.c.versions.map (fun v => { v with bytes := v.bytes.filter (fun b => !bs.any (fun x => x.1 = b.1)) }) } }

/-- A version becomes published to every agent: its bytes stand in memory and older versions of them are overtaken. -/
def mergeVersion (s : State) (id : Nat) : State :=
  match s.c.versions.find? (fun u => u.id = id) with
  | none => s
  | some v =>
    let older := (s.c.versions.takeWhile (fun u => u.id ≠ id)).map (fun u =>
      { u with bytes := u.bytes.filter (fun b => !v.bytes.any (fun x => x.1 = b.1)) })
    let newer := (s.c.versions.dropWhile (fun u => u.id ≠ id)).drop 1
    { s with c := { s.c with mem := v.bytes.foldl (fun m b => wrByte m b.1 b.2) s.c.mem, versions := older ++ newer } }

/-- The publication that a scope around a placement gives; none for every agent (R107). -/
def scopePub (cores : List Nat) (scope : BitVec 2) : Option (List Pub) :=
  if scope = 0 then some (cores.map .core)
  else if scope = 1 then some (cores.map (fun c => .cluster (clusterOf c)))
  else none

/-- Publish the versions that `f` picks at a scope around their placement. -/
def publish (s : State) (f : Version → Bool) (scope : BitVec 2) : State :=
  s.c.versions.foldl (fun s v =>
    if f v then
      match scopePub v.cores scope with
      | none => mergeVersion s v.id
      | some ps => { s with c := { s.c with versions := s.c.versions.map (fun u =>
          if u.id = v.id then { u with pub := u.pub ++ ps } else u) } }
    else s) s

/-- Publish the versions that `f` picks to some agents (R109, R111). -/
def publishTo (s : State) (f : Version → Bool) (ps : List Pub) : State :=
  { s with c := { s.c with versions := s.c.versions.map (fun v => if f v then { v with pub := (v.pub ++ ps).eraseDups } else v) } }

/-- Before a context leaves a position, what is published to it there goes with it: no agent returns a version older than one it has
returned (R107, R110). -/
def keepSeen (s : State) (c x : Nat) : State :=
  let p := (getCtx s c x).j
  match p.job with
  | some j => publishTo s (fun v => publishedTo s v (agentOf c x)) [.member j p.rank]
  | none => s

/-- A job comes to stand on further core positions: scopes around its placement take them in (R107). -/
def occupy (s : State) (job : Nat) (cores : List Nat) : State :=
  { s with c := { s.c with versions := s.c.versions.map (fun v => if v.job = some job then { v with cores := (v.cores ++ cores).eraseDups } else v) } }

/-! ## Clocks (R103, R105) -/

/-- The largest clock or stamp in the part (R121). -/
def clkMax (s : State) : Nat :=
  let a := s.c.stamps.foldl (fun m p => max m p.2.rts) 0
  let a := s.c.agentClk.foldl (fun m p => max m p.2) a
  let a := s.f.queues.foldl (fun m p => max m p.2.clock) a
  let a := s.f.jobs.foldl (fun m p => p.2.image.foldl (fun m i => max m i.ctx.lc) m) a
  s.cores.foldl (fun m p => p.2.ctxs.foldl (fun m q => max m q.2.lc) m) a

/-- CLKMAX reaching 2^46 posts the clock event once; reaching 2^47 requests a rollover (R106). -/
def clockEvent (s : State) : State :=
  let m := clkMax s
  let s := if m ≥ 2 ^ 46 ∧ ¬ s.c.clkPosted then
      let s := { s with c := { s.c with clkPosted := true } }
      postEvent s 5 none 0 m
    else s
  if m ≥ 2 ^ 47 ∧ s.c.rollReq = none ∧ s.c.rollEnd = none then
    { s with c := { s.c with rollReq := some (s.t.now + 64 - s.t.now % 64) } }
  else s

/-- Set the clock of an agent. -/
def setAgentClock (s : State) (agent v : Nat) : State :=
  if agent < 320 then modCtx s (agent / 4) (agent % 4) (fun x => { x with lc := v })
  else if agent < 348 then { s with c := { s.c with agentClk := smPut s.c.agentClk agent v } }
  else match agentStream s agent with
    | some q => modQ s q (fun q => { q with clock := v })
    | none => s

/-- Raise a clock, and note the timestamp that an access took (R111). -/
def raiseClock (s : State) (agent v : Nat) : State := setAgentClock s agent (max (agentClock s agent) v)
def noteTs (s : State) (agent v : Nat) : State :=
  if agent < 320 then modCtx s (agent / 4) (agent % 4) (fun x => { x with maxTs := max x.maxTs v }) else s

/-! ## Stamps and leases (R103) -/

def stampOf (s : State) (line : Nat) : Stamp := smGet {} s.c.stamps line
def setStamp (s : State) (line : Nat) (v : Stamp) : State := { s with c := { s.c with stamps := smPut s.c.stamps line v } }
/-- CLEASE.LEN (R121). -/
def leaseLen (s : State) : Nat := cfield s 0x20F060 7 0

/-- A byte of a leased copy: of the version that the copy was granted on, as far as it is published to the agent by now (R103, R110). -/
def leasedByte (s : State) (agent : Nat) (l : Lease) (a : Nat) : Byte :=
  let open_ (v : Version) : Bool := match s.c.versions.find? (fun u => u.id = v.id) with
    | some u => publishedTo s u agent
    | none => true
  match (l.vers.filter open_).reverse.findSome? (fun v => (v.bytes.find? (fun b => b.1 = a)).map (·.2)) with
  | some b => b
  | none => l.base.extractLsb' (8 * (a % 128)) 8

/-- A lease on the current version of a line, valid to `rts` (R103). -/
def grantLease (s : State) (agent line rts : Nat) : Lease × State :=
  let l : Lease := { holder := holderOf agent, line, wts := (stampOf s line).wts, rts
                     base := BitVec.ofNat 1024 (leNat (fun a => (rdByte s.c.mem a).toNat) (128 * line) 128)
                     vers := (s.c.versions.map (fun v => { v with bytes := v.bytes.filter (fun b => lineOf b.1 = line), pub := [] })).filter
                       (fun v => v.bytes ≠ []) }
  let s := setStamp s line { stampOf s line with rts }
  (l, { s with c := { s.c with leases := l :: s.c.leases.filter (fun m => !(m.holder = l.holder && m.line = line)) } })

/-- The time of a load of some lines at clock `lc`: above the leased copies that it met on its way, and above the versions of the other
lines at their home (R103, R108). -/
def loadTime (s : State) (lc : Nat) (met : List Met) (lines : List Nat) : Nat :=
  lines.foldl (fun t n => max t (match met.find? (fun m => m.copy.line = n) with
    | some m => m.copy.wts
    | none => (stampOf s n).wts)) lc
/-- Whether a leased copy that a load met ends before the load's time: the load then goes to the lines' home (R103). -/
def metStale (s : State) (lc : Nat) (met : List Met) (lines : List Nat) : Bool :=
  met.any (fun m => decide (m.copy.rts < loadTime s lc met lines))

/-- The load part of R103 for some lines at clock `lc`, at one time: the leased copies that it met on its way, or new ones at the
lines' home. The time, the byte as the agent reads it, and the state. -/
def loadLines (s : State) (agent lc : Nat) (met : List Met) (lines : List Nat) : Nat × (Nat → Byte) × State :=
  let old := if metStale s lc met lines then [] else met
  let t := loadTime s lc old lines
  let home := lines.filter (fun n => !old.any (fun m => m.copy.line = n))
  (t, fun a => match old.find? (fun m => m.copy.line = lineOf a) with
      | some m => leasedByte s agent m.copy a
      | none => seenByte s agent a,
   home.foldl (fun s n => (grantLease s agent n (max (stampOf s n).rts (t + leaseLen s))).2) s)

/-- The timestamp of a store to a line at clock `lc` (R103), and the stamps of the new version. -/
def storeStamp (s : State) (lc line : Nat) : Nat × State :=
  let ts := max (lc + 1) ((stampOf s line).rts + 1)
  (ts, setStamp s line { wts := ts, rts := ts })

/-! ## Coherent accesses (R101 to R103, R318, R319) -/

/-- The result of an atomic: its new word (R319). -/
def atomicNew (k : AccKind) (w : Nat) (old : Nat) : Nat :=
  match k with
  | .load => old
  | .store v => v.toNat % 2 ^ w
  | .aadd v => (old + v.toNat) % 2 ^ w
  | .aswap v => v.toNat % 2 ^ w
  | .acas c v => if old = c.toNat % 2 ^ w then v.toNat % 2 ^ w else old
  | .amin v => if sgn w v.toNat < sgn w old then v.toNat % 2 ^ w else old
  | .amax v => if sgn w old < sgn w v.toNat then v.toNat % 2 ^ w else old
  | .aand v => Nat.land old (v.toNat % 2 ^ w)
  | .aor v => Nat.lor old (v.toNat % 2 ^ w)

/-- A poisoned line is consumed by the access that reads it (R370). -/
def poisoned (s : State) (a : Nat) : Bool := smGet false s.c.poison (lineOf a)

/-- One coherent access of `2^lw` bytes at a physical address, performed now at the line's home by an agent with clock
`lc`: the word read, its time, and the state. A word reads as a little-endian number. -/
def performAccess (s : State) (agent lc a : Nat) (lw : Nat) (k : AccKind) (mat : BitVec 512) (met : List Met := []) : Nat × Nat × State :=
  let n := 2 ^ lw
  let line := lineOf a
  match k with
  | .load =>
    let (t, d, s) := loadLines s agent lc met [line]
    let v := leNat (fun x => (underKey s mat x (d x)).toNat) a n
    (v, t, s)
  | .store _ =>
    let s := reKey s mat line
    let (ts, s) := storeStamp s lc line
    let v := atomicNew k (8 * n) 0
    (0, ts, storeAll s ((List.range n).map (fun i => (a + i, BitVec.ofNat 8 (v / 256 ^ i)))))
  | k =>
    let s := reKey s mat line
    let old := leNat (fun x => (newestByte s x).toNat) a n
    let s := (List.range n).foldl (fun s i =>
      match s.c.versions.reverse.find? (fun v => v.bytes.any (fun b => b.1 = a + i)) with
      | some v => mergeVersion s v.id
      | none => s) s
    let (ts, s) := storeStamp s lc line
    let v := atomicNew k (8 * n) old
    (old, ts, storeAll s ((List.range n).map (fun i => (a + i, BitVec.ofNat 8 (v / 256 ^ i)))))

/-- A whole coherent access of an agent: the clock takes the access's time, and never falls. -/
def agentAccess (s : State) (agent a : Nat) (lw : Nat) (k : AccKind) (mat : BitVec 512) (met : List Met := []) : Nat × State :=
  let (v, t, s) := performAccess s agent (agentClock s agent) a lw k mat met
  (v, clockEvent (noteTs (raiseClock s agent t) agent t))

/-! ## Chunks of engines (R108) -/

/-- Read bytes of a chunk as one load of its two lines at clock `clk`: the byte function, the time and the state. -/
def chunkRead (s : State) (agent clk a : Nat) (mat : BitVec 512) (met : List Met) : (Nat → Nat) × Nat × State :=
  let (t, d, s1) := loadLines s agent clk met [lineOf a, lineOf a + 1]
  (fun x => (underKey s mat x (if lineOf x = lineOf a || lineOf x = lineOf a + 1 then d x else seenByte s agent x)).toNat, t, s1)

/-- Write a chunk's bytes as one version of its lines, above clock `clk`, published to nobody yet (R108, R110). Bytes under
a partial mask keep the rest of the version that they replace (R87). -/
def chunkWrite (s : State) (v : Version) (clk frame : Nat) (bytes : SMap (BitVec 16)) (mat : BitVec 512) (all : Bool) : Nat × State :=
  let lines := (bytes.map (fun p => lineOf (frame + p.1))).eraseDups
  let ts := lines.foldl (fun t l => max t ((stampOf s l).rts + 1)) (clk + 1)
  let s := lines.foldl (fun s l => setStamp (reKey s mat l) l { wts := ts, rts := ts }) s
  let bs : List Host.Cell := bytes.map (fun p =>
    let m := p.2.toNat / 256
    (frame + p.1, BitVec.ofNat 8 (Nat.lor (Nat.land (newestByte s (frame + p.1)).toNat (255 - m)) (p.2.toNat % 256))))
  if all then (ts, clockEvent (storeAll s bs))
  else
    let (id, s) := newId s
    (ts, clockEvent { s with c := { s.c with versions := s.c.versions ++ [{ v with id, ts, bytes := bs }] } })

/-! ## Accesses from outside the clusters (R77, R100, R392) -/

/-- The addresses whose lines an access needs. -/
def outsideAddrs (o : OutsideOp) : List Nat :=
  match o with
  | .word a => [a.addr]
  | .bytes q _ => (List.range ((q.addr + q.len - 1) / 128 - q.addr / 128 + 1)).map (fun i => 128 * (q.addr / 128 + i))
/-- Whether it loads. -/
def outsideLoads (o : OutsideOp) : Bool :=
  match o with
  | .word a => a.kind == .load
  | .bytes q _ => !q.write

/-- An access joins those under way; its answer comes with its number. -/
def setOut (s : State) (agent part : Nat) (o : OutsideOp) : State :=
  let (k, s) := newId s
  respond { s with x := { s.x with outside := s.x.outside ++ [{ id := k, agent, part, op := o }] } } (.begun k)

/-- What an access does at its lines' home: the word or bytes read, and the state. -/
def performOutside (s : State) (agent : Nat) (o : OutsideOp) (met : List Met) : Response × State :=
  match o with
  | .word a =>
    let (v, s) := agentAccess s agent a.addr a.lw.toNat a.kind 0 met
    (.value (BitVec.ofNat 2048 v), s)
  | .bytes q key =>
    let mat := matAt s q.addr key
    if q.write then
      let bytes : SMap (BitVec 16) := (List.range q.len).map (fun i => (q.addr % frameBytes + i, BitVec.ofNat 16 (q.data.toNat / 256 ^ i % 256 + 255 * 256)))
      (.ok, (chunkWrite s { ts := 0, bytes := [] } 0 (q.addr / frameBytes * frameBytes) bytes mat true).2)
    else
      let (_, d, s) := loadLines s agent 0 met ((outsideAddrs o).map lineOf)
      (.bytes ((List.range q.len).map (fun i => underKey s mat (q.addr + i) (d (q.addr + i)))), clockEvent s)

/-- One access under way: it takes its path once those of its agent before it are done, and is performed where the path ends (R102, R103). -/
def stepOutside (s : State) (o : Outside) : State :=
  let put (f : List Outside → List Outside) (s : State) : State := { s with x := { s.x with outside := f s.x.outside } }
  if (s.x.outside.find? (fun p => p.agent = o.agent)).map (·.id) ≠ some o.id then s
  else match o.tick with
    | none =>
      let load := if outsideLoads o.op then some (o.agent, if o.agent < 348 then none else some 0) else none
      let (k, s) := startPath s o.part none s.t.now load (outsideAddrs o.op) o.agent
      put (fun l => l.map (fun p => if p.id = o.id then { p with tick := some k } else p)) s
    | some k =>
      if !arrived s k then s
      else
        let met := (smGet {} s.x.tickets k).met
        let s := dropTicket s k
        let clk := if o.agent < 348 then agentClock s o.agent else 0
        if outsideLoads o.op && metStale s clk met ((outsideAddrs o.op).map lineOf) then
          let (k, s) := startPath s o.part none s.t.now none (outsideAddrs o.op) o.agent
          put (fun l => l.map (fun p => if p.id = o.id then { p with tick := some k } else p)) s
        else
          let (r, s) := performOutside s o.agent o.op met
          let s := put (fun l => l.filter (fun p => p.id ≠ o.id)) s
          { s with answers := s.answers ++ [(o.id, r)] }

/-- Every access from outside the clusters goes on. -/
def stepOutsides (s : State) : State := s.x.outside.foldl stepOutside { s with answers := [] }

/-! ## Rows -/

/-- CLOCK_ADVANCE: each placed context, stream engine and firmware core adds 1 to its clock (R105). -/
def execClockAdvance (s : State) : Host.Outcome State Fault Refusal :=
  let cores := smMap (fun _ (k : Core) => { k with ctxs := smMap (fun _ (v : Ctx) =>
    if v.status = .free then v else { v with lc := v.lc + 1 }) k.ctxs }) s.cores
  let queues := smMap (fun _ (q : Queue) => if q.eng.isSome then { q with clock := q.clock + 1 } else q) s.f.queues
  let fw := (List.range 12).foldl (fun m i => smPut m (336 + i) (smGet 0 m (336 + i) + 1)) s.c.agentClk
  .next (clockEvent { s with cores, f := { s.f with queues }, c := { s.c with agentClk := fw, advAt := s.t.now + max 1 (cfield s 0x20F068 11 0) } })

/-- ROLLOVER_START: no slot is taken from here for 128 cycles, leases are dropped, every stamp and clock is 0 (R106). -/
def execRolloverStart (s : State) : Host.Outcome State Fault Refusal :=
  if s.c.rollReq = some s.t.now then
    let zero (v : Ctx) : Ctx := { v with lc := 0, maxTs := 0 }
    let cores := smMap (fun _ (k : Core) => { k with ctxs := smMap (fun _ v => zero v) k.ctxs }) s.cores
    let queues := smMap (fun _ (q : Queue) => { q with clock := 0, coaches := q.coaches.map (fun c => { c with maxTs := 0 }) }) s.f.queues
    let jobs := smMap (fun _ (j : Job) => { j with clk0 := 0, clk := 0, image := j.image.map (fun m => { m with ctx := zero m.ctx }) }) s.f.jobs
    let reqs := smMap (fun _ (r : Req) => { r with clk := 0, maxTs := 0 }) s.x.reqs
    let s := giveBack s s.t.now
    .next { s with
      cores, f := { s.f with queues, jobs }, x := { s.x with reqs }
      c := { s.c with leases := [], stamps := [], agentClk := [], rollReq := none, rollEnd := some (s.t.now + 127)
                      clkPosted := false, versions := s.c.versions.map (fun v => { v with ts := 0 }) } }
  else .next s

/-- ROLLOVER_END: EPOCH counts (R106). -/
def execRolloverEnd (s : State) : Host.Outcome State Fault Refusal :=
  if s.c.rollEnd = some s.t.now then
    .next { s with c := { s.c with rollEnd := none, epoch := (s.c.epoch + 1) % 2 ^ 32 } }
  else .next s

end Sys2Proof.Machine
end

