-- ==== Sys2Proof/Machine/Translate.lean ====
section
/-! DEFINITION. Layout units: their caches, holds, the checks of a chunk, faults, parking, invalidation and watches
(R84 to R97). -/

namespace Sys2Proof.Machine

/-! ## Requests -/

/-- The layout unit of a request (R84). -/
def unitOf (r : Req) : Nat := match r.fe with
  | some e => 160 + e
  | none => 2 * r.core + r.port
/-- The cluster port that a request uses; none for spine engines (R77). -/
def portOf (r : Req) : Option Nat := if r.fe.isSome then none else some (clusterOf r.core)
/-- The agent whose reads its chunks are (R100, R113). -/
def reqAgent (s : State) (r : Req) : Nat := match r.fe with
  | some _ => streamAgent s r.queue
  | none => agentOf r.core r.ctx
/-- The rank of a request among those that arrive at a timetable in one cycle: C0 before C1, then by agent (R76). -/
def reqOrd (s : State) (r : Req) : Nat := 1024 * r.port + reqAgent s r
/-- Whether a request's chunks write memory, by side. -/
def writesMem (r : Req) (side : Bool) : Bool :=
  match r.kind with
  | .copyo => true
  | .copyn => (match r.nest with
    | some n => (nestOf n).dir = 1
    | none => false)
  | .tfill => true
  | .tcopy => side
  | .fill => side
  | .gst => true
  | .aadd => true
  | .aswap => true
  | .acas => true
  | .amin => true
  | .amax => true
  | .aand => true
  | .aor => true
  | .tsig => true
  | _ => false
/-- Whether a request is a coherent access of one word (R318, R319). -/
def isAccess (k : ReqKind) : Bool :=
  match k with
  | .gld => true
  | .gst => true
  | .aadd => true
  | .aswap => true
  | .acas => true
  | .amin => true
  | .amax => true
  | .aand => true
  | .aor => true
  | .tsig => true
  | .twait => true
  | .tldq => true
  | _ => false
/-- The tensor of a side. -/
def tidOf (r : Req) (side : Bool) : Nat := if side then r.dstTid else r.tid

/-! ## Descriptor cache (R85) -/

/-- The descriptor that a unit holds. -/
def descIn (s : State) (u tid : Nat) : Option Desc := ((getUnit s u).descs.find? (fun d => d.tid = tid)).map (fun d => descOf d.img)

/-- A use of a cached descriptor makes it the most recent. -/
def touchDesc (s : State) (u tid : Nat) : State :=
  modUnit s u (fun v => match v.descs.find? (fun d => d.tid = tid) with
    | some d => { v with descs := d :: v.descs.filter (fun e => e.tid ≠ tid) }
    | none => v)

/-- DTBASE (R25). -/
def dtBase (s : State) : Nat := bitsN (creg s 0).toNat 51 22 * 2 ^ 22
/-- The image of a descriptor in memory. -/
def descImage (s : State) (tid : Nat) : BitVec 512 :=
  BitVec.ofNat 512 (leNat (fun a => (newestByte s a).toNat) (dtBase s + 64 * tid) 64)

/-- Whether a unit is reading a descriptor or acquiring a hold: it makes these one after the other (R85). -/
def unitBusy (s : State) (u : Nat) : Bool := (getUnit s u).fetch.isSome || s.x.reqs.any (fun p => p.2.acq.isSome && unitOf p.2 = u)
/-- The cycle from which a request's reads count: a core's access that meets its caches in the cycle after its issue is counted from
its issue (R76). -/
def sendFrom (s : State) (r : Req) : Nat := if isAccess r.kind && (portOf r).isSome && s.t.now = r.issued + 1 then r.issued else s.t.now

/-- Start the read of a missing descriptor in cycle `t`, one at a time for a unit. -/
def startDesc (s : State) (u tid : Nat) (part : Nat) (cl : Option Nat) (t : Nat) : State :=
  if unitBusy s u then s
  else
    let a := dtBase s + 64 * tid
    let (k, s) := startPath s part cl t none [a]
    modUnit s u (fun v => { v with fetch := some (tid, k) })

/-! ## Holds (R86) -/

/-- The 16 bytes of a tile-table entry. -/
def readEntry (s : State) (a : Nat) : BitVec 128 := BitVec.ofNat 128 (leNat (fun x => (newestByte s x).toNat) a 16)
/-- Write one byte of an entry. -/
def writeEntryByte (s : State) (a i v : Nat) : State := storeAll s [(a + i, BitVec.ofNat 8 v)]
/-- The part's update of RDCNT, byte 13 (R30). -/
def rdCount (s : State) (a : Nat) (f : Nat → Nat) : State := writeEntryByte s a 13 (f (entRd (readEntry s a)))
/-- The part's update of MIG, byte 12. -/
def setMig (s : State) (a m : Nat) : State := writeEntryByte s a 12 m

def tileIn (s : State) (u tid tile : Nat) : Option TileEnt := (getUnit s u).tiles.find? (fun e => e.tid = tid && e.tile = tile)
def modTile (s : State) (u tid tile : Nat) (f : TileEnt → TileEnt) : State :=
  modUnit s u (fun v => { v with tiles := v.tiles.map (fun e => if e.tid = tid ∧ e.tile = tile then f e else e) })
/-- Drop a cached entry and release its hold. -/
def dropTile (s : State) (u : Nat) (e : TileEnt) : State :=
  rdCount (modUnit s u (fun v => { v with tiles := v.tiles.filter (fun x => !(x.tid = e.tid && x.tile = e.tile)) })) e.addr (· - 1)

/-- Whether an invalidation under way takes an entry (R94, R95). -/
def invHits (s : State) (tid tile addr : Nat) : Bool :=
  match s.x.inv with
  | some (.ident t) => t = tid
  | some (.range t a b) => t = tid && a ≤ tile && tile ≤ b
  | some .all => true
  | none => s.x.flip.any (fun f => f.entry = addr && f.phase = 2 && f.toHost)
/-- Whether a chunk must wait before it uses an entry (R95, R96, R398); the key of a host or peer frame is ignored (R23, R88). -/
def mustWait (s : State) (tid tile addr : Nat) (img : BitVec 128) : Bool :=
  invHits s tid tile addr || s.x.drains.contains addr || (s.h.kclr = some (entKey img) && !entHost img && !entPeer img)

/-- Whether the invalidation under way takes a descriptor (R94, R95). -/
def invDesc (s : State) (tid : Nat) : Bool :=
  match s.x.inv with
  | some (.ident t) => t = tid
  | some .all => true
  | _ => false

/-- Whether a unit has a chunk in flight on a tensor. -/
def inFlight (u : LUnit) (tid : Nat) : Bool := u.tiles.any (fun e => e.tid = tid && 0 < e.inflight)

/-- Drop the descriptors that an invalidation takes, once no chunk translated with them is in flight (R95). -/
def dropDescs (s : State) : State :=
  if s.x.inv.isNone then s
  else { s with x := { s.x with lunits := smMap (fun _ (u : LUnit) =>
    { u with descs := u.descs.filter (fun d => !invDesc s d.tid || inFlight u d.tid) }) s.x.lunits } }

/-- Drop the idle entries that an invalidation, a drain request or a revocation takes (R95, R96, R398). -/
def dropIdle (s : State) : State :=
  if s.x.inv.isNone && s.x.drains.isEmpty && s.h.kclr.isNone && s.x.flip.isNone then s
  else (dropDescs s).x.lunits.foldl (fun s p => (getUnit s p.1).tiles.foldl (fun s e =>
    if e.inflight = 0 ∧ mustWait s e.tid e.tile e.addr e.img = true then dropTile s p.1 e else s) s) (dropDescs s)

/-! ## The checks of a chunk (R31) -/

/-- The requests that may carry a chunk to a peer (R32). -/
def mayGoPeer (k : ReqKind) : Bool := k = .copy || k = .copyo || k = .copyn || k = .wfill || k = .tcopy

/-- The first failing check of R31 on an image, as its cause of R89. Cause 12 stands after checks 1 to 4, and in the place of checks 5
to 9, which are the peer's (R32; the model's choice, in the assumption log). -/
def entryCheck (s : State) (r : Req) (d : Desc) (e : BitVec 128) (write : Bool) : Option Nat :=
  let f := entFrame e
  let a := f * frameBytes
  let g := regionOf a
  let kown := (creg s (0x400 + 8 * entKey e)).toNat
  if !entRsv e || entMig e = 3 || (entCC e = 3 && d.ccl = 3) then some 3
  else if !entP e then some 4
  else if entOwner e ≠ r.part.toNat then some 5
  else if write && !entWR e then some 6
  else if entPeer e then (if mayGoPeer r.kind then none else some 12)
  else if g = .reserved || g = .control then some 7
  else if secureFrame s f && !r.secure then some 8
  else if (g = .hbm || g = .window) && !(s.h.kvalid.getLsbD (entKey e) && bitsN kown 3 0 = entOwner e) then some 9
  else if g = .hbm && smGet false s.x.bias f != entBias e then some 10
  else if g = .window && decide ((windowOf a).2 ≥ 0x100000 * (getCl s (windowOf a).1).present) then some 11
  else none

/-! ## Faults and parking (R90, R91) -/

/-- The fault ring's entries. -/
def frSize (s : State) : Nat := 2 ^ cfield s 0x20F030 63 56
/-- Whether the fault ring and the park table take another request. -/
def parkRoom (s : State) : Bool :=
  s.x.park.length < 512 && (s.x.frTail + 1) % frSize s ≠ cfield s 0x20F040 11 0

/-- Frame bytes that a whole tile of a format uses, in chunks (R28). -/
def tileChunks (fmt : Nat) : Nat := if fmt = 8 then 33 else if fmt = 9 then 35 else 64

/-- The ordinal of the next chunk, the progress cursor; over all the tiles of a fill (R91). -/
def cursorOf (s : State) (r : Req) : Nat :=
  match r.kind with
  | .tfill => r.iter * tileChunks (((descIn s (unitOf r) r.tid).map (·.fmt)).getD 0) + r.ord
  | .fill => r.iter * 128 + r.ord
  | _ => r.ord

/-- The bytes of a fault record (R91). -/
def faultRecord (s : State) (r : Req) (f : FaultAt) (place : Nat) : Nat :=
  let agent := match r.fe with
    | some e => 0x8000 + e
    | none => r.core + 128 * r.ctx + 512 * r.port
  let idx := if r.kind = .copyn then splitIdx ((r.nest.map (fun n => (nestOf n).counts)).getD [1, 1, 1, 1, 1, 1]) r.iter
    else [0, 0, 0, 0, 0, 0]
  let flags := (if f.write then 1 else 0) + (if r.kind = .copyn then 2 else 0) + (if f.peer then 4 else 0) + (if r.kind = .tcopy then 8 else 0)
  let copy := match r.kind with
    | .copy => true
    | .copyo => true
    | .copyn => true
    | .wfill => true
    | _ => false
  let stile := match r.kind with
    | .copy => r.tile - (getCtx s r.core r.ctx).j.tbase
    | .copyo => r.tile - (getCtx s r.core r.ctx).j.tbase
    | .copyn => r.tile - (getCtx s r.core r.ctx).j.tbase
    | _ => 0xFFFF
  f.cause + flags * 2 ^ 8 + agent * 2 ^ 16 + tidOf r f.side * 2 ^ 32 + r.part.toNat * 2 ^ 48
  + f.tile % 2 ^ 32 * 2 ^ 64 + f.idx * 2 ^ 96 + (if copy then r.ctr else 0xFF) * 2 ^ 104 + stile * 2 ^ 112
  + packN32 idx * 2 ^ 128
  + cursorOf s r * 2 ^ 320 + (if r.fe.isSome then r.coach else r.baddr.toNat) * 2 ^ 352
  + timebase s % 2 ^ 64 * 2 ^ 384 + place * 2 ^ 448
where
  /-- Six 32-bit numbers, the first lowest. -/
  packN32 : List Nat → Nat
    | [] => 0
    | n :: l => n % 2 ^ 32 + 2 ^ 32 * packN32 l

/-- Store a little-endian number of `n` bytes as the part's own write: every agent sees it. -/
def partWrite (s : State) (a v n : Nat) : State :=
  storeAll s ((List.range n).map (fun i => (a + i, BitVec.ofNat 8 (v / 256 ^ i))))

/-- A request leaves its port's queue. -/
def unqueue (s : State) (id : Nat) : State :=
  modUnit s (unitOf (getReq s id)) (fun u => if u.queue.contains id then { u with queue := u.queue.filter (· ≠ id) } else u)

/-- A request that stops releases the holds that it alone kept in use (R90): idle entries of its tensors that no other running
request of its unit uses. -/
def releaseHolds (s : State) (id : Nat) : State :=
  let r := getReq s id
  let u := unitOf r
  let mine (tid : Nat) : Bool := tid = r.tid || (r.dstTid ≠ 0 && tid = r.dstTid)
  let shared (tid : Nat) : Bool := s.x.reqs.any (fun p => p.1 ≠ id && unitOf p.2 = u && (p.2.tid = tid || p.2.dstTid = tid)
    && (p.2.st = .running || p.2.st = .accepting || p.2.st = .stopped))
  (getUnit s u).tiles.foldl (fun s e => if e.inflight = 0 ∧ mine e.tid = true ∧ shared e.tid = false then dropTile s u e else s) s

/-- The request takes a place in the park table, writes its record and posts the event (R90, R91). -/
def parkNow (s : State) (id : Nat) (f : FaultAt) : State :=
  let r := getReq s id
  let place := ((List.range 512).find? (fun p => !s.x.park.any (fun q => q.1 = p))).getD 0
  let idx := s.x.frTail
  let base := bitsN (creg s 0x20F030).toNat 51 6 * 64
  let s := partWrite s (base + 64 * idx) (faultRecord s r f place) 64
  let s := { s with x := { s.x with frTail := (idx + 1) % frSize s, park := s.x.park ++ [(place, id)] } }
  let s := setReq s id { r with st := .parked, place, acq := none, replaying := false, frIdx := idx }
  let key := if r.fe.isSome then some r.queue else queueOf s (getCtx s r.core r.ctx)
  postEvent s 1 key r.part idx

/-- A request's fault at its cursor: it leaves its port's queue and its holds, and parks, or waits for room (R90). Of a prefetch only
the chunk is dropped, without a record (R320). -/
def faultReq (s : State) (id : Nat) (f : FaultAt) : State :=
  let r := getReq s id
  if r.kind = .pref then setReq s id { r with ord := r.ord + 1, acq := none }
  else
    let s := releaseHolds (unqueue (setReq s id { r with acq := none }) id) id
    if parkRoom s && eventRoom s then parkNow s id f
    else setReq s id { getReq s id with st := .waitPark f, replaying := false }

/-- A request faults as a whole, with cause 1, 2 or 14: it stops at ordinal 0 of its iteration (R89); a prefetch ends. -/
def faultWhole (s : State) (id : Nat) (f : FaultAt) : State :=
  let r := getReq s id
  if r.kind = .pref then
    let s := unqueue s id
    if r.chunks.any (fun c => !c.done) then setReq s id { r with st := .stopped, acq := none } else dropReq s id
  else faultReq (setReq s id { r with ord := 0, chunks := r.chunks.filter (fun c => c.iter ≠ r.iter || !c.done)
                                      rows := r.rows.filter (fun q => q.1 ≠ r.iter) }) id f

/-- What a request's next chunk is: side, tile and index in the frame; none when nothing is left in the iteration. -/
structure NextChunk where
  side : Bool
  tile : Nat
  idx : Nat
  deriving DecidableEq, Repr

/-! ## Watches (R97) -/

/-- Whether a candidate is a hit, its first granule, and whether a context is to stop. -/
def watchHit (s : State) (tid tile : Nat) (write : Bool) (grans : List Nat) : Option (Nat × Bool) :=
  let fs := (List.range 8).filter (fun f =>
    let c := (creg s (0x401000 + 64 * f)).toNat
    bitN c 48 && bitsN c 15 0 = tid && bitsN c 47 16 = tile)
  if fs = [] then (grans.head?).map (fun g => (g, true))
  else
    let ms := fs.filter (fun f => bitN (creg s (0x401000 + 64 * f)).toNat (if write then 50 else 49))
    let hit (g : Nat) : Bool := ms.any (fun f => bitN (creg s (0x401020 + 64 * f)).toNat g)
    (grans.find? hit).map (fun g => (g, ms.any (fun f => bitN (creg s (0x401000 + 64 * f)).toNat 51)))

/-- A watch candidate: the event, the record and the trap owed (R97, R379). -/
def watchChunk (s : State) (r : Req) (tid tile : Nat) (write : Bool) (grans : List Nat) : State :=
  match watchHit s tid tile write grans with
  | none => s
  | some (g, stop) =>
    let agent := match r.fe with
      | some e => 0x1F8 + e
      | none => agentOf r.core r.ctx
    let key := if r.fe.isSome then some r.queue else queueOf s (getCtx s r.core r.ctx)
    let s := bvRecord s 8 key (agent + r.slot * 2 ^ 9 + g * 2 ^ 12 + (if write then 2 ^ 18 else 0) + tid * 2 ^ 32 + tile % 2 ^ 32 * 2 ^ 48)
    let s := bvStopOnEvent s 2
    let s := postEvent s 4 key r.part (Config.eventData 4 [tile, g, agent]).toNat
    if stop && r.fe.isNone then modCtx s r.core r.ctx (fun v => if v.j.job = r.job then { v with watchPending := some (g, r.slot, r.baddr) } else v) else s

/-! ## Descriptor returns and hold acquisitions -/

/-- DESCRIPTOR_FETCH_RETURN: the descriptor enters the unit's cache, the least recent of sixteen leaving (R85). -/
def execDescriptorFetchReturn (unit : Nat) (s : State) : Host.Outcome State Fault Refusal :=
  match (getUnit s unit).fetch with
  | some (tid, k) =>
    if landsNow s k then
      let e : DescEnt := { tid, img := descImage s tid }
      .next (modUnit (dropTicket s k) unit (fun v => { v with descs := (e :: v.descs.filter (fun x => x.tid ≠ tid)).take 16, fetch := none }))
    else .next s
  | none => .next s

/-- Start a hold acquisition for an entry, or fault where its address or path forbids one (R86, R76). -/
def startHold (s : State) (id a : Nat) (f : FaultAt) : State :=
  let r := getReq s id
  let g := regionOf a
  if g = .reserved ∨ g = .control then faultReq s id { f with cause := 3 }
  else if lineReach s r.part.toNat (portOf r) a then
    let (k, s) := startPath s r.part.toNat (portOf r) (sendFrom s r) none [a] (reqOrd s r)
    setReq s id { r with acq := some k }
  else faultReq s id { f with cause := 5 }

/-- Another try at the entry, at the partition's next slot (R86). -/
def retryHold (s : State) (id a : Nat) : State :=
  let r := getReq s id
  let (k, s) := startAgain s r.part.toNat a (reqOrd s r)
  setReq s id { r with acq := some k }

/-- Acquire a hold on an entry once its read-modify-write reaches it (R86). -/
def acquire (s : State) (id : Nat) (d : Desc) (n : NextChunk) (write : Bool) : State :=
  let r := getReq s id
  let u := unitOf r
  let a := d.ttb + 16 * n.tile
  let tid := tidOf r n.side
  let e := readEntry s a
  let f : FaultAt := { cause := 0, tile := n.tile, idx := n.idx, write, side := n.side }
  match r.acq with
  | none => s
  | some k =>
    if !landsNow s k then s
    else
      let s := dropTicket s k
      if (descIn s u tid).isNone then setReq s id { r with acq := none }
      else match entryCheck s r d e write with
      | some c => faultReq s id { f with cause := c }
      | none =>
        if entMig e ≠ 0 ∨ entRd e = 255 ∨ s.x.drains.contains a = true ∨ mustWait s tid n.tile a e = true then retryHold s id a
        else
          let v := getUnit s u
          let victim := v.tiles.reverse.find? (fun x => x.inflight = 0)
          if v.tiles.length ≥ 64 ∧ victim = none then retryHold s id a
          else
            let s := if v.tiles.length ≥ 64 then (match victim with
              | some x => dropTile s u x
              | none => s) else s
            let s := rdCount s a (· + 1)
            let ent : TileEnt := { tid, tile := n.tile, addr := a, img := readEntry s a, lastUse := s.t.now }
            let s := modUnit s u (fun v => { v with tiles := ent :: v.tiles })
            setReq s id { r with acq := none }

/-- HOLD_IDLE_EXPIRY: entries of a unit with no chunk in flight for 64 cycles release their holds (R86). -/
def execHoldIdleExpiry (unit : Nat) (s : State) : Host.Outcome State Fault Refusal :=
  .next ((getUnit s unit).tiles.foldl (fun s e =>
    if e.inflight = 0 ∧ e.lastUse + 64 ≤ s.t.now then dropTile s unit e else s) s)

/-- A chunk through an entry begins or ends. -/
def chunkBegins (s : State) (u tid tile : Nat) : State :=
  let s := modTile s u tid tile (fun e => { e with inflight := e.inflight + 1 })
  modUnit s u (fun v => match v.tiles.find? (fun e => e.tid = tid && e.tile = tile) with
    | some e => { v with tiles := e :: v.tiles.filter (fun x => !(x.tid = tid && x.tile = tile)) }
    | none => v)
def chunkEnds (s : State) (u tid tile : Nat) : State :=
  dropIdle (modTile s u tid tile (fun e => { e with inflight := e.inflight - 1, lastUse := s.t.now }))
/-- The same for a chunk of a request, which keeps no hold in use once it has parked (R90). -/
def reqChunkEnds (s : State) (id tid tile : Nat) : State :=
  let r := getReq s id
  let s := chunkEnds s (unitOf r) tid tile
  match r.st with
  | .parked => releaseHolds s id
  | .waitPark _ => releaseHolds s id
  | _ => s

/-! ## Invalidation (R94, R95) -/

/-- Start an invalidation by command; an error while one runs. -/
def startInv (s : State) (w : Writer) (k : InvKind) (cmd : Nat) : State :=
  if w ≠ .firmware ∨ s.x.inv.isSome then respond s .error
  else
    let s := setCreg s 0x20F000 (BitVec.ofNat 512 (cmd % 2 ^ 18))
    respond (dropIdle { s with x := { s.x with inv := some k } }) .ok

/-- INVALIDATE_IDENTIFIER (R95). -/
def execInvalidateIdentifier (w : Writer) (tid : BitVec 16) (s : State) : Host.Outcome State Fault Refusal :=
  .next (startInv s w (.ident tid.toNat) tid.toNat)
/-- INVALIDATE_TILE_RANGE (R95): the range stands in INVRANGE. -/
def execInvalidateTileRange (w : Writer) (tid : BitVec 16) (s : State) : Host.Outcome State Fault Refusal :=
  .next (startInv s w (.range tid.toNat (cfield s 0x20F008 31 0) (cfield s 0x20F008 63 32)) (tid.toNat + 2 ^ 16))
/-- INVALIDATE_EVERYTHING (R95). -/
def execInvalidateEverything (w : Writer) (s : State) : Host.Outcome State Fault Refusal := .next (startInv s w .all (2 ^ 17))

/-- INVALIDATION_REPORT: every unit has dropped its entries (R95). -/
def execInvalidationReport (s : State) : Host.Outcome State Fault Refusal :=
  match s.x.inv with
  | some _ =>
    let s := dropIdle s
    if s.x.lunits.all (fun p => p.2.tiles.all (fun e => !invHits s e.tid e.tile e.addr) && p.2.descs.all (fun d => !invDesc s d.tid)) then
      .next { s with x := { s.x with inv := none, invseq := (s.x.invseq + 1) % 2 ^ 64 } }
    else .next s
  | none => .next s

/-! ## Replay and PARKEND (R92, R93) -/

/-- REPLAY: every request parked now re-enters in park order, ahead of what its unit has not begun (R92). -/
def execReplay (w : Writer) (s : State) : Host.Outcome State Fault Refusal :=
  if w ≠ .firmware then .next (respond s .error)
  else
    let ids := (s.x.park.map (·.2)).filter (fun id => match (getReq s id).job with
      | some j => let st := (getJob s j).st; st = .running || st = .halting || st = .ended
      | none => true)
    let s := (ids.zip (List.range ids.length)).foldl (fun s p => modReq s p.1 (fun r => { r with st := .running, replaying := true, turn := p.2 })) s
    let s := ids.reverse.foldl (fun s id =>
      let r := getReq s id
      if isAccess r.kind then s else modUnit s (unitOf r) (fun u => { u with queue := id :: u.queue.filter (· ≠ id) })) s
    .next (respond { s with x := { s.x with park := s.x.park.filter (fun p => !ids.contains p.2), replay := true } } .ok)

/-- Whether a replay is complete: no re-entered request is still short of its cursor chunk (R92). -/
def replayDone (s : State) : State :=
  if s.x.replay && !s.x.reqs.any (fun p => p.2.replaying) then { s with x := { s.x with replay := false } } else s

end Sys2Proof.Machine
end

