-- ==== Sys2Proof/Machine/Copy.lean ====
section
/-! DEFINITION. Copy engines: acceptance, chunks, tile rows and completion, and the coherent accesses of the C ports (R108 to
R110, R141, R142, R309 to R319). -/

namespace Sys2Proof.Machine

/-! ## Contexts that a request concerns -/

/-- The cores that a request's completions reach (R165). -/
def coresOf (r : Req) : List Nat := if r.mirror then [r.core, r.core + 1] else [r.core]
/-- Change the issuing contexts, as long as their job is placed there. -/
def forCtx (s : State) (r : Req) (f : Ctx → Ctx) : State :=
  (coresOf r).foldl (fun s c => modCtx s c r.ctx (fun v => if v.j.job = r.job then f v else v)) s

/-- An uncorrectable error is consumed by a context: event TYPE 7, and a rollback at the next bundle boundary (R370). -/
def consumeUE (s : State) (c x cls cause data : Nat) : State :=
  let v := getCtx s c x
  let s := setCtx s c x { v with g := { v.g with rbPending := some (v.g.rbPending.getD (cls, cause)) } }
  bvStopOnEvent (postEvent s 7 (queueOf s v) v.j.part data) 3

/-! ## Acceptance (R142, R309, R310, R315, R316) -/

/-- A planned tile row: number, bank, row, format, first box element and count; a Q4 row counts frame bytes. -/
structure RowP where
  k : Nat
  bank : Nat
  row : Nat
  fmt : Nat
  j0 : Nat
  cnt : Nat
  deriving DecidableEq, Repr

/-- The rows that `n` elements from element `j` take, from tile row `k` on; none where the tile ends first. -/
def rowPlanFrom (kc : Core) (t : Tile) (raw : Bool) : Nat → Nat → Nat → Nat → Option (List RowP)
  | 0, _, _, n => if n = 0 then some [] else none
  | fuel + 1, k, j, n =>
    if n = 0 then some []
    else if k ≥ t.nrows then none
    else
      let (bank, row) := t.rowAt k
      let fmt := (getGrp kc (grpOf bank)).fmt.toNat
      let cap := if raw then 256 else rowCap fmt
      (rowPlanFrom kc t raw fuel (k + 1) (j + min cap n) (n - cap)).map ({ k, bank, row, fmt, j0 := j, cnt := min cap n } :: ·)

/-- Whether a copy moves a whole Q4 tile as a frame image (R309). -/
def rawCopy (kc : Core) (t : Tile) (d : Desc) (k : Nat) : Bool :=
  d.fmt = 9 && (getGrp kc (grpOf (t.rowAt k).1)).fmt.toNat = 9

/-- The rows of one iteration. -/
def rowPlan (kc : Core) (t : Tile) (d : Desc) (ext : List Nat) (k0 : Int) : Option (List RowP) :=
  if k0 < 0 then none
  else
    let raw := rawCopy kc t d k0.toNat
    rowPlanFrom kc t raw (t.nrows + 1) k0.toNat 0 (if raw then 35 * 256 else d.boxSize ext)

/-- The formats of the rows that `n` elements from tile row `k` on take, as far as the tile goes. -/
def rowFmts (kc : Core) (t : Tile) (raw : Bool) : Nat → Nat → Nat → List Nat
  | 0, _, _ => []
  | fuel + 1, k, n =>
    if n = 0 ∨ k ≥ t.nrows then []
    else
      let fmt := (getGrp kc (grpOf (t.rowAt k).1)).fmt.toNat
      fmt :: rowFmts kc t raw fuel (k + 1) (n - (if raw then 256 else rowCap fmt))

/-- The nest of a request, its counts and the first rows at its corners. -/
def reqNest (r : Req) : Option Nest := r.nest.map nestOf
def reqCounts (r : Req) : List Nat := ((reqNest r).map Nest.counts).getD [1]
def reqTotal (r : Req) : Nat :=
  if r.kind = .fill ∨ r.kind = .tfill then r.tiles.length else ((reqNest r).map Nest.total).getD 1
def reqIdx (r : Req) (it : Nat) : List Nat := splitIdx (reqCounts r) it
def reqRow0 (r : Req) (it : Nat) : Int := ((reqNest r).map (fun n => n.row0 (reqIdx r it))).getD 0
def reqOrigin (r : Req) (side : Bool) (it : Nat) : List Nat :=
  let base := if side then r.dstOrigin else r.origin
  ((reqNest r).map (fun n => n.origin side (reqIdx r it) base)).getD base
def reqExt (r : Req) : List Nat := if r.kind = .tcopy then ((reqNest r).map (·.ext)).getD r.ext else r.ext

/-- The values that an index times a step takes over a level, one at each end of each residue class modulo `nb`. -/
def lvlEnds (nb count : Nat) (step : Int) : List Int :=
  let n := min count nb
  ((List.range n).map (fun (i : Nat) => (i : Int) * step)) ++ ((List.range n).map (fun (i : Nat) => ((count - 1 - i : Nat) : Int) * step))

/-- Sums taken up into, for each residue modulo `nb`, the least and the greatest. -/
def putEnds (nb : Nat) (m : SMap (Int × Int)) (v : Int) : SMap (Int × Int) :=
  let r := (v % (nb : Int)).toNat
  match m.find? (fun p => p.1 = r) with
  | some (_, lo, hi) => smPut m r (min lo v, max hi v)
  | none => smPut m r (v, v)

/-- The first rows of a nest's iterations: for each bank at which one can start, the lowest and the highest row (R315). -/
def rowStarts (nb : Nat) (lvls : List (Nat × Int)) : List Int :=
  let m := lvls.foldl (fun (m : SMap (Int × Int)) l =>
    (m.flatMap (fun p => [p.2.1, p.2.2])).foldl (fun acc v => (lvlEnds nb l.1 l.2).foldl (fun acc e => putEnds nb acc (v + e)) acc) [])
    (putEnds nb [] 0)
  (m.flatMap (fun p => [p.2.1, p.2.2])).eraseDups

/-- The alignment of block formats: 64 for Q4, 32 for MXINT8 (R142). -/
def blockAlign (fs : List Nat) : Nat := if fs.contains 9 then 64 else if fs.contains 8 then 32 else 1

/-- Steps of a side that some iteration takes: those of levels with more than one. -/
def takenSteps (n : Option Nest) (side : Bool) : List (List Int) :=
  ((n.map Nest.lvls).getD []).filterMap (fun l => if 1 < l.count then some (if side then l.bstep else l.astep) else none)

/-- Whether every iteration's box is exactly one tile of its tensor (R309): the first is, and every step goes by whole tiles, where all
tiles are full along it. -/
def eachOneTile (d : Desc) (origin ext : List Nat) (steps : List (List Int)) : Bool :=
  d.oneTile origin ext && steps.all (fun st => (List.range d.rank).all (fun x =>
    (st.getD x 0) = 0 || ((st.getD x 0) % (d.span x : Int) = 0 && ext.getD x 1 = d.span x)))

/-- Whether origin, extent and the steps taken keep the alignment in the fastest dimension, in every iteration. -/
def alignedBox (d : Desc) (origin ext : List Nat) (steps : List (List Int)) (a : Nat) : Bool :=
  let x := d.ord 0
  origin.getD x 0 % a = 0 && ext.getD x 1 % a = 0 && steps.all (fun st => (st.getD x 0) % (a : Int) = 0)

/-- The acceptance checks of a copy on a valid descriptor: the sub-cause of its illegal-operation trap. -/
def acceptCheck (s : State) (r : Req) (d : Desc) : Option Nat :=
  match r.kind with
  | .wfill => if d.oneTile r.origin r.ext then none else some 10
  | .copy => tileCheck s r d
  | .copyo => tileCheck s r d
  | .copyn => tileCheck s r d
  | _ => none
where
  /-- Conversion, over the rows that the tile has, then tile too small; over every iteration of a nest. -/
  tileCheck (s : State) (r : Req) (d : Desc) : Option Nat :=
    let kc := getCore s r.core
    match getTile kc r.tile with
    | none => some 8
    | some t =>
      let rows0 := rowStarts t.nb (((reqNest r).map (fun n => n.lvls.map (fun l => (max l.count 1, l.rstep)))).getD [])
      let fs := rows0.flatMap (fun k =>
        let k := if k < 0 then (k % (t.nb : Int)).toNat else k.toNat
        let raw := rawCopy kc t d k
        rowFmts kc t raw (t.nrows + 1) k (if raw then 35 * 256 else d.boxSize r.ext))
      let steps := takenSteps (reqNest r) false
      if fs.contains 9 && (d.fmt ≠ 9 || fs.any (· ≠ 9)) then some 7
      else if fs.contains 9 && !eachOneTile d r.origin r.ext steps then some 7
      else if d.fmt = 9 && fs.any (· ≠ 9) && writesMem r false then some 7
      else if !alignedBox d r.origin r.ext steps (blockAlign (d.fmt :: fs)) then some 7
      else if (rows0.map (rowPlan kc t d r.ext)).any (·.isNone) then some 8
      else none

/-- What a copy does on one core when it takes its issue effects: counter, tile or unit (R310 step 3). -/
def copyEffects (s : State) (c : Nat) (r : Req) : State :=
  let s := modCtx s c r.ctx (fun v => { v with r := writeC v.r r.ctr (readC v.r r.ctr + 1) })
  modCore s c (fun k =>
    if r.kind = .wfill then { k with mx := { k.mx with units := smPut k.mx.units r.tile .filling } }
    else setTileSt k r.tile (if writesMem r false then .draining else .filling))

/-- The request joins its port's queue, or is held until its segment closes (R158, R310). -/
def enqueue (s : State) (r : Req) : State :=
  let out := writesMem r false
  let s := setReq s r.id { r with st := if out then .held else .running }
  if out then s else modUnit s (unitOf r) (fun u => { u with queue := u.queue ++ [r.id] })

/-- Whether a context still waits for the acceptance of a copy (R310 step 2). -/
def acceptPending (s : State) (c x : Nat) : Bool :=
  s.x.reqs.any (fun p => decide (p.2.st = .accepting) && p.2.core = c && p.2.ctx = x)

/-- Whether the descriptor lets the acceptance checks be made now: valid, and the box in bounds (R310 step 2). -/
def acceptable (r : Req) (d : Desc) : Bool :=
  d.ok r.part r.secure && (decide (r.kind = .copyn) || d.inBounds r.origin r.ext)

/-- The outcome of acceptance on a descriptor that has come, none for an identifier without one: the sub-cause of a trap. -/
def acceptBad (s : State) (r : Req) : Option Desc → Option Nat
  | none => none
  | some d => if acceptable r d then acceptCheck s r d else none

/-- The state of a request's tile or unit before it, kept for a copy of a protected pair. -/
def noteBefore (s : State) (r : Req) : Req :=
  { r with wasTile := (tileStOf (getCore s r.core) r.tile).getD .empty, wasUnit := smGet .empty (getCore s r.core).mx.units r.tile }

/-- The request as it is enqueued: its checks are still to be made where the descriptor did not allow them (R92). -/
def accepted (s : State) (r : Req) (d? : Option Desc) : Req :=
  let r := noteBefore s r
  { r with unaccepted := (match d? with
             | none => true
             | some d => !acceptable r d)
           geo := if r.kind = .wfill then none else getTile (getCore s r.core) r.tile, st := .running }

/-- The member of a gang stands before a bundle that it has issued again, all slots done, so that it goes on after it as it did
(R155, R368). -/
def setBack (r : Regs) (b : BitVec 32) : Regs :=
  { r with pc := b, redirect := match r.redirect with
    | some (n + 1, t) => some (n + 2, t)
    | _ => some (0, r.pc) }

/-- The siblings of a member whose copy traps stop at the same bundle: one that has it still to issue drops it, one that has issued it
is set back to it (R155). -/
def backTo (s : State) (c x : Nat) (b : BitVec 32) : State :=
  if (getCtx s c x).g.solo then s
  else (siblings s c x).foldl (fun s m => modCtx s m x (fun v =>
    if v.g.solo then v
    else if v.cast ≠ [] then { v with cast := [] }
    else match v.status with
      | .blocked 103 _ _ => v
      | _ => { v with r := setBack v.r b })) s

/-- A copy fails its acceptance: a precise trap that shows the bundle's other slots done (R310). A second copy of the bundle
only clears its bit. -/
def trapCopy (s : State) (c x cause slot : Nat) (baddr : BitVec 32) : State :=
  let others := s.x.reqs.filter (fun p => decide (p.2.st = .accepting) && p.2.core = c && p.2.ctx = x)
  let s := { s with x := { s.x with reqs := s.x.reqs.filter (fun p => !others.any (fun q => q.1 = p.1)) } }
  let gone := (others.map (fun p => p.2.slot)).filter (· ≠ slot)
  let done := gone.foldl (fun d n => d - 2 ^ n) (255 - 2 ^ slot)
  let v := getCtx s c x
  match v.status, v.trap with
  | .trapped, some t =>
    let m : BitVec 8 := t.done &&& BitVec.ofNat 8 (255 - 2 ^ slot)
    let s := setCtx s c x { v with trap := some { t with done := m }, r := { v.r with donemask := m } }
    { s with w := { s.w with traprecs := smPut s.w.traprecs (agentOf c x) { t with done := m } } }
  | _, _ => takeTrap (backTo s c x baddr) c x 1 cause slot 0 baddr (BitVec.ofNat 8 done) []
      (fun m => let w := getCtx s m x; if w.g.solo || v.g.solo || w.cast ≠ [] then 0 else 0xFF)

/-- A request leaves the park table. -/
def leavePark (s : State) (id : Nat) : State := { s with x := { s.x with park := s.x.park.filter (fun p => p.2 ≠ id) } }

/-- A request that has not left a protected pair is withdrawn with all that it has begun; the tile or unit of a copy is as before it
(R371). -/
def withdrawReq (s : State) (id : Nat) : State :=
  let r := getReq s id
  let s := unqueue (leavePark s id) id
  let drop (s : State) (k : Option Nat) : State := match k with
    | some k => dropTicket s k
    | none => s
  let s := drop (drop s r.acq) r.tick
  let s := if r.tick.isSome then chunkEnds s (unitOf r) r.tid r.tile else s
  let s := (r.chunks.filter (fun c => !c.done)).foldl (fun s c => chunkEnds (drop s c.tick) (unitOf r) (tidOf r c.side) c.tile) s
  let back (s : State) (c : Nat) : State := modCore s c (fun k => match r.kind with
    | .wfill => { k with mx := { k.mx with units := smPut k.mx.units r.tile r.wasUnit } }
    | .copy => setTileSt k r.tile r.wasTile
    | .copyo => setTileSt k r.tile r.wasTile
    | .copyn => setTileSt k r.tile r.wasTile
    | _ => k)
  dropReq (if r.st = .accepting then s else (coresOf r).foldl back s) id

/-- The requests of a context from the bundle on that issued in cycle `t`, loads aside, which leave at once: the mismatch of the bundle keeps
them in the pair (R165, R371). -/
def withdrawFrom (s : State) (c x t : Nat) : State :=
  let ids := (s.x.reqs.filter (fun p => p.2.core = c && p.2.ctx = x && p.2.mirror && decide (t ≤ p.2.seq) && p.2.fe.isNone && decide (p.2.kind ≠ .gld))).map (·.1)
  let waits := acceptPending s c x
  let s := ids.reverse.foldl withdrawReq s
  if waits && !acceptPending s c x then finishFlow (modCtx s c x (fun v => { v with status := match v.status with
    | .blocked 103 _ _ => .ready
    | st => st })) c x
  else s

/-- A step ends at the next bundle boundary (R378). -/
def endStep (s : State) (c x : Nat) : State :=
  let v := getCtx s c x
  if v.stepping ∧ (v.status = .running ∨ v.status = .ready) then
    let s := { s with d := { s.d with dstep := smDel s.d.dstep (agentOf c x) } }
    takeTrap (modCtx s c x (fun v => { v with stepping := false })) c x 13 0 255 0x2000 v.r.pc
  else s

/-- Whether a core takes a copy's issue effects at acceptance: the odd core of a pair only once it has issued the bundle. -/
def hasIssued (s : State) (r : Req) (c : Nat) : Bool :=
  c = r.core || !(getCtx s r.core r.ctx).commits.any (fun m => m.at_ = r.seq)

/-- COPY_ACCEPTANCE: the descriptor has come; the copy is accepted, or its context traps (R310 step 2). -/
def execCopyAcceptance (id : Nat) (s : State) : Host.Outcome State Fault Refusal :=
  match s.x.reqs.find? (fun p => p.1 = id) with
  | none => .next s
  | some (_, r) =>
    if r.st ≠ .accepting then .next s
    else match (if r.tid = 0 then some none else (descIn s (unitOf r) r.tid).map some) with
      | none => .next s
      | some d? => match acceptBad s r d? with
        | some cause => .next (trapCopy s r.core r.ctx cause r.slot r.baddr)
        | none =>
          let s := enqueue s (accepted s r d?)
          let s := ((coresOf r).filter (hasIssued s r)).foldl (fun s c => copyEffects s c r) s
          .next (match (getCtx s r.core r.ctx).status with
            | .blocked 103 _ _ => if acceptPending s r.core r.ctx then s else endStep (finishFlow s r.core r.ctx) r.core r.ctx
            | _ => s)

/-! ## Planning chunks (R87) -/

/-- The chunks of one iteration of a request, in ordinal order. -/
def planIter (r : Req) (d : Desc) (dB : Desc) : List NextChunk :=
  let one (side : Bool) (p : Nat × Nat) : NextChunk := { side, tile := p.1, idx := p.2 }
  match r.kind with
  | .wfill => (List.range 64).map (fun i => one false ((d.locate r.origin).1, i))
  | .tcopy =>
    (d.chunks (reqOrigin r false r.iter) (reqExt r)).map (one false) ++ (dB.chunks (reqOrigin r true r.iter) (reqExt r)).map (one true)
  | .fill => (List.range 64).map (fun i => one false (r.tiles.getD r.iter 0, i)) ++ (List.range 64).map (fun i => one true (r.tiles.getD r.iter 0, i))
  | .tfill => (List.range (tileChunks d.fmt)).map (fun i => one false (r.tiles.getD r.iter 0, i))
  | .copy => (d.chunks (reqOrigin r false r.iter) r.ext).map (one false)
  | .copyo => (d.chunks (reqOrigin r false r.iter) r.ext).map (one false)
  | .copyn => (d.chunks (reqOrigin r false r.iter) r.ext).map (one false)
  | .pref => (d.chunks r.origin r.ext).map (one false)
  | _ => let (t, k) := d.locate r.origin; [one false (t, (elemPos d.fmt k).1 / 256)]

/-- The number under which a chunk is known: iteration and ordinal. -/
def chunkKey (it ord : Nat) : Nat := it * 2 ^ 32 + ord
def getChunk (r : Req) (k : Nat) : Option Chunk := r.chunks.find? (fun c => c.ord = k)
def modChunk (r : Req) (k : Nat) (f : Chunk → Chunk) : Req := { r with chunks := r.chunks.map (fun c => if c.ord = k then f c else c) }

/-- The byte of a frame that an iteration's chunks of a side have brought. -/
def broughtByte (r : Req) (side : Bool) (it tile p : Nat) : Nat :=
  match r.chunks.find? (fun c => c.side = side && c.iter = it && c.tile = tile && c.idx = p / 256 && c.bytes.any (fun b => b.1 = p)) with
  | some c => bmByte c.bytes p
  | none => match r.chunks.find? (fun c => c.side = side && c.iter = it && c.tile = tile && c.bytes.any (fun b => b.1 = p)) with
    | some c => bmByte c.bytes p
    | none => 0

/-- Element `j` of an iteration's box from the tensor side. -/
def tensorSrc (r : Req) (d : Desc) (side : Bool) (it j : Nat) : Src :=
  let (t, k) := d.boxElem (reqOrigin r side it) (reqExt r) j
  srcOf d.fmt (broughtByte r side it t) k

/-- The bytes of an outbound chunk, element `j` of the box being `f j` (R28, R141, R142), with the flags. -/
def chunkPack (d : Desc) (elems : List (Nat × Nat)) (f : Nat → Src) : SMap (BitVec 16) × Flags :=
  if d.fmt = 8 then
    let blocks := (elems.map (fun p => p.2 / 32)).eraseDups
    blocks.foldl (fun a b =>
      let es := elems.filter (fun p => p.2 / 32 = b)
      let (x, q, fl) := mxBlock (es.map (fun p => f p.1))
      let m := (es.zip q).foldl (fun m p => bmPut m p.1.2 p.2 255) a.1
      (bmPut m (8192 + b) x 255, a.2 ||| fl)) ([], 0)
  else elems.foldl (fun a p => let (v, fl) := (f p.1).to d.fmt; (bmElem a.1 d.fmt (elemPos d.fmt p.2) v, a.2 ||| fl)) ([], 0)

/-- The bytes that a TCOPY between Q4 tensors puts out with a chunk: the nibbles of its elements, and the headers and super-scale that
these need, which move unchanged wherever they lie in the frame (R28, R87, R141). -/
def q4Bytes (r : Req) (d dB : Desc) (tile idx : Nat) : SMap (BitVec 16) :=
  let src (j : Nat) : Nat × Nat := d.boxElem (reqOrigin r false r.iter) (reqExt r) j
  (dB.chunkElems (reqOrigin r true r.iter) (reqExt r) tile idx).foldl (fun m (e : Nat × Nat) =>
    let (j, k) := e
    let (ts, ks) := src j
    let from_ (p : Nat) : Nat := broughtByte r false r.iter ts p
    let v := from_ (elemPos 9 ks).1
    let nib := if ks % 2 = 1 then v / 16 else v % 16
    let m := bmPut m (elemPos 9 k).1 (if k % 2 = 1 then nib * 16 else nib) (if k % 2 = 1 then 0xF0 else 0x0F)
    let m := bmPut (bmPut m (34 * (k / 64)) (from_ (34 * (ks / 64))) 255) (34 * (k / 64) + 1) (from_ (34 * (ks / 64) + 1)) 255
    (List.range 4).foldl (fun m i => bmPut m (8704 + i) (from_ (8704 + i)) 255) m) []

/-- The bytes that a TFILL writes into a chunk (R175). -/
def tfillBytes (fmt imm idx : Nat) : SMap (BitVec 16) :=
  let full (v : Nat) : BitVec 16 := BitVec.ofNat 16 (v % 256 + 255 * 256)
  let pat (i : Nat) : Nat :=
    match fmt with
    | 3 => (imm + (if bitN imm 31 then (2 ^ 32 - 1) * 2 ^ 32 else 0)) / 256 ^ (i % 8)
    | 8 => if i < 8192 then imm else imm / 256
    | 10 => imm % 16 * 17
    | _ => imm / 256 ^ (i % fmtBytes fmt)
  ((List.range 256).filter (fun i => fmt ≠ 8 || 256 * idx + i < 8448)).map (fun i => (256 * idx + i, full (pat (256 * idx + i))))

/-! ## Translation of the next chunk (R31, R87, R88) -/

/-- The watch granules of a chunk: those in which it moves bytes, its block data included (R97). -/
def chunkGrans (bytes : List Nat) : List Nat := (List.range 256).filter (fun g => bytes.any (fun p => p / 64 = g))

/-- Whether a request moves whole Q4 tiles as frame images (R309). -/
def imageReq (s : State) (r : Req) (d : Desc) : Bool :=
  match r.geo with
  | some t => rawCopy (getCore s r.core) t d (reqRow0 r r.iter).toNat
  | none => false

/-- Frame bytes that a chunk moves; `raw` of a frame image. -/
def movedBytes (raw : Bool) (r : Req) (d : Desc) (n : NextChunk) : List Nat :=
  let whole := (List.range 256).map (256 * n.idx + ·)
  match r.kind with
  | .wfill => whole
  | .fill => whole
  | .tfill => whole
  | .copy => boxBytes r d n
  | .copyo => boxBytes r d n
  | .copyn => boxBytes r d n
  | .pref => boxBytes r d n
  | .tcopy => boxBytes r d n
  | _ =>
    let p := (elemPos d.fmt (d.locate r.origin).2).1
    (List.range (2 ^ r.lw)).map (p / 2 ^ r.lw * 2 ^ r.lw + ·)
where
  /-- Those of a box's elements and their block data; of a frame image all of the chunk's range too, and with the last chunk all of
  row 34 (R309). -/
  boxBytes (r : Req) (d : Desc) (n : NextChunk) : List Nat :=
    let whole := (List.range 256).map (256 * n.idx + ·)
    let b := d.chunkBytes (reqOrigin r n.side r.iter) (reqExt r) n.tile n.idx
    if b = [] then whole
    else if raw then whole ++ (if n.idx = 33 then (List.range 256).map (8704 + ·) else b.filter (fun p => p / 256 ≠ n.idx))
    else b

/-- The data of the second side of a TCOPY or fill, once what it needs has come; `none` while it has not. -/
def sideBytes (r : Req) (d dB : Desc) (n : NextChunk) : Option (SMap (BitVec 16)) :=
  match r.kind with
  | .tcopy =>
    if r.chunks.any (fun c => !c.side && c.iter = r.iter && !c.done) then none
    else if dB.fmt = 9 then some (q4Bytes r d dB n.tile n.idx)
    else some (chunkPack dB (dB.chunkElems (reqOrigin r true r.iter) (reqExt r) n.tile n.idx) (tensorSrc r d false r.iter)).1
  | _ => (r.chunks.find? (fun c => !c.side && c.tile = n.tile && c.idx = n.idx && c.done)).map (·.bytes)

/-- The chunk passes its checks: it goes out, or waits for its rows. A core's access that needs to acquire nothing arrives at its port
in the cycle of its issue (R76). -/
def sendChunk (s : State) (id : Nat) (d dB : Desc) (n : NextChunk) (img : BitVec 128) : State :=
  let r := getReq s id
  let u := unitOf r
  let ds := if n.side then dB else d
  let w := writesMem r n.side
  let tid := tidOf r n.side
  let base := entFrame img * frameBytes
  let a := base + 256 * n.idx
  let wa := base + (elemPos d.fmt (d.locate r.origin).2).1 / 2 ^ r.lw * 2 ^ r.lw
  let cls := entClass img ds
  let key := chunkKey r.iter r.ord
  let f : FaultAt := { cause := 5, tile := n.tile, idx := n.idx, write := w, side := n.side }
  let peerReg := (creg s (0x600 + 8 * bitsN img.toNat 19 17)).toNat
  let reach := if isAccess r.kind then lineReach s r.part.toNat (portOf r) wa else chunkReach s r.part.toNat (portOf r) a
  if r.kind = .pref && cls = 2 then setReq s id { r with ord := r.ord + 1 }
  else if r.chunks.any (fun c => c.ord = key && !c.done) then s
  else if entPeer img && !bitN peerReg 1 then faultReq s id { f with cause := 13, peer := true }
  else if !entPeer img && !reach then faultReq s id f
  else
    let ready := if w && (n.side || r.kind = .tfill) then
        (if r.kind = .tfill then some (tfillBytes ds.fmt r.val.toNat n.idx) else sideBytes r d dB n)
      else some []
    match ready with
    | none => s
    | some bytes =>
      let s := chunkBegins s u tid n.tile
      let s := if entWatch img then watchChunk s r tid n.tile w (chunkGrans (movedBytes (imageReq s r ds) r ds n)) else s
      let r := getReq s id
      let r := { r with ord := r.ord + 1, replaying := false, cls }
      let agent := reqAgent s r
      if isAccess r.kind then
        let load := if r.kind = .gld || r.kind = .twait || r.kind = .tldq then some (agent, none) else none
        let t := sendFrom s r + (if r.mirror && r.kind ≠ .gld then 2 else 0)
        let (k, s) := startPath s r.part.toNat (portOf r) t load [wa] (reqOrd s r)
        setReq s id { r with tick := some k, addr := wa, tile := n.tile, key := entKey img }
      else
        let c : Chunk := { ord := key, addr := a, tile := n.tile, idx := n.idx, peer := entPeer img
                           side := n.side, cls, iter := r.iter, bytes, key := entKey img, ue := n.side && r.ue }
        let r := { r with chunks := r.chunks.filter (fun c => c.ord ≠ key) }
        if w && !n.side && r.kind ≠ .tfill then setReq s id { r with chunks := r.chunks ++ [c] }
        else
          let (late, k, s) := if entPeer img then startPeer s w
            else (false, startPath s r.part.toNat (portOf r) s.t.now (if w || r.kind = .pref then none else some (agent, some r.clk)) [a, a + 128] (reqOrd s r))
          setReq s id { r with chunks := r.chunks ++ [{ c with tick := some k, late }] }

/-- The next chunk meets its tile entry: cached, or to be acquired (R86). -/
def meetEntry (s : State) (id : Nat) (d dB : Desc) (n : NextChunk) : State :=
  let r := getReq s id
  let u := unitOf r
  let ds := if n.side then dB else d
  let tid := tidOf r n.side
  let w := writesMem r n.side
  match tileIn s u tid n.tile with
  | some e =>
    if mustWait s tid n.tile e.addr e.img then s
    else match entryCheck s r ds e.img w with
      | some c => faultReq s id { cause := c, tile := n.tile, idx := n.idx, write := w, side := n.side }
      | none => sendChunk s id d dB n e.img
  | none =>
    if unitBusy s u then s
    else startHold s id (ds.ttb + 16 * n.tile) { cause := 0, tile := n.tile, idx := n.idx, write := w, side := n.side }

/-- The descriptors of a request from its unit, where both are cached. -/
def unitDescs (s : State) (r : Req) : Option (BitVec 512 × BitVec 512) :=
  let held (tid : Nat) : Option (BitVec 512) := ((getUnit s (unitOf r)).descs.find? (fun d => d.tid = tid)).map (·.img)
  match held r.tid with
  | none => none
  | some d => if r.kind = .tcopy ∨ r.kind = .fill then (held r.dstTid).map (fun b => (d, b)) else some (d, d)
/-- The descriptors with which a request's chunks were translated: a chunk under way keeps its mapping (R95). -/
def reqDescs (_s : State) (r : Req) : Option (Desc × Desc) :=
  match r.img, r.dimg with
  | some d, some b => some (descOf d, descOf b)
  | _, _ => none

/-- The next chunk of a request, moving to the next iteration where one is through. -/
def nextOf (_s : State) (r : Req) (d dB : Desc) : Option (Req × NextChunk) :=
  match (planIter r d dB)[r.ord]? with
  | some n => some (r, n)
  | none =>
    if r.iter + 1 < reqTotal r then
      let r := { r with iter := r.iter + 1, ord := 0 }
      ((planIter r d dB)[0]?).map (fun n => (r, n))
    else none

/-- Whether a box of a request lies out of bounds in its present iteration, and on which side (R29, R89). -/
def outOfBounds (r : Req) (d dB : Desc) : Option Bool :=
  let ext := if isAccess r.kind then [1, 1, 1, 1, 1, 1] else reqExt r
  if r.kind = .fill ∨ r.kind = .tfill then none
  else if !d.inBounds (reqOrigin r false r.iter) ext then some false
  else if r.kind = .tcopy ∧ ¬ dB.inBounds (reqOrigin r true r.iter) (reqExt r) then some true
  else none

/-- A whole-request fault of a side (R89, R91). -/
def wholeAt (r : Req) (cause : Nat) (side : Bool) : FaultAt := { cause, side, write := writesMem r side }

/-- CHUNK_TRANSLATE: the next chunk of a request in ordinal order (R31, R87, R89). The descriptors are judged first, then the bounds, at
the start of an iteration and when the request comes back, then the acceptance checks still owed (R92). -/
def execChunkTranslate (id : Nat) (s : State) : Host.Outcome State Fault Refusal :=
  match s.x.reqs.find? (fun p => p.1 = id) with
  | none => .next s
  | some (_, r) =>
    let u := unitOf r
    let both := r.kind = .tcopy ∨ r.kind = .fill
    let miss := (if (descIn s u r.tid).isNone && r.tid ≠ 0 then [(r.tid, false)] else [])
      ++ (if both ∧ (descIn s u r.dstTid).isNone ∧ r.dstTid ≠ 0 then [(r.dstTid, true)] else [])
    if ¬ (r.st = .running ∨ r.st = .accepting) ∨ r.tick.isSome ∨ invDesc s r.tid = true ∨ (both ∧ invDesc s r.dstTid = true) then .next s
    else match miss with
      | (t, side) :: _ =>
        if lineReach s r.part.toNat (portOf r) (dtBase s + 64 * t) then .next (startDesc s u t r.part.toNat (portOf r) (sendFrom s r))
        else if r.st = .running then .next (if r.kind = .pref then faultWhole s id (wholeAt r 5 side) else faultReq s id (wholeAt r 5 side)) else .next s
      | [] =>
        if r.st = .accepting then .next s
        else match unitDescs s r with
          | none => .next (faultWhole s id (wholeAt r 1 (both && decide (r.tid ≠ 0))))
          | some (img, dimg) =>
            let d := descOf img
            let dB := descOf dimg
            let s := setReq s id { r with img, dimg }
            if ¬ d.ok r.part r.secure then .next (faultWhole s id (wholeAt r 1 false))
            else if both ∧ ¬ dB.ok r.part r.secure then .next (faultWhole s id (wholeAt r 1 true))
            else
              let s := touchDesc s u r.tid
              let s := if both then touchDesc s u r.dstTid else s
              match nextOf s { r with img, dimg } d dB with
              | none => .next (setReq (unqueue s id) id { r with img, dimg, replaying := false })
              | some (r, n) =>
                let s := setReq s id r
                match (if r.ord = 0 ∨ r.replaying = true then outOfBounds r d dB else none) with
                | some side => .next (faultWhole s id (wholeAt r 2 side))
                | none =>
                  if r.unaccepted ∧ (acceptCheck s r d).isSome then .next (faultWhole s id (wholeAt r 14 false))
                  else
                    let s := setReq s id { r with unaccepted := false }
                    if r.chunks.any (fun c => c.tick.isNone && !c.done) then .next s
                    else
                      let s := meetEntry s id d dB n
                      let r := getReq s id
                      .next (if r.st = .running ∧ (nextOf s r d dB).isNone ∧ r.chunks.all (fun c => c.tick.isSome || c.done) = true then unqueue s id else s)

/-- HOLD_ACQUISITION: the read-modify-write of a tile entry for a request's next chunk (R86). -/
def execHoldAcquisition (id : Nat) (s : State) : Host.Outcome State Fault Refusal :=
  match s.x.reqs.find? (fun p => p.1 = id) with
  | none => .next s
  | some (_, r) =>
    match reqDescs s r with
    | none => .next (setReq s id { r with acq := none })
    | some (d, dB) => match nextOf s r d dB with
      | none => .next (setReq s id { r with acq := none })
      | some (_, n) => .next (acquire s id (if n.side then dB else d) n (writesMem r n.side))

/-- PARK_RETRY: a faulting request that waited for room parks (R90). -/
def execParkRetry (id : Nat) (s : State) : Host.Outcome State Fault Refusal :=
  match (getReq s id).st with
  | .waitPark f => if parkRoom s && eventRoom s then .next (parkNow s id f) else .next s
  | _ => .next s

/-! ## Tile rows (R47, R309, R312) -/

/-- Whether an engine may access a bank of a group in this cycle (R47). -/
def bankFree (s : State) (c bank : Nat) : Bool := !bankBusy (getCore s c) s.t.now bank
/-- Whether a row of a retired bank may be reconstructed: all its rows' banks are free, and no queued entry is for it (R49, R53). -/
def reconFree (s : State) (c bank row : Nat) : Bool :=
  let k := getCore s c
  (reconRows bank row).all (fun p => bankFree s c p.1) && (getGrp k (grpOf bank)).busyAt ≠ some s.t.now && !stale k (grpOf bank) row
/-- Whether a context's bundle keeps chunks from writing into a group: one held on it, or one of a gang that is on its way (R47). -/
def ctxHolds (v : Ctx) (g : Nat) : Bool := v.heldGrps.contains g || v.cast.any (fun b => b.grps.contains g)
/-- Whether a bundle keeps chunks from writing into a group of a core; on the odd core of a pair also the even one's bundles, and those
that it has still to issue itself (R47, R164). -/
def grpHeld (s : State) (c g : Nat) : Bool :=
  (getCore s c).ctxs.any (fun p => ctxHolds p.2 g
    || (oddOfPair c p.2 && (ctxHolds (getCtx s (c - 1) p.1) g || (getCtx s (c - 1) p.1).commits.any (fun m => m.wr.any (fun w => grpOf w.1 = g)))))

/-- Whether a row write may be made (R47, R50, R55, R56). -/
def rowWritable (s : State) (c bank : Nat) : Bool :=
  let k := getCore s c
  let v := getGrp k (grpOf bank)
  let g := grpOf bank
  bankFree s c bank && !grpHeld s c g && v.retWritten = v.ret && v.pretWritten = v.pret
  && (if retBank k g = some bank then v.queue = [] && (List.range 4).all (fun i => bankFree s c (4 * g + i)) && v.busyAt ≠ some s.t.now
      else v.pret || v.queue.length < 8)

/-- The chunks that a row needs, as tile and index. Of a frame image, tile row 34 takes the super-scale, which every chunk brings. -/
def rowNeeds (r : Req) (d : Desc) (it : Nat) (p : RowP) (raw : Bool) : List (Nat × Nat) :=
  if raw then [((d.locate (reqOrigin r false it)).1, min 33 (p.k - (reqRow0 r it).toNat))]
  else ((List.range p.cnt).map (fun j =>
    let (t, k) := d.boxElem (reqOrigin r false it) r.ext (p.j0 + j)
    (t, (elemPos d.fmt k).1 / 256))).eraseDups

/-- The rows of an iteration, and whether they hold a frame image. -/
def iterRows (s : State) (r : Req) (d : Desc) (it : Nat) : List RowP × Bool :=
  let kc := getCore s r.core
  match r.geo with
  | some t => ((rowPlan kc t d r.ext (reqRow0 r it)).getD [], rawCopy kc t d (reqRow0 r it).toNat)
  | none => ([], false)

/-- Whether a row can be written: every chunk that it needs has come; of an ended request, some has and none is on its way (R93). -/
def rowReady (s : State) (r : Req) (d : Desc) (it k : Nat) : Bool :=
  let (rows, raw) := iterRows s r d it
  match rows.find? (fun p => p.k = k) with
  | some p =>
    let come (n : Nat × Nat) : Bool := r.chunks.any (fun c => c.iter = it && c.tile = n.1 && c.idx = n.2 && c.done)
    let ns := rowNeeds r d it p raw
    !r.rows.contains (it, k) && (if r.st = .stopped then r.chunks.all (·.done) && ns.any come else ns.all come)
  | none => false

/-- The tile of a copy that has ended is ready, unless its job has ended and the entry with it (R66, R148). -/
def tileReady (s : State) (r : Req) : State :=
  (coresOf r).foldl (fun s c => if (getCtx s c r.ctx).j.job = r.job then modCore s c (fun k => setTileSt k r.tile .ready) else s) s

/-- An ended request whose chunks are all complete goes once the rows that they reached are written (R93). -/
def stoppedDone (s : State) (id : Nat) : State :=
  let r := getReq s id
  if r.st = .stopped && r.chunks.all (·.done) && !(match reqDescs s r with
      | some (d, _) => (r.chunks.map (·.iter)).eraseDups.any (fun it => (iterRows s r d it).1.any (fun p => rowReady s r d it p.k))
      | none => false) then
    dropReq (if r.geo.isSome && (getCtx s r.core r.ctx).j.job ≠ r.job then
        (coresOf r).foldl (fun s c => modCore s c (fun k => { k with sp := { k.sp with tiles := k.sp.tiles.filter (fun t =>
          t.1 ≠ r.tile || t.2.st = .ready || t.2.st = .empty) } })) s else s) id
  else s

/-- The bytes that an inbound copy puts into a row. -/
def rowBytes (r : Req) (d : Desc) (it : Nat) (p : RowP) (raw : Bool) : SMap (BitVec 16) × Flags :=
  if raw then
    let i := p.k - (reqRow0 r it).toNat
    let t := (d.locate (reqOrigin r false it)).1
    ((List.range 256).map (fun b => (b, BitVec.ofNat 16 (broughtByte r false it t (256 * i + b) + 255 * 256))), 0)
  else rowPack p.fmt p.cnt (fun j => tensorSrc r d false it (p.j0 + j))

/-- The elements of a row that a row byte holds bits of, each with its bits; the spare bytes of an MXINT8 row go with its first. -/
def rowByteElems (fmt b : Nat) : List (Nat × Nat) :=
  if fmt = 8 then [(if b < 128 then b else if b < 132 then 32 * (b - 128) else 0, 255)]
  else if fmt = 10 then [(2 * b, 0x0F), (2 * b + 1, 0xF0)]
  else [(b / fmtBytes fmt, 255)]

/-- Of a row's bytes, those that the chunks of an ended request brought (R93). -/
def partBytes (r : Req) (d : Desc) (it : Nat) (p : RowP) (raw : Bool) (bytes : SMap (BitVec 16)) : SMap (BitVec 16) :=
  let here (t i : Nat) : Bool := r.chunks.any (fun c => c.iter = it && c.tile = t && c.idx = i && c.done)
  if raw then (if (rowNeeds r d it p raw).all (fun n => here n.1 n.2) then bytes else [])
  else bytes.filterMap (fun (b : Nat × BitVec 16) =>
    let m := (rowByteElems p.fmt b.1).foldl (fun m e =>
      if e.1 < p.cnt then
        let (t, k) := d.boxElem (reqOrigin r false it) r.ext (p.j0 + e.1)
        if here t ((elemPos d.fmt k).1 / 256) then Nat.lor m e.2 else m
      else m) 0
    let m := Nat.land m (b.2.toNat / 256)
    if m = 0 then none else some (b.1, BitVec.ofNat 16 (Nat.land (b.2.toNat % 256) m + 256 * m)))
/-- A copy puts bytes into a row of a core: all of it, or a part beside what stands there (R47, R56, R57, R370). -/
def putBytes (s : State) (r : Req) (c : Nat) (p : RowP) (bytes : SMap (BitVec 16)) (ue : Bool) : State :=
  let k := getCore s c
  let whole := (List.range 256).all (fun b => bytes.any (fun q => q.1 = b && decide (255 * 256 ≤ q.2.toNat)))
  let (k, err) := if whole then (writeRow k s.t.now p.bank p.row (bmApply bytes 0), none) else writePart k s.t.now p.bank p.row (bmApply bytes)
  let g := grpOf p.bank
  let k := if ue then markBad k (if retBank k g = some p.bank then 32 + g else p.bank) p.row else k
  let s := setCore s c k
  match err with
  | some (cls, cause) => if (getCtx s c r.ctx).j.job = r.job then consumeUE s c r.ctx cls cause (ueData cls cause (p.bank * 512 + p.row)) else s
  | none => s

/-! ## Completion (R109, R312, R313, R316) -/

/-- A job's final clocks take in the timestamps of its accesses and copies (R113). -/
def jobClock (s : State) (r : Req) (t : Nat) : State :=
  match r.job with
  | some j => modJob s j (fun v => { v with clk := max v.clk t })
  | none => s

/-- A copy's completion in its contexts: counter, flags, clock (R109, R129, R312, R313). -/
def postCopy (s : State) (r : Req) : State :=
  let s := forCtx s r (fun v =>
    let dec (n : BitVec 16) : BitVec 16 := if n = 0 then 0 else n - 1
    let v := if r.dropDec then v else { v with r := writeC v.r r.ctr (dec (readC v.r r.ctr)) }
    let v := if r.preSeg && !r.dropDec then
        { v with g := { v.g with chk := { v.g.chk with ctrs := smPut v.g.chk.ctrs r.ctr (dec (smGet 0 v.g.chk.ctrs r.ctr)) } } }
      else v
    { v with r := raise v.r r.flags, lc := max v.lc (r.maxTs + 1), maxTs := max v.maxTs r.maxTs })
  let s := jobClock (publishTo s (fun v => v.req = r.id) ((r.job.map (fun j => Pub.member j r.rank)).toList)) r r.maxTs
  dropReq s r.id

/-- Whether a request has translated its last chunk. -/
def translatedAll (s : State) (r : Req) : Bool :=
  match reqDescs s r with
  | some (d, dB) => (nextOf s r d dB).isNone
  | none => false

/-- What follows when all of a request's chunks are complete. -/
def checkDone (s : State) (id : Nat) : State :=
  let r := getReq s id
  if r.st ≠ .running ∨ ¬ r.chunks.all (fun c => c.done) ∨ translatedAll s r = false then s
  else
    let s := unqueue s id
    match r.kind with
    | .pref => dropReq s id
    | .wfill =>
      let s := if (getCtx s r.core r.ctx).j.job ≠ r.job then s else (coresOf r).foldl (fun s c => modCore s c (fun k => { k with mx := { k.mx with units := smPut k.mx.units r.tile .ready } })) s
      postCopy s r
    | .tcopy => setReq s id { r with st := .done }
    | .tfill => setReq s id { r with st := .done }
    | .fill =>
      let s := modQ (publish s (fun v => v.req = id) 2) r.queue (fun q => { q with clock := max q.clock r.maxTs })
      if r.ue then setReq s id { r with st := .done } else dropReq s id
    | .copy => if r.chunks = [] then postCopy (tileReady s r) r else s
    | .copyo => postCopy s r
    | .copyn =>
      if writesMem r false then postCopy s r
      else if r.chunks = [] then postCopy (tileReady s r) r else s
    | _ => s

/-- The version record of a request's writes: who made it, for which task, and where that stands (R107, R110, R114). -/
def reqVersion (s : State) (r : Req) : Version :=
  let here := match r.job with
    | some j => let v := getJob s j; if v.id = j then jobCores v else []
    | none => []
  { ts := 0, job := r.job, rank := r.rank, queue := some r.queue, coach := r.coach, cores := (r.cores ++ here).eraseDups, req := r.id, bytes := [] }

/-- Lines written with an uncorrectable error are stored poisoned; a line written whole without one is sound again (R370). -/
def markPoison (s : State) (bytes : List Nat) (ue : Bool) : State :=
  let lines := (bytes.map lineOf).eraseDups
  { s with c := { s.c with poison := lines.foldl (fun m l =>
    if ue then smPut m l true
    else if m.any (fun p => p.1 = l) && (List.range 128).all (fun i => bytes.contains (128 * l + i)) then smDel m l else m) s.c.poison } }

/-- A chunk is performed: data read, or a version made (R108, R312). -/
def performChunk (s : State) (r : Req) (d : Desc) (c : Chunk) : State × Chunk × Nat :=
  let base := c.addr / frameBytes * frameBytes
  let mat := matAt s c.addr c.key
  if writesMem r c.side then
    let (ts, s) := chunkWrite s (reqVersion s r) r.clk base c.bytes mat false
    (markPoison s (c.bytes.map (fun p => base + p.1)) c.ue, { c with done := true, bytes := [], ue := false }, ts)
  else if r.kind = .pref then (s, { c with done := true, ue := poisoned s c.addr || poisoned s (c.addr + 128) }, 0)
  else
    let met := match c.tick with
      | some k => (smGet {} s.x.tickets k).met
      | none => []
    let (f, t, s) := chunkRead s (reqAgent s r) r.clk c.addr mat met
    let ps := movedBytes (imageReq s { r with iter := c.iter } d) { r with iter := c.iter } d { side := c.side, tile := c.tile, idx := c.idx }
    let bytes : SMap (BitVec 16) := ps.foldl (fun m p => bmPut m p (f (base + p)) 255) []
    let ue := ps.any (fun p => poisoned s (base + p)) || poisoned s c.addr || poisoned s (c.addr + 128)
    (s, { c with done := true, bytes, ue }, if r.fe.isSome then 0 else t)

/-- A task has written to a peer, which has still to acknowledge it (R118). -/
def peerWrote (s : State) (r : Req) : State :=
  match (if r.fe.isSome then some r.queue else r.job.map (fun j => (getJob s j).queue)) with
  | some n => modQ s n (fun q => { q with peerOwed := true, flushAt := none })
  | none => s

/-- A chunk has read a poisoned line: its context consumes the error; for a front-end copy the coach does, which faults with cause 13; for a
prefetch nobody does. Each is event TYPE 7 (R366, R370). -/
def chunkError (s : State) (r : Req) (a : Nat) : State :=
  if r.fe.isSome then bvStopOnEvent (postEvent s 7 (some r.queue) r.part (lineOf a)) 3
  else if r.kind = .pref then bvStopOnEvent (postEvent s 7 none 0 (lineOf a)) 3
  else if (getCtx s r.core r.ctx).j.job ≠ r.job then s
  else consumeUE s r.core r.ctx 17 5 (lineOf a)

/-- A chunk's completion, from the part's own memory or from a peer (R312, R316, R370). -/
def completeChunk (s : State) (id : Nat) (c : Chunk) (d : Desc) (data : Option (SMap (BitVec 16))) : State :=
  let r := getReq s id
  let w := writesMem r c.side
  let s := if c.peer then s else
    touchLine (touchLine s (portOf r) r.part.toNat c.addr w c.cls r.hint) (portOf r) r.part.toNat (c.addr + 128) w c.cls r.hint
  let (s, c1, ts) := match data with
    | some b => (s, { c with done := true, bytes := if w then [] else b }, 0)
    | none => performChunk s r d c
  let s := match c.tick with
    | some k => dropTicket s k
    | none => s
  let s := reqChunkEnds s id (tidOf r c.side) c.tile
  let s := if r.kind = .wfill && (getCtx s r.core r.ctx).j.job = r.job then
      (coresOf r).foldl (fun s k => modCore s k (fun q => { q with mx := { q.mx with
        wbuf := smPut q.mx.wbuf (64 * r.tile + c.idx) (bmApply (c1.bytes.map (fun p => (p.1 - 256 * c.idx, p.2))) 0)
        wbad := if c1.ue then smPut q.mx.wbad (64 * r.tile + c.idx) true else smDel q.mx.wbad (64 * r.tile + c.idx) } })) s
    else s
  let s := if c1.ue then chunkError s r c.addr else s
  let drop := w || r.kind = .wfill || r.kind = .pref
  let s := modReq s id (fun r =>
    let r := modChunk r c.ord (fun _ => c1)
    { r with maxTs := max r.maxTs ts, ue := r.ue || c1.ue
             chunks := if r.st = .stopped && (drop || r.kind = .tcopy || r.kind = .fill) then r.chunks.filter (fun x => x.ord ≠ c.ord)
               else if drop && !(r.kind = .tcopy || r.kind = .fill) then r.chunks.filter (fun x => x.ord ≠ c.ord)
               else if r.kind = .fill && c.side then r.chunks.filter (fun x => !(x.tile = c.tile && x.idx = c.idx))
               else if r.kind = .tcopy && r.chunks.all (fun x => x.iter ≠ c.iter || x.done) && c.side then
                 (if r.iter ≠ c.iter || translatedAll s r then r.chunks.filter (fun x => x.iter ≠ c.iter) else r.chunks)
               else r.chunks })
  let s := if c.peer && w then peerWrote s (getReq s id) else s
  if (getReq s id).st = .stopped then stoppedDone s id else checkDone s id

/-- CHUNK_COMPLETE: a chunk's lines have returned or been acknowledged (R312). -/
def execChunkComplete (id ord : Nat) (s : State) : Host.Outcome State Fault Refusal :=
  match s.x.reqs.find? (fun p => p.1 = id) with
  | none => .next s
  | some (_, r) => match getChunk r ord, reqDescs s r with
    | some c, some (d, dB) =>
      if !c.done && !c.peer && c.tick.any (arrived s) then
        let stale := !writesMem r c.side && c.tick.any (fun k => metStale s r.clk (smGet {} s.x.tickets k).met [lineOf c.addr, lineOf c.addr + 1])
        if stale then
          let s := (c.tick.map (dropTicket s)).getD s
          let (t, s) := startPath s r.part.toNat (portOf r) s.t.now none [c.addr, c.addr + 128] (reqOrd s r)
          .next (setReq s id (modChunk r ord (fun c => { c with tick := some t })))
        else .next (completeChunk s id c (if c.side then dB else d) none)
      else .next s
    | _, _ => .next s

/-- A chunk that a peer did not serve: the request goes back to it and faults there; one that has parked at a later chunk
goes back without a second record, and a stopped one loses the chunk (R88, R90, R197). -/
def peerFault (s : State) (id : Nat) (c : Chunk) (f : FaultAt) : State :=
  let r := getReq s id
  let gone (x : Chunk) : Bool := x.ord = c.ord || (r.st ≠ .stopped && c.ord < x.ord)
  let s := (r.chunks.filter (fun x => gone x && x.tick.isSome && !x.done)).foldl (fun s x =>
    chunkEnds (match x.tick with
      | some k => dropTicket s k
      | none => s) (unitOf r) (tidOf r x.side) x.tile) s
  let back (r : Req) : Req := { r with ord := c.ord % 2 ^ 32, iter := c.iter, chunks := r.chunks.filter (fun x => x.ord < c.ord) }
  match r.st with
  | .stopped =>
    stoppedDone (setReq s id { r with chunks := r.chunks.filter (fun x => x.ord ≠ c.ord) }) id
  | .running => faultReq (modReq s id back) id f
  | _ => modReq s id back

/-- The cause with which a peer refuses a chunk, of its checks 5 to 9; 0 for none (R32, R88). -/
def peerRefusal (n : Nat) : Nat := let v := Config.peerCause n; if v = 0 then 0 else 7 + (v - 1) % 5

/-- PEER_CHUNK_COMPLETION: a peer's completion, or its refusal (R88). -/
def execPeerChunkCompletion (id ord : Nat) (s : State) : Host.Outcome State Fault Refusal :=
  match s.x.reqs.find? (fun p => p.1 = id) with
  | none => .next s
  | some (_, r) => match getChunk r ord, reqDescs s r with
    | some c, some (d, dB) =>
      if !c.done && c.peer && c.tick.any (arrived s) then
        let (n, s) := draw s
        let cause := peerRefusal n
        if cause ≠ 0 then
          .next (peerFault s id c { cause, tile := c.tile, idx := c.idx, peer := true, write := writesMem r c.side })
        else
          let ds := if c.side then dB else d
          let ps := movedBytes (imageReq s { r with iter := c.iter } ds) { r with iter := c.iter } ds { side := c.side, tile := c.tile, idx := c.idx }
          let (s, b) := ps.foldl (fun (a : State × SMap (BitVec 16)) p =>
            let (n, s) := draw a.1
            (s, bmPut a.2 p (Config.peerByte n p).toNat 255)) (s, [])
          .next (completeChunk s id c ds (some b))
      else .next s
    | _, _ => .next s

/-- PEER_COMPLETION_TIMEOUT: the link reports an error or times out (R88). -/
def execPeerCompletionTimeout (id ord : Nat) (s : State) : Host.Outcome State Fault Refusal :=
  match s.x.reqs.find? (fun p => p.1 = id) with
  | none => .next s
  | some (_, r) => match getChunk r ord with
    | some c =>
      if !c.done && c.peer then
        .next (peerFault s id c { cause := 13, tile := c.tile, idx := c.idx, peer := true, write := writesMem r c.side })
      else .next s
    | none => .next s

/-! ## Row accesses (R47, R309, R312) -/

/-- COPY_ROW_WRITE: one tile row of an inbound copy; `row` is the iteration times 65,536 plus the tile row (R312). -/
def execCopyRowWrite (id row : Nat) (s : State) : Host.Outcome State Fault Refusal :=
  match s.x.reqs.find? (fun p => p.1 = id) with
  | none => .next s
  | some (_, r) => match reqDescs s r with
    | none => .next s
    | some (d, _) =>
      let it := row / 65536
      let k := row % 65536
      let (rows, raw) := iterRows s r d it
      match rows.find? (fun p => p.k = k) with
      | none => .next s
      | some p =>
        if (r.kind = .copy ∨ r.kind = .copyn) ∧ writesMem r false = false ∧ rowReady s r d it k = true
            ∧ (coresOf r).all (fun c => rowWritable s c p.bank) = true then
          let (all, fl) := rowBytes r d it p raw
          let bytes := if r.st = .stopped then partBytes r d it p raw all else all
          let ue := r.chunks.any (fun c => c.iter = it && c.ue && (rowNeeds r d it p raw).contains (c.tile, c.idx))
          let s := (coresOf r).foldl (fun s c => putBytes s r c p bytes ue) s
          let done := (it, k) :: r.rows
          let last := rows.all (fun q => done.contains (it, q.k))
          let s := setReq s id { r with
            rows := if last then done.filter (fun q => q.1 ≠ it) else done
            flags := r.flags ||| fl
            chunks := if last then r.chunks.filter (fun c => c.iter ≠ it) else r.chunks }
          .next (if r.st = .stopped then stoppedDone s id else checkDone s id)
        else .next s

/-- The outbound chunk that waits for its rows. -/
def waitingChunk (r : Req) : Option Chunk := r.chunks.find? (fun c => c.tick.isNone && !c.done)

/-- The tile rows that an outbound chunk needs. -/
def chunkRows (s : State) (r : Req) (d : Desc) (c : Chunk) : List RowP :=
  let (rows, raw) := iterRows s r d c.iter
  if raw then
    let bs := movedBytes true { r with iter := c.iter } d { side := false, tile := c.tile, idx := c.idx }
    rows.filter (fun p => bs.any (fun b => b / 256 = p.k - (reqRow0 r c.iter).toNat))
  else
    let es := d.chunkElems (reqOrigin r false c.iter) r.ext c.tile c.idx
    rows.filter (fun p => es.any (fun e => p.j0 ≤ e.1 && e.1 < p.j0 + p.cnt))

/-- All rows of an outbound chunk are read: its bytes are formed and it goes out; after the last one the tile is ready. -/
def sendRows (s : State) (id : Nat) (d : Desc) (c : Chunk) : State :=
  let r := getReq s id
  let (rows, raw) := iterRows s r d c.iter
  let row (p : RowP) : Wide := smGet 0 r.rowData p.k
  let (bytes, fl) :=
    if raw then
      ((movedBytes true { r with iter := c.iter } d { side := false, tile := c.tile, idx := c.idx }).foldl (fun m b =>
        match rows.find? (fun p => p.k - (reqRow0 r c.iter).toNat = b / 256) with
        | some p => bmPut m b (wByte (row p) (b % 256)).toNat 255
        | none => m) [], (0 : Flags))
    else chunkPack d (d.chunkElems (reqOrigin r false c.iter) r.ext c.tile c.idx) (fun j =>
      match rows.find? (fun p => p.j0 ≤ j && j < p.j0 + p.cnt) with
      | some p => rowSrc p.fmt (row p) (j - p.j0)
      | none => { fmt := d.fmt, bits := 0 })
  let (late, k, s) := if c.peer then startPeer s true
    else (false, startPath s r.part.toNat (portOf r) s.t.now none [c.addr, c.addr + 128] (reqOrd s r))
  let r := { modChunk r c.ord (fun c => { c with bytes, tick := some k, late }) with flags := r.flags ||| fl, rowData := [] }
  let s := setReq s id r
  if translatedAll s r then tileReady (unqueue s id) r else s

/-- COPY_ROW_READ: one tile row for the outbound chunk under way (R312). -/
def execCopyRowRead (id row : Nat) (s : State) : Host.Outcome State Fault Refusal :=
  match s.x.reqs.find? (fun p => p.1 = id) with
  | none => .next s
  | some (_, r) => match reqDescs s r, waitingChunk r with
    | some (d, _), some c =>
      let need := chunkRows s r d c
      match need.find? (fun p => p.k = row % 65536) with
      | none => .next s
      | some p =>
        let kc := getCore s r.core
        let rc := retBank kc (grpOf p.bank) = some p.bank
        if r.st = .stopped ∨ r.rowData.any (fun q => q.1 = p.k) ∨ (if rc then reconFree s r.core p.bank p.row else bankFree s r.core p.bank) = false then .next s
        else
          let (v, ue) := if rc then reconstruct kc p.bank p.row else readDirect kc p.bank p.row
          let s := modCore s r.core (fun k => if rc then readRecon k s.t.now p.bank p.row else readBank k s.t.now p.bank p.row)
          let s := setReq s id { (if ue.isSome then modChunk r c.ord (fun c => { c with ue := true }) else r) with rowData := smPut r.rowData p.k v }
          let s := match ue with
            | some (cls, cause) =>
              if (getCtx s r.core r.ctx).j.job = r.job then consumeUE s r.core r.ctx cls cause (ueData cls cause (p.bank * 512 + p.row)) else s
            | none => s
          let got := (getReq s id).rowData
          .next (if need.all (fun q => got.any (fun x => x.1 = q.k)) then sendRows s id d c else s)
    | _, _ => .next s

/-! ## Coherent accesses (R101 to R103, R318, R319) -/

/-- What an access does to its word. -/
def accKind (r : Req) : AccKind :=
  match r.kind with
  | .gst => .store r.val
  | .tsig => .store r.val
  | .aadd => .aadd r.val
  | .aswap => .aswap r.val
  | .acas => .acas r.cmp r.val
  | .amin => .amin r.val
  | .amax => .amax r.val
  | .aand => .aand r.val
  | .aor => .aor r.val
  | _ => .load

/-- Whether an access is a load. -/
def isLoad : AccKind → Bool
  | .load => true
  | _ => false

/-- Deliver a word to the register that waits for a request. -/
def deliver (s : State) (r : Req) (v : Nat) : State :=
  (coresOf r).foldl (fun s c => modCore s c (fun k =>
    match (ctxOf k r.ctx).landings.find? (fun l => l.req = some r.id) with
    | none => k
    | some l =>
      let k := putDst k r.ctx l.dst (BitVec.ofNat 2048 v)
      putCtx k r.ctx { ctxOf k r.ctx with landings := (ctxOf k r.ctx).landings.filter (fun x => x.id ≠ l.id) })) s

/-- Whether an older access of the same agent is still to be performed (R100, R102). -/
def olderAccess (s : State) (r : Req) : Bool :=
  s.x.reqs.any (fun p => p.1 < r.id && isAccess p.2.kind && p.2.st ≠ .done && p.2.fe = r.fe
    && (if r.fe.isSome then p.2.queue = r.queue else p.2.core = r.core && p.2.ctx = r.ctx && p.2.job = r.job))

/-- Whether an access has come back: a core's with the end of its latency, the front end's with its return (R77, R203). -/
def accessBack (s : State) (r : Req) : Bool := isAccess r.kind && r.tick.any (fun k => if r.fe.isSome then arrived s k else landsNow s k)

/-- COHERENT_ACCESS_COMPLETE: a GLD, GST, atomic or signal access is performed at its line's home (R318, R319). -/
def execCoherentAccessComplete (id : Nat) (s : State) : Host.Outcome State Fault Refusal :=
  match s.x.reqs.find? (fun p => p.1 = id) with
  | none => .next s
  | some (_, r) =>
    if !accessBack s r || olderAccess s r then .next s
    else
      let k := accKind r
      let agent := reqAgent s r
      let home := match portOf r with
        | some n => (wayOf (getCl s n) (lineOf r.addr)).isSome
        | none => false
      let bad := poisoned s r.addr && (match k with
        | .store _ => false
        | _ => true)
      let mine := r.fe.isSome || decide ((getCtx s r.core r.ctx).j.job = r.job)
      let lc := if mine then agentClock s agent else ((r.job.map (fun j => (getJob s j).clk)).getD 0)
      let met := match r.tick with
        | some t => (smGet {} s.x.tickets t).met
        | none => []
      if isLoad k && metStale s lc met [lineOf r.addr] then
        let s := (r.tick.map (dropTicket s)).getD s
        let (t, s) := startPath s r.part.toNat (portOf r) s.t.now none [r.addr] (reqOrd s r)
        .next (setReq s id { r with tick := some t })
      else
      let s := if r.kind = .tsig then publish s (fun v => v.queue = some r.queue && v.coach < r.coach) r.hint else s
      let (v, t, s) := performAccess s agent lc r.addr r.lw k (matAt s r.addr r.key) met
      let s := clockEvent (if mine then noteTs (raiseClock s agent t) agent t else s)
      let s := jobClock s r t
      let s := touchLine s (portOf r) r.part.toNat r.addr (writesMem r false) r.cls r.hint
      let s := match r.tick with
        | some t => dropTicket s t
        | none => s
      let s := reqChunkEnds s id r.tid r.tile
      if r.st = .stopped then .next (dropReq s id)
      else if r.fe.isSome then .next (setReq s id { r with st := .done, tick := none, val := BitVec.ofNat 64 v, ue := bad })
      else
        let s := if r.kind = .gst then s else deliver s r v
        let s := if bad then consumeUE s r.core r.ctx 17 (if home then 3 else 4) (lineOf r.addr) else s
        .next (dropReq s id)

end Sys2Proof.Machine
end

