-- ==== Sys2Proof/Machine/Segment.lean ====
section
/-! DEFINITION. Code bytes, segments with their checkpoints and held copies, rendezvous, and the end of a job on its cores
(R148, R156 to R163, R172, R253). -/

namespace Sys2Proof.Machine

/-! ## The code tensor (R27, R31, R37, R172) -/

/-- A code tensor and for whom it is read: the partition, and whether its context is secure. -/
structure CodeOf where
  tid : Nat
  part : BitVec 4
  secure : Bool
  deriving DecidableEq, Repr

/-- The code tensor of a placed context. -/
def codeOfP (j : Place) : CodeOf := { tid := j.code.toNat, part := j.part, secure := j.secure }

/-- Where a byte of a code tensor stands: physical address, key and cache class. The descriptor passes R27 and is rank-1 INT8, the
entry passes R31 as for a reading access that may not go to a peer; MIG makes no read of code wait, and no hold is taken (the
model's choice, in the assumption log: no layout unit translates code). -/
def codeLoc (s : State) (k : CodeOf) (o : Nat) : Option (Nat × Nat × Nat) :=
  let d := descOf (descImage s k.tid)
  if d.ok k.part k.secure && d.rank = 1 && d.fmt = 0 && decide (o < d.e 0) then
    let e := readEntry s (d.ttb + 16 * (o / frameBytes))
    if (entryCheck s { part := k.part, secure := k.secure, kind := .gld } d e false).isNone then
      some (entFrame e * frameBytes + o % frameBytes, entKey e, entClass e d)
    else none
  else none

/-- The physical address of a byte of a code tensor, where it may be read. -/
def codeAddr (s : State) (k : CodeOf) (o : Nat) : Option Nat := (codeLoc s k o).map (·.1)
/-- A byte of memory read under a key; the key of a host frame is ignored (R23). -/
def codeRead (s : State) (key : Nat) (a : Nat) : Nat := (underKey s (matAt s a key) a (newestByte s a)).toNat

/-- A byte of a code tensor. -/
def codeByte (s : State) (k : CodeOf) (o : Nat) : Nat :=
  match codeLoc s k o with
  | some (a, key, _) => codeRead s key a
  | none => 0

/-- Whether `n` bytes from `o` lie in a code tensor. -/
def codeHas (s : State) (k : CodeOf) (o n : Nat) : Bool := (codeAddr s k o).isSome && (codeAddr s k (o + n - 1)).isSome
/-- A little-endian number of `n` bytes of a code tensor. -/
def codeNat (s : State) (k : CodeOf) (o n : Nat) : Nat :=
  match codeLoc s k o with
  | some (a, key, _) =>
    if codeHas s k o n = true ∧ o % frameBytes + n ≤ frameBytes then leNat (codeRead s key) a n
    else leNat (codeByte s k) o n
  | none => leNat (codeByte s k) o n

/-- The lines of a range of a code tensor, with their cache class. -/
def codeLines (s : State) (k : CodeOf) (o n : Nat) : List (Nat × Nat) :=
  (List.range ((o + n + 127) / 128 - o / 128)).filterMap (fun i =>
    (codeLoc s k (max o (128 * (o / 128 + i)))).map (fun a => (a.1 / 128 * 128, a.2.2)))

/-- Start the read of a range of a code tensor on a cluster's path, or on the spine's. -/
def readCode (s : State) (k : CodeOf) (cl : Option Nat) (o n : Nat) : Nat × State :=
  startPath s k.part.toNat cl s.t.now none ((codeLines s k o n).map (·.1))
/-- A completed read of code leaves its lines in the slice as its cache class says (R70, R435). -/
def touchCode (s : State) (k : CodeOf) (cl : Option Nat) (o n : Nat) : State :=
  (codeLines s k o n).foldl (fun s a => touchLine s cl k.part.toNat a.1 false a.2 0) s

/-- The nest descriptor `t` of a code tensor (R314). -/
def nestAt (s : State) (k : CodeOf) (t : Nat) : Option Wide :=
  if codeHas s k (64 * t) 256 then
    let w := BitVec.ofNat 2048 (codeNat s k (64 * t) 256)
    if (nestOf w).ok then some w else none
  else none

/-! ## Segments (R156 to R160, R258) -/

/-- The checkpoint of a context as it stands (R156), with the rendezvous that it has passed. -/
def checkpointOf (r : Regs) (rdvCount : Nat := 0) : Checkpoint :=
  { pc := r.pc, sregs := r.sregs, preds := r.preds, aregs := r.aregs, strides := r.strides, loops := r.loops, pend := r.pend
    rstack := r.rstack, ctrs := r.ctrs, redirect := r.redirect, redirectPops := r.redirectPops, rdvCount }

/-- The held copies of a context, in issue order. -/
def heldCopies (s : State) (c x : Nat) : List Nat :=
  (s.x.reqs.filter (fun p => p.2.st = .held && p.2.core = c && p.2.ctx = x)).map (·.1)

/-- Close the segment: held copies go in issue order, the replay count is cleared (R158, R160, R258). -/
def closeSegment (s : State) (c x : Nat) : State :=
  let s := (heldCopies s c x).foldl (fun s id =>
    let r := getReq s id
    modUnit (setReq s id { r with st := .running, issued := s.t.now, clk := max r.clk (getCtx s c x).lc }) (unitOf r) (fun u => { u with queue := u.queue ++ [id] })) s
  modCtx s c x (fun v => { v with g := { v.g with replays := 0, nonReplay := false } })

/-- Open a segment with a checkpoint and a mask; the copies under way belong to earlier segments (R156, R313). -/
def openSegment (s : State) (c x : Nat) (chk : Checkpoint) (mask : BitVec 32) : State :=
  let s := modCtx s c x (fun v => { v with g := { v.g with segMask := mask, chk, replays := 0, nonReplay := false } })
  { s with x := { s.x with reqs := smMap (fun _ (r : Req) =>
    if r.core = c ∧ r.ctx = x then { r with preSeg := true } else r) s.x.reqs } }

/-- The segment can no longer be replayed (R159). -/
def markNonReplay (s : State) (c x : Nat) : State := modCtx s c x (fun v => { v with g := { v.g with nonReplay := true } })

/-! ## Rendezvous (R162, R163) -/

/-- Whether another member has arrived at the barrier at which a context stands: it stands there too, it has passed it, or
it moves with the broadcast. -/
def memberHere (me other : Ctx) : Bool :=
  (other.rdvAt = some me.r.pc && other.rdvCount = me.rdvCount) || decide (other.rdvCount > me.rdvCount)
  || (!me.g.solo && !other.g.solo)

/-- Whether every member of a context's job has arrived. -/
def rdvComplete (s : State) (c x : Nat) : Bool :=
  (membersOf s c x).all (fun m => m = c || (oddOfPair c (getCtx s c x) && m + 1 = c) || memberHere (getCtx s c x) (getCtx s m x))

/-! ## The end of a job on its cores (R148) -/

/-- The domains of a grant return to on; what stood in an off domain reads zero (R214). -/
def domainsOn (k : Core) (j : Place) : Core :=
  let inG (d : Nat) : Bool :=
    let m := d % 64
    let g := if d / 512 = 1 then j.granty else j.grantx
    g.1 / 64 ≤ m && m < (g.1 + g.2) / 64
  { k with vf := { k.vf with domains := k.vf.domains.filter (fun p => !inG p.1) } }

/-- Whether a copy of a job still reads or writes rows of a parity group of a core. -/
def copyIn (s : State) (c j g : Nat) : Bool :=
  s.x.reqs.any (fun p => p.2.job = some j && (coresOf p.2).contains c && p.2.geo.any (fun t => t.blo / 4 ≤ g && g ≤ t.bhi / 4))

/-- Each parity group of an ended job goes once its queue is empty (R148) and no copy of the job uses it. -/
def releaseGroups (s : State) (c : Nat) : State :=
  (getCore s c).leaving.foldl (fun s l =>
    let k := getCore s c
    let kept := (List.range 8).filter (fun g => l.2.getLsbD g && ((getGrp k g).queue ≠ [] || copyIn s c l.1 g))
    modCore s c (fun k =>
      let k := (List.range 8).foldl (fun k g =>
        if l.2.getLsbD g && !kept.contains g && (getGrp k g).held = some l.1 then modGrp k g (fun v => { v with held := none, releasing := false }) else k) k
      { k with leaving := (k.leaving.filter (fun m => m.1 ≠ l.1)) ++
                 (if kept = [] then [] else [(l.1, BitVec.ofNat 8 (kept.foldl (fun a g => a + 2 ^ g) 0))]) })) s

/-- The entries of a tile run go with their job; of a job that is stopped, one whose copy has chunks on their way goes with the last of
them (R66, R148). -/
def dropTiles (s : State) (c tb nt : Nat) : State :=
  let flying (e : Nat) : Bool := s.x.reqs.any (fun p => p.2.st = .stopped && p.2.tile = e && p.2.geo.isSome && (coresOf p.2).contains c)
  modCore s c (fun k => { k with sp := { k.sp with tiles := k.sp.tiles.filter (fun p =>
    !(tb ≤ p.1 && p.1 < tb + nt) || ((p.2.st = .filling || p.2.st = .draining) && flying p.1)) } })

/-- Free a context, one cycle passing before another issues (R151): claims, frames, domains and tile
entries go at once, groups when their queues are drained (R148). -/
def freeCtx (s : State) (c x : Nat) : State :=
  let v := getCtx s c x
  let s := match v.j.job with
    | some j => modJob s j (fun u => { u with clk := max u.clk v.lc })
    | none => s
  let s := ((getCore s c).bfetch.filter (fun f => f.1 = x)).foldl (fun s f => dropTicket s f.2.2.2) s
  let s := modCore s c (fun k =>
    let k := domainsOn { k with bfetch := k.bfetch.filter (fun f => f.1 ≠ x) } v.j
    let k := (List.range 8).foldl (fun k g =>
      if v.j.gmask.getLsbD g then modGrp k g (fun u => { u with releasing := true }) else k) k
    let k := { k with
      running := if k.running = some x then none else k.running
      lastCtx := if k.running = some x then x else k.lastCtx
      nextIssue := if k.running = some x then s.t.now + 2 else k.nextIssue
      leaving := match v.j.job with
        | some j => k.leaving ++ [(j, v.j.gmask)]
        | none => k.leaving }
    putCtx k x { seq := 0 })
  releaseGroups (dropTiles s c v.j.tbase v.j.ntiles) c

/-- The last context of a job has halted: the job ends (R148). -/
def endJob (s : State) (id : Nat) : State :=
  let j := getJob s id
  let s := bvRecord s 10 (some j.queue) (agentOf (j.members.headD 0) j.ctx + 3 * 2 ^ 9 + j.members.length * 2 ^ 11 + j.coach % 2 ^ 32 * 2 ^ 16)
  let s := (jobCores j).foldl (fun s c => freeCtx s c j.ctx) s
  modJob s id (fun j => { j with st := .ended })

/-- A context halts: its issue ends, outstanding results are dropped; with the last one the job ends (R262). -/
def haltCtx (s : State) (c x : Nat) : State :=
  if oddOfPair c (getCtx s c x) then s else
  let s := closeSegment s c x
  let s := modCtx s c x (fun v => { v with status := .ended, landings := [] })
  match (getCtx s c x).j.job with
  | none => freeCtx s c x
  | some id =>
    if (getJob s id).members.all (fun m => (getCtx s m (getJob s id).ctx).status = .ended) then endJob s id
    else modCore s c (fun k => if k.running = some x then { k with running := none, lastCtx := x, nextIssue := s.t.now + 2 } else k)

end Sys2Proof.Machine
end

