-- ==== Sys2Proof/Machine/MemOps.lean ====
section
/-! DEFINITION. The C slots: scratchpad loads and stores, copies, tiles, coherent accesses, address registers, fences and
prefetches (R304 to R322). -/

namespace Sys2Proof.Machine

/-! ## Shared forms -/

/-- The position of a C unit, and the file of its address registers: a for C0, b for C1 (R215). -/
def cPos : Unit2 → Nat
  | .zero => 4
  | .one => 5
def cFile : Unit2 → Bool
  | .zero => false
  | .one => true

/-- Write a predicate at the end of the issue cycle (R208, R209). -/
def setPred (e : Env) (s : State) (n : Nat) (b : Bool) : State := modRegs s e.c e.x (fun r => writeP r n b)

/-! ## Scratchpad loads and stores (R305 to R307) -/

/-- The row of a scratchpad operation. -/
def rowFor (e : Env) (u : Unit2) (r : BitVec 4) (i : BitVec 3) : Nat := spRow (readA e.r (cFile u) r.toNat) i

/-- What all four scratchpad operations share: bank mask, row range, stride (R33, R200, R305). -/
def spOp (h : Hd) (u : Unit2) (b : BitVec 5) (r : BitVec 4) (i : BitVec 3) (write : Bool) (reads writes : List Rd)
    (check : Env → Verdict) (eff : Env → State → State) : SlotOp :=
  { pos := cPos u, h
    reads := reads ++ [.a (cFile u) r.toNat], writes := writes ++ [.a (cFile u) r.toNat]
    early := fun e => stopIf (!e.ctx.j.gmask.getLsbD (grpOf b.toNat)) (.trap 12 0 0)
    sp := some { bank := b, ar := r, imm := i, write }
    check := fun e =>
      if rowFor e u r i ≥ 512 then .trap 1 1 0
      else (stopIf (write && e.mask.getLsbD b.toNat) (.trap 7 1 b.toNat)).andThen (check e)
    eff := fun e s =>
      let a := readA e.r (cFile u) r.toNat
      postResult (eff e s) e.c e.x 1 (.a (cFile u) r.toNat)
        ((a + (strideOf e.r (cFile u) r.toNat).signExtend 64).setWidth 2048) }

/-- The read of a row in its access cycle: content, what is wrong with it, latency (R40, R43, R49). -/
def spRead (e : Env) (s : State) (pos bank row : Nat) : Wide × Option (Nat × Nat × Nat) × Nat × State :=
  let at_ (u : Option (Nat × Nat)) : Option (Nat × Nat × Nat) := u.map (fun q => (q.1, q.2, bank * 512 + row))
  if e.rc.contains pos then
    let (v, ue) := reconstruct e.core bank row
    (v, at_ ue, 8, modCore s e.c (fun k => readRecon k s.t.now bank row))
  else
    let (v, ue) := readDirect e.core bank row
    (v, at_ ue, 6, modCore s e.c (fun k => readBank k s.t.now bank row))

/-- LDV: the row into a vector register (R305). -/
def ldvOp (h : Hd) (u : Unit2) (file : Bool) (d : BitVec 6) (b : BitVec 5) (r : BitVec 4) (i : BitVec 3) : SlotOp :=
  spOp h u b r i false [] [.v file d.toNat] (fun _ => .go) (fun e s =>
    let (v, ue, lat, s) := spRead e s (cPos u) b.toNat (rowFor e u r i)
    postResult s e.c e.x lat (.v file (vAbs e.r file d.toNat)) v 0 true ue)

/-- STV: a vector register into the row (R305). -/
def stvOp (h : Hd) (u : Unit2) (file : Bool) (d : BitVec 6) (b : BitVec 5) (r : BitVec 4) (i : BitVec 3) : SlotOp :=
  spOp h u b r i true [.v file d.toNat] [] (fun _ => .go) (fun e s =>
    modCore s e.c (fun k => writeRow k s.t.now b.toNat (rowFor e u r i) (readV e.core file (vAbs e.r file d.toNat))))

/-- The format of the group that holds a bank. -/
def bankFmt (e : Env) (b : BitVec 5) : Nat := (getGrp e.core (grpOf b.toNat)).fmt.toNat

/-- The value checks of LDS and STS (R306). -/
def elemCheck (u : Unit2) (b : BitVec 5) (r : BitVec 4) (e : Env) : Verdict :=
  let f := bankFmt e b
  if f = 9 ∨ f = 10 then .trap 1 11 0
  else stopIf (decide (spByte (readA e.r (cFile u) r.toNat) % fmtBytes f ≠ 0)) (.trap 1 12 0)

/-- The element at byte `o` of a row, extended to 64 bits (R306). -/
def elemLoad (f o : Nat) (row : Wide) : Word :=
  let w := fmtBytes f
  let n := leNat (fun i => (wByte row i).toNat) o w
  if f ≤ 3 ∨ (f = 8 ∧ o < 128) then BitVec.ofInt 64 (sgn (8 * w) n) else BitVec.ofNat 64 n

/-- LDS: one element into an s register (R305, R306). -/
def ldsOp (h : Hd) (u : Unit2) (d : BitVec 6) (b : BitVec 5) (r : BitVec 4) (i : BitVec 3) : SlotOp :=
  spOp h u b r i false [] [.s d.toNat] (elemCheck u b r) (fun e s =>
    let (v, ue, lat, s) := spRead e s (cPos u) b.toNat (rowFor e u r i)
    postResult s e.c e.x lat (.s d.toNat) ((elemLoad (bankFmt e b) (spByte (readA e.r (cFile u) r.toNat)) v).setWidth 2048) 0 true ue)

/-- STS: one element from an s register into the row; the other bytes stand (R305, R306). -/
def stsOp (h : Hd) (u : Unit2) (d : BitVec 6) (b : BitVec 5) (r : BitVec 4) (i : BitVec 3) : SlotOp :=
  spOp h u b r i true [.s d.toNat] [] (elemCheck u b r) (fun e s =>
    let row := rowFor e u r i
    let put (old : Wide) : Wide :=
      wSplice old (spByte (readA e.r (cFile u) r.toNat)) (fmtBytes (bankFmt e b)) (readS e.r d.toNat).toNat
    let (k, ue) := writePart (getCore s e.c) s.t.now b.toNat row put
    let s := setCore s e.c k
    match ue with
    | some (cls, cause) => consumeUE s e.c e.x cls cause (ueData cls cause (b.toNat * 512 + row))
    | none => s)

/-! ## Copies (R309 to R316) -/

/-- The registers of a box quad. -/
def quadRegs (u : Unit2) (q : BitVec 2) : List Rd := (List.range 4).map (fun i => .a (cFile u) (4 * q.toNat + i))

/-- The request that a C slot makes. -/
def cReq (e : Env) (u : Unit2) (kind : ReqKind) (hint q : BitVec 2) : Req :=
  let v := e.ctx
  let b := quadOf e.r (cFile u) q
  let jb : Job := (v.j.job.map (getJob e.p)).getD {}
  { kind, core := e.c, ctx := e.x, job := v.j.job, port := (if u = .one then 1 else 0), part := v.j.part, secure := v.j.secure
    tid := b.tid, origin := b.coord, ext := b.ext, hint, issued := e.p.t.now, clk := v.lc, baddr := v.r.pc, slot := cPos u
    seq := e.p.t.now, mirror := v.j.prot, rank := v.j.rank, queue := jb.queue, coach := jb.coach
    cores := if jb.members = [] then [e.c] else jobCores jb }

/-- The copies of a context that one of its C slots has outstanding (R311). -/
def outstandingOn (e : Env) (u : Unit2) : Nat :=
  (e.p.x.reqs.filter (fun p =>
    p.2.core = e.c && p.2.ctx = e.x && p.2.job = e.ctx.j.job && p.2.slot = cPos u && (match p.2.kind with
      | .copy => true
      | .copyo => true
      | .copyn => true
      | .wfill => true
      | _ => false))).length

/-- Issue a copy: accepted at once where its descriptor is cached, else its context waits for it (R310). -/
def copyIssue (e : Env) (s : State) (r : Req) : State :=
  let (id, s) := newId s
  let r := { r with id }
  let reach := lineReach s r.part.toNat (portOf r) (dtBase s + 64 * r.tid)
  match (if r.tid = 0 then some none else match descIn s (unitOf r) r.tid with
      | some d => some (some d)
      | none => if reach then none else some none) with
  | none => startDesc (setReq s id { r with st := .accepting }) (unitOf r) r.tid r.part.toNat (portOf r) s.t.now
  | some d? => match acceptBad s r d? with
    | some cause => trapCopy s e.c e.x cause r.slot r.baddr
    | none => copyEffects (enqueue (touchDesc s (unitOf r) r.tid) (accepted s r d?)) e.c r

/-- The odd core of a pair takes the issue effects of the copy that the even core has issued (R165). -/
def copyFollow (u : Unit2) (e : Env) (s : State) : State :=
  match (getCtx s (e.c - 1) e.x).commits with
  | [] => s
  | m :: _ => match s.x.reqs.find? (fun p => p.2.core = e.c - 1 && p.2.ctx = e.x && p.2.seq = m.at_ && p.2.slot = cPos u) with
    | some (_, r) => if r.st = .accepting then s else copyEffects s e.c r
    | none => s

/-- Whether a copy of the segment that is held drains a tile. -/
def heldDrains (e : Env) (t : Nat) : Bool :=
  e.p.x.reqs.any (fun p => decide (p.2.st = .held) && p.2.core = e.c && p.2.ctx = e.x && p.2.tile = t)

/-- A wait on a tile: idempotence cause 2 where a held copy drains it (R157). -/
def tileWait (e : Env) (t : Nat) : Verdict := if heldDrains e t then .trap 7 2 0 else .wait 1 t

/-- The decode checks of a copy on tile entry `t` (R157, R310, R311). -/
def copyCheck (e : Env) (u : Unit2) (out : Bool) (t : Nat) : Verdict :=
  match getTile e.core t with
  | none => .go
  | some v =>
    if !out && v.inMask e.mask then .trap 7 1 0
    else match v.st with
      | .filling => tileWait e t
      | .draining => tileWait e t
      | .empty => if out then .wait 1 t else stopIf (decide (outstandingOn e u ≥ 16)) (.wait 13 0)
      | .ready => stopIf (decide (outstandingOn e u ≥ 16)) (.wait 13 0)

/-- A tile number within the job's (R64). -/
def tileNum (t : Nat) (e : Env) : Verdict := stopIf (decide (t ≥ e.ctx.j.ntiles)) (.trap 1 21 0)
def tileEntry (e : Env) (t : Nat) : Nat := e.ctx.j.tbase + t

/-- A false-guarded copy makes an empty tile ready (R66, R310). -/
def copyFalse (t : Nat) (e : Env) (s : State) : State :=
  if t < e.ctx.j.ntiles ∧ tileStOf e.core (tileEntry e t) = some .empty then
    modCore s e.c (fun k => setTileSt k (tileEntry e t) .ready)
  else s

/-- COPY and COPYO. -/
def copyOp (h : Hd) (u : Unit2) (kind : ReqKind) (c : BitVec 4) (t : BitVec 8) (hint q : BitVec 2) : SlotOp :=
  { pos := cPos u, h, bad := hint = 3, reads := quadRegs u q
    early := tileNum t.toNat
    check := fun e => copyCheck e u (decide (kind = .copyo)) (tileEntry e t.toNat)
    eff := fun e s => copyIssue e s { cReq e u kind hint q with ctr := c.toNat, tile := tileEntry e t.toNat }
    effF := copyFalse t.toNat
    odd := some (copyFollow u) }

/-- The nest of a COPYN, where it is one that COPYN can run (R314, R315). -/
def copyNest (e : Env) (t : BitVec 8) : Option (Wide × Nest) :=
  match nestAt e.p (codeOfP e.ctx.j) t.toNat with
  | some w => if (nestOf w).dir ≤ 1 then some (w, nestOf w) else none
  | none => none

/-- COPYN: one nest of copies (R315). A bad nest fails acceptance. -/
def copynOp (h : Hd) (u : Unit2) (c : BitVec 4) (t : BitVec 8) (hint q : BitVec 2) : SlotOp :=
  { pos := cPos u, h, bad := hint = 3, reads := quadRegs u q
    check := fun e => match copyNest e t with
      | none => .go
      | some (_, n) => (tileNum n.stile e).andThen (copyCheck e u (decide (n.dir = 1)) (tileEntry e n.stile))
    eff := fun e s => match copyNest e t with
      | none => trapCopy s e.c e.x 9 (cPos u) e.r.pc
      | some (w, n) => copyIssue e s { cReq e u .copyn hint q with ctr := c.toNat, tile := tileEntry e n.stile, nest := some w }
    odd := some (copyFollow u) }

/-- WFILL (R288, R316). -/
def wfillOp (h : Hd) (u : Unit2) (c : BitVec 4) (t : BitVec 6) (hint q : BitVec 2) : SlotOp :=
  { pos := cPos u, h, bad := hint = 3, reads := quadRegs u q
    early := fun e => stopIf (!e.ctx.j.claimM) (.trap 12 0 0)
    check := fun e =>
      if smGet .empty e.core.mx.units t.toNat = .filling then .wait 5 t.toNat
      else stopIf (decide (outstandingOn e u ≥ 16)) (.wait 13 0)
    eff := fun e s => copyIssue e s { cReq e u .wfill hint q with ctr := c.toNat, tile := t.toNat }
    effF := fun e s =>
      if smGet .empty e.core.mx.units t.toNat = .empty then
        modCore s e.c (fun k => { k with mx := { k.mx with units := smPut k.mx.units t.toNat .ready } })
      else s
    odd := some (copyFollow u) }

/-! ## Tiles (R317) -/

/-- TREL: an empty or ready tile becomes empty. -/
def trelOp (h : Hd) (u : Unit2) (t : BitVec 8) : SlotOp :=
  { pos := cPos u, h
    early := tileNum t.toNat
    check := fun e => match tileStOf e.core (tileEntry e t.toNat) with
      | some .filling => tileWait e (tileEntry e t.toNat)
      | some .draining => tileWait e (tileEntry e t.toNat)
      | _ => .go
    eff := fun e s => modCore s e.c (fun k => setTileSt k (tileEntry e t.toNat) .empty) }

/-- TSTAT: ready to Pd, empty to P(d XOR 1). -/
def tstatOp (h : Hd) (u : Unit2) (p : BitVec 4) (t : BitVec 8) : SlotOp :=
  { pos := cPos u, h
    early := tileNum t.toNat
    eff := fun e s =>
      let st := tileStOf e.core (tileEntry e t.toNat)
      setPred e (setPred e s p.toNat (st = some .ready)) (p ^^^ 1).toNat (st = some .empty)
    odd := some (fun e s => match (getCtx s (e.c - 1) e.x).commits with
      | m :: _ => setPred e (setPred e s p.toNat (readP m.post p.toNat)) (p ^^^ 1).toNat (readP m.post (p ^^^ 1).toNat)
      | [] => s) }

/-! ## Coherent accesses (R318, R319) -/

/-- An access leaves the core; it is translated from this cycle on. -/
def accessIssue (s : State) (r : Req) : Nat × State :=
  let (id, s) := newId s
  (id, setReq s id { r with id })

/-- What a coherent store contributes to a pair's signature: tensor, coordinates and data (R371). -/
def storedBy (e : Env) (u : Unit2) (kind : ReqKind) (q : BitVec 2) (v : Word) : List Nat :=
  let r := cReq e u kind 0 q
  r.tid :: r.origin ++ [v.toNat]

/-- GLD and the atomics: `d` is empty until the result comes; `extra` are the registers read beside the quad. -/
def loadOp (h : Hd) (u : Unit2) (kind : ReqKind) (lw : Nat) (d : BitVec 4) (hint q : BitVec 2) (extra : List (BitVec 4))
    (val cmp : Env → Word) : SlotOp :=
  { pos := cPos u, h, bad := hint = 3
    reads := quadRegs u q ++ extra.map (fun n => Rd.a (cFile u) n.toNat), writes := [.a (cFile u) d.toNat]
    eff := fun e s =>
      let (id, s) := accessIssue s { cReq e u kind hint q with lw, val := val e, cmp := cmp e }
      postPending s e.c e.x (.a (cFile u) d.toNat) id
    odd := some (followWrites [.a (cFile u) d.toNat])
    stored := fun e => if kind = .gld then [] else storedBy e u kind q (val e) ++ [(cmp e).toNat] }

/-- GLD. -/
def gldOp (h : Hd) (u : Unit2) (d : BitVec 4) (hint q z : BitVec 2) : SlotOp :=
  loadOp h u .gld z.toNat d hint q [] (fun _ => 0) (fun _ => 0)

/-- GST: `d` is the source, read at issue. -/
def gstOp (h : Hd) (u : Unit2) (d : BitVec 4) (hint q z : BitVec 2) : SlotOp :=
  { pos := cPos u, h, bad := hint = 3, reads := quadRegs u q ++ [.a (cFile u) d.toNat]
    eff := fun e s => (accessIssue s { cReq e u .gst hint q with lw := z.toNat, val := readA e.r (cFile u) d.toNat }).2
    odd := some (fun _ s => s)
    stored := fun e => storedBy e u .gst q (readA e.r (cFile u) d.toNat) }

/-- An atomic: the operand in `x`; a width bit of 0 is 32, of 1 is 64. -/
def atomOp (h : Hd) (u : Unit2) (kind : ReqKind) (d x : BitVec 4) (hint q : BitVec 2) (z : BitVec 1) : SlotOp :=
  loadOp h u kind (2 + z.toNat) d hint q [x] (fun e => readA e.r (cFile u) x.toNat) (fun _ => 0)

/-- ACAS: `d` also holds the compare value. -/
def acasOp (h : Hd) (u : Unit2) (d x : BitVec 4) (hint q : BitVec 2) (z : BitVec 1) : SlotOp :=
  loadOp h u .acas (2 + z.toNat) d hint q [x, d] (fun e => readA e.r (cFile u) x.toNat) (fun e => readA e.r (cFile u) d.toNat)

/-! ## Address registers (R308) -/

def asetOp (h : Hd) (u : Unit2) (d : BitVec 4) (a : BitVec 6) : SlotOp :=
  { pos := cPos u, h, reads := [.s a.toNat], writes := [.a (cFile u) d.toNat]
    eff := fun e s => postResult s e.c e.x 1 (.a (cFile u) d.toNat) ((readS e.r a.toNat).setWidth 2048) }
def aaddiOp (h : Hd) (u : Unit2) (d : BitVec 4) (i : BitVec 12) : SlotOp :=
  { pos := cPos u, h, reads := [.a (cFile u) d.toNat], writes := [.a (cFile u) d.toNat]
    eff := fun e s => postResult s e.c e.x 1 (.a (cFile u) d.toNat)
      ((readA e.r (cFile u) d.toNat + i.signExtend 64).setWidth 2048) }
def astrOp (h : Hd) (u : Unit2) (d : BitVec 4) (i : BitVec 12) : SlotOp :=
  { pos := cPos u, h
    eff := fun e s => modRegs s e.c e.x (fun r => { r with strides := smPut r.strides (aIdx (cFile u) d.toNat) i }) }

/-! ## Fences and prefetches (R111, R320, R321) -/

/-- Whether a request is an earlier access or chunk of the context that is not yet performed; a held copy is none. -/
def unperformed (e : Env) (r : Req) : Bool :=
  r.core = e.c && r.ctx = e.x && r.job = e.ctx.j.job && r.kind ≠ ReqKind.pref && r.st ≠ ReqSt.held
  && !(!isAccess r.kind && r.st = ReqSt.running && translatedAll e.p r && r.chunks.all (fun c => c.done))

/-- Publish versions at a scope around some core positions, and to who made them (R110). -/
def publishAround (s : State) (f : Version → Bool) (me : List Pub) (cores : List Nat) (scope : BitVec 2) : State :=
  match scopePub cores scope with
  | none => (s.c.versions.filter f).foldl (fun s v => mergeVersion s v.id) s
  | some ps => publishTo s f (me ++ ps)

/-- The greatest timestamp that a context's accesses and chunks have taken, those of unfinished copies among them (R111). -/
def fenceTs (e : Env) : Nat :=
  e.p.x.reqs.foldl (fun m p => if p.2.core = e.c ∧ p.2.ctx = e.x ∧ p.2.job = e.ctx.j.job ∧ p.2.st ≠ .held then max m p.2.maxTs else m) e.ctx.maxTs

/-- CFENCE: the context's versions are published at the scope and its clock rises above what they took. -/
def cfenceOp (h : Hd) (u : Unit2) (sc : BitVec 2) : SlotOp :=
  { pos := cPos u, h
    check := fun e => stopIf (e.p.x.reqs.any (fun p => unperformed e p.2)) (.wait 14 0)
    eff := fun e s =>
      let p := e.ctx.j
      let s := match p.job with
        | some j => publishAround s (fun v => v.job = some j && v.rank = p.rank) [.member j p.rank] (if p.prot then [e.c, e.c + 1] else [e.c]) sc
        | none => s
      if fenceTs e = 0 then s else raiseClock s (agentOf e.c e.x) (fenceTs e + 1)
    odd := some (fun _ s => s) }

/-- PREF: a hint of no-allocate or bypass makes it do nothing. -/
def prefOp (h : Hd) (u : Unit2) (hint q : BitVec 2) : SlotOp :=
  { pos := cPos u, h, bad := hint = 3, reads := quadRegs u q
    eff := fun e s => if hint = 0 then (accessIssue s (cReq e u .pref hint q)).2 else s
    odd := some (fun _ s => s) }

/-! ## The instructions -/

/-- LDV_X: Load a scratchpad row into an x register (R305). -/
def opLdvX (h : Hd) (u : Unit2) (d : BitVec 6) (b : BitVec 5) (r : BitVec 4) (i : BitVec 3) : SlotOp :=
  ldvOp h u false d b r i
/-- The meaning of LDV_X (R305). -/
def execLdvX (h : Hd) (u : Unit2) (d : BitVec 6) (b : BitVec 5) (r : BitVec 4) (i : BitVec 3) (s0 : State) : Host.Outcome State Fault Refusal :=
  issueOne s0 (opLdvX h u d b r i)

/-- STV_X: Store an x register into a scratchpad row (R305). -/
def opStvX (h : Hd) (u : Unit2) (d : BitVec 6) (b : BitVec 5) (r : BitVec 4) (i : BitVec 3) : SlotOp :=
  stvOp h u false d b r i
/-- The meaning of STV_X (R305). -/
def execStvX (h : Hd) (u : Unit2) (d : BitVec 6) (b : BitVec 5) (r : BitVec 4) (i : BitVec 3) (s0 : State) : Host.Outcome State Fault Refusal :=
  issueOne s0 (opStvX h u d b r i)

/-- LDV_Y: Load a scratchpad row into a y register (R305). -/
def opLdvY (h : Hd) (u : Unit2) (d : BitVec 6) (b : BitVec 5) (r : BitVec 4) (i : BitVec 3) : SlotOp :=
  ldvOp h u true d b r i
/-- The meaning of LDV_Y (R305). -/
def execLdvY (h : Hd) (u : Unit2) (d : BitVec 6) (b : BitVec 5) (r : BitVec 4) (i : BitVec 3) (s0 : State) : Host.Outcome State Fault Refusal :=
  issueOne s0 (opLdvY h u d b r i)

/-- STV_Y: Store a y register into a scratchpad row (R305). -/
def opStvY (h : Hd) (u : Unit2) (d : BitVec 6) (b : BitVec 5) (r : BitVec 4) (i : BitVec 3) : SlotOp :=
  stvOp h u true d b r i
/-- The meaning of STV_Y (R305). -/
def execStvY (h : Hd) (u : Unit2) (d : BitVec 6) (b : BitVec 5) (r : BitVec 4) (i : BitVec 3) (s0 : State) : Host.Outcome State Fault Refusal :=
  issueOne s0 (opStvY h u d b r i)

/-- LDS: Load one scratchpad element into an s register (R305). -/
def opLds (h : Hd) (u : Unit2) (d : BitVec 6) (b : BitVec 5) (r : BitVec 4) (i : BitVec 3) : SlotOp :=
  ldsOp h u d b r i
/-- The meaning of LDS (R305). -/
def execLds (h : Hd) (u : Unit2) (d : BitVec 6) (b : BitVec 5) (r : BitVec 4) (i : BitVec 3) (s0 : State) : Host.Outcome State Fault Refusal :=
  issueOne s0 (opLds h u d b r i)

/-- STS: Store one element from an s register into a scratchpad row (R305). -/
def opSts (h : Hd) (u : Unit2) (d : BitVec 6) (b : BitVec 5) (r : BitVec 4) (i : BitVec 3) : SlotOp :=
  stsOp h u d b r i
/-- The meaning of STS (R305). -/
def execSts (h : Hd) (u : Unit2) (d : BitVec 6) (b : BitVec 5) (r : BitVec 4) (i : BitVec 3) (s0 : State) : Host.Outcome State Fault Refusal :=
  issueOne s0 (opSts h u d b r i)

/-- COPY: Copy a tensor box into a scratchpad tile asynchronously (R310). -/
def opCopy (h : Hd) (u : Unit2) (c : BitVec 4) (t : BitVec 8) (hint : BitVec 2) (q : BitVec 2) : SlotOp :=
  copyOp h u .copy c t hint q
/-- The meaning of COPY (R310). -/
def execCopy (h : Hd) (u : Unit2) (c : BitVec 4) (t : BitVec 8) (hint : BitVec 2) (q : BitVec 2) (s0 : State) : Host.Outcome State Fault Refusal :=
  issueOne s0 (opCopy h u c t hint q)

/-- COPYO: Copy a scratchpad tile out into a tensor box (R310). -/
def opCopyo (h : Hd) (u : Unit2) (c : BitVec 4) (t : BitVec 8) (hint : BitVec 2) (q : BitVec 2) : SlotOp :=
  copyOp h u .copyo c t hint q
/-- The meaning of COPYO (R310). -/
def execCopyo (h : Hd) (u : Unit2) (c : BitVec 4) (t : BitVec 8) (hint : BitVec 2) (q : BitVec 2) (s0 : State) : Host.Outcome State Fault Refusal :=
  issueOne s0 (opCopyo h u c t hint q)

/-- COPYN: Run the six-level copy sequencer on a nest descriptor (R315). -/
def opCopyn (h : Hd) (u : Unit2) (c : BitVec 4) (t : BitVec 8) (hint : BitVec 2) (q : BitVec 2) : SlotOp :=
  copynOp h u c t hint q
/-- The meaning of COPYN (R315). -/
def execCopyn (h : Hd) (u : Unit2) (c : BitVec 4) (t : BitVec 8) (hint : BitVec 2) (q : BitVec 2) (s0 : State) : Host.Outcome State Fault Refusal :=
  issueOne s0 (opCopyn h u c t hint q)

/-- WFILL: Copy one tensor tile into a weight-buffer unit (R316). -/
def opWfill (h : Hd) (u : Unit2) (c : BitVec 4) (t : BitVec 6) (hint : BitVec 2) (q : BitVec 2) : SlotOp :=
  wfillOp h u c t hint q
/-- The meaning of WFILL (R316). -/
def execWfill (h : Hd) (u : Unit2) (c : BitVec 4) (t : BitVec 6) (hint : BitVec 2) (q : BitVec 2) (s0 : State) : Host.Outcome State Fault Refusal :=
  issueOne s0 (opWfill h u c t hint q)

/-- TREL: Release a scratchpad tile to empty (R317). -/
def opTrel (h : Hd) (u : Unit2) (t : BitVec 8) : SlotOp :=
  trelOp h u t
/-- The meaning of TREL (R317). -/
def execTrel (h : Hd) (u : Unit2) (t : BitVec 8) (s0 : State) : Host.Outcome State Fault Refusal :=
  issueOne s0 (opTrel h u t)

/-- TSTAT: Write a tile's ready and empty state into a predicate pair (R317). -/
def opTstat (h : Hd) (u : Unit2) (p : BitVec 4) (t : BitVec 8) : SlotOp :=
  tstatOp h u p t
/-- The meaning of TSTAT (R317). -/
def execTstat (h : Hd) (u : Unit2) (p : BitVec 4) (t : BitVec 8) (s0 : State) : Host.Outcome State Fault Refusal :=
  issueOne s0 (opTstat h u p t)

/-- GLD: Coherent load of one tensor word into an address register (R318). -/
def opGld (h : Hd) (u : Unit2) (d : BitVec 4) (hint : BitVec 2) (q : BitVec 2) (z : BitVec 2) : SlotOp :=
  gldOp h u d hint q z
/-- The meaning of GLD (R318). -/
def execGld (h : Hd) (u : Unit2) (d : BitVec 4) (hint : BitVec 2) (q : BitVec 2) (z : BitVec 2) (s0 : State) : Host.Outcome State Fault Refusal :=
  issueOne s0 (opGld h u d hint q z)

/-- GST: Coherent store of one tensor word (R318). -/
def opGst (h : Hd) (u : Unit2) (d : BitVec 4) (hint : BitVec 2) (q : BitVec 2) (z : BitVec 2) : SlotOp :=
  gstOp h u d hint q z
/-- The meaning of GST (R318). -/
def execGst (h : Hd) (u : Unit2) (d : BitVec 4) (hint : BitVec 2) (q : BitVec 2) (z : BitVec 2) (s0 : State) : Host.Outcome State Fault Refusal :=
  issueOne s0 (opGst h u d hint q z)

/-- AADD: Atomic add, returning the old word (R319). -/
def opAadd (h : Hd) (u : Unit2) (d : BitVec 4) (e : BitVec 4) (hint : BitVec 2) (q : BitVec 2) (z : BitVec 1) : SlotOp :=
  atomOp h u .aadd d e hint q z
/-- The meaning of AADD (R319). -/
def execAadd (h : Hd) (u : Unit2) (d : BitVec 4) (e : BitVec 4) (hint : BitVec 2) (q : BitVec 2) (z : BitVec 1) (s0 : State) : Host.Outcome State Fault Refusal :=
  issueOne s0 (opAadd h u d e hint q z)

/-- ASWAP: Atomic swap (R319). -/
def opAswap (h : Hd) (u : Unit2) (d : BitVec 4) (e : BitVec 4) (hint : BitVec 2) (q : BitVec 2) (z : BitVec 1) : SlotOp :=
  atomOp h u .aswap d e hint q z
/-- The meaning of ASWAP (R319). -/
def execAswap (h : Hd) (u : Unit2) (d : BitVec 4) (e : BitVec 4) (hint : BitVec 2) (q : BitVec 2) (z : BitVec 1) (s0 : State) : Host.Outcome State Fault Refusal :=
  issueOne s0 (opAswap h u d e hint q z)

/-- AMIN: Atomic signed minimum (R319). -/
def opAmin (h : Hd) (u : Unit2) (d : BitVec 4) (e : BitVec 4) (hint : BitVec 2) (q : BitVec 2) (z : BitVec 1) : SlotOp :=
  atomOp h u .amin d e hint q z
/-- The meaning of AMIN (R319). -/
def execAmin (h : Hd) (u : Unit2) (d : BitVec 4) (e : BitVec 4) (hint : BitVec 2) (q : BitVec 2) (z : BitVec 1) (s0 : State) : Host.Outcome State Fault Refusal :=
  issueOne s0 (opAmin h u d e hint q z)

/-- AMAX: Atomic signed maximum (R319). -/
def opAmax (h : Hd) (u : Unit2) (d : BitVec 4) (e : BitVec 4) (hint : BitVec 2) (q : BitVec 2) (z : BitVec 1) : SlotOp :=
  atomOp h u .amax d e hint q z
/-- The meaning of AMAX (R319). -/
def execAmax (h : Hd) (u : Unit2) (d : BitVec 4) (e : BitVec 4) (hint : BitVec 2) (q : BitVec 2) (z : BitVec 1) (s0 : State) : Host.Outcome State Fault Refusal :=
  issueOne s0 (opAmax h u d e hint q z)

/-- AAND: Atomic AND (R319). -/
def opAand (h : Hd) (u : Unit2) (d : BitVec 4) (e : BitVec 4) (hint : BitVec 2) (q : BitVec 2) (z : BitVec 1) : SlotOp :=
  atomOp h u .aand d e hint q z
/-- The meaning of AAND (R319). -/
def execAand (h : Hd) (u : Unit2) (d : BitVec 4) (e : BitVec 4) (hint : BitVec 2) (q : BitVec 2) (z : BitVec 1) (s0 : State) : Host.Outcome State Fault Refusal :=
  issueOne s0 (opAand h u d e hint q z)

/-- AOR: Atomic OR (R319). -/
def opAor (h : Hd) (u : Unit2) (d : BitVec 4) (e : BitVec 4) (hint : BitVec 2) (q : BitVec 2) (z : BitVec 1) : SlotOp :=
  atomOp h u .aor d e hint q z
/-- The meaning of AOR (R319). -/
def execAor (h : Hd) (u : Unit2) (d : BitVec 4) (e : BitVec 4) (hint : BitVec 2) (q : BitVec 2) (z : BitVec 1) (s0 : State) : Host.Outcome State Fault Refusal :=
  issueOne s0 (opAor h u d e hint q z)

/-- ACAS: Atomic compare-and-swap (R319). -/
def opAcas (h : Hd) (u : Unit2) (d : BitVec 4) (e : BitVec 4) (hint : BitVec 2) (q : BitVec 2) (z : BitVec 1) : SlotOp :=
  acasOp h u d e hint q z
/-- The meaning of ACAS (R319). -/
def execAcas (h : Hd) (u : Unit2) (d : BitVec 4) (e : BitVec 4) (hint : BitVec 2) (q : BitVec 2) (z : BitVec 1) (s0 : State) : Host.Outcome State Fault Refusal :=
  issueOne s0 (opAcas h u d e hint q z)

/-- ASET: Set an address register from an s register (R308). -/
def opAset (h : Hd) (u : Unit2) (d : BitVec 4) (s : BitVec 6) : SlotOp :=
  asetOp h u d s
/-- The meaning of ASET (R308). -/
def execAset (h : Hd) (u : Unit2) (d : BitVec 4) (s : BitVec 6) (s0 : State) : Host.Outcome State Fault Refusal :=
  issueOne s0 (opAset h u d s)

/-- AADDI: Add a signed immediate to an address register (R308). -/
def opAaddi (h : Hd) (u : Unit2) (d : BitVec 4) (i : BitVec 12) : SlotOp :=
  aaddiOp h u d i
/-- The meaning of AADDI (R308). -/
def execAaddi (h : Hd) (u : Unit2) (d : BitVec 4) (i : BitVec 12) (s0 : State) : Host.Outcome State Fault Refusal :=
  issueOne s0 (opAaddi h u d i)

/-- ASTR: Set an address register's stride (R308). -/
def opAstr (h : Hd) (u : Unit2) (d : BitVec 4) (i : BitVec 12) : SlotOp :=
  astrOp h u d i
/-- The meaning of ASTR (R308). -/
def execAstr (h : Hd) (u : Unit2) (d : BitVec 4) (i : BitVec 12) (s0 : State) : Host.Outcome State Fault Refusal :=
  issueOne s0 (opAstr h u d i)

/-- CFENCE: Wait for earlier accesses and chunks to be performed at scope and raise lc (R321). -/
def opCfence (h : Hd) (u : Unit2) (s : BitVec 2) : SlotOp :=
  cfenceOp h u s
/-- The meaning of CFENCE (R321). -/
def execCfence (h : Hd) (u : Unit2) (s : BitVec 2) (s0 : State) : Host.Outcome State Fault Refusal :=
  issueOne s0 (opCfence h u s)

/-- PREF: Prefetch a box's lines into the cluster slice (R320). -/
def opPref (h : Hd) (u : Unit2) (hint : BitVec 2) (q : BitVec 2) : SlotOp :=
  prefOp h u hint q
/-- The meaning of PREF (R320). -/
def execPref (h : Hd) (u : Unit2) (hint : BitVec 2) (q : BitVec 2) (s0 : State) : Host.Outcome State Fault Refusal :=
  issueOne s0 (opPref h u hint q)

end Sys2Proof.Machine
end

