-- ==== Sys2Proof/Machine/Scalar.lean ====
section
/-! DEFINITION. The S slot: integer, compare, floating-point, conversion, predicate and selection operations
(R238 to R248, R207). -/

namespace Sys2Proof.Machine

/-! ## Shared forms -/

def sreg (r : Regs) (n : BitVec 6) : Word := readS r n.toNat

/-- Write an s register at a latency; a write to s0 is discarded with its flags (R238). -/
def sWrite (e : Env) (s : State) (lat : Nat) (d : BitVec 6) (v : Word) (fl : Flags) : State :=
  postResult s e.c e.x lat (.s d.toNat) (v.setWidth 2048) (if d = 0 then 0 else fl)

/-- Two s sources, one s result. -/
def sRRR (h : Hd) (lat : Nat) (d a b : BitVec 6) (f : Word → Word → Word × Flags) : SlotOp :=
  { pos := 0, h, reads := [.s a.toNat, .s b.toNat], writes := [.s d.toNat]
    eff := fun e s => let (v, fl) := f (sreg e.r a) (sreg e.r b); sWrite e s lat d v fl }

/-- One s source, one s result. -/
def sRR (h : Hd) (lat : Nat) (d a : BitVec 6) (f : Word → Word × Flags) (bad : Bool := false) : SlotOp :=
  { pos := 0, h, bad, reads := [.s a.toNat], writes := [.s d.toNat]
    eff := fun e s => let (v, fl) := f (sreg e.r a); sWrite e s lat d v fl }

/-- An s register that is source and destination beside two sources (FFMA). -/
def sRRRR (h : Hd) (lat : Nat) (d a b : BitVec 6) (f : Word → Word → Word → Word × Flags) : SlotOp :=
  { pos := 0, h, reads := [.s a.toNat, .s b.toNat, .s d.toNat], writes := [.s d.toNat]
    eff := fun e s => let (v, fl) := f (sreg e.r a) (sreg e.r b) (sreg e.r d); sWrite e s lat d v fl }

/-- A result without flags. -/
def noFl (v : Word) : Word × Flags := (v, 0)

/-! ## Integer functions (R239, R240, R242) -/

def shlW (a b : Word) : Word := a <<< (b.toNat % 64)
def shrW (a b : Word) : Word := a >>> (b.toNat % 64)
def sarW (a b : Word) : Word := a.sshiftRight (b.toNat % 64)
def mulhW (a b : Word) : Word := ((a.signExtend 128) * (b.signExtend 128)).extractLsb' 64 64
def mulhnW (a b : Word) : Word := ((a.setWidth 128) * (b.setWidth 128)).extractLsb' 64 64
/-- Signed quotient toward zero; 0 for a zero divisor (R240). -/
def divW (a b : Word) : Word := if b = 0 then 0 else BitVec.ofInt 64 (a.toInt.tdiv b.toInt)
def divnW (a b : Word) : Word := if b = 0 then 0 else BitVec.ofNat 64 (a.toNat / b.toNat)
/-- Remainder with the sign of the dividend; the dividend for a zero divisor (R240). -/
def remW (a b : Word) : Word := if b = 0 then a else BitVec.ofInt 64 (a.toInt.tmod b.toInt)
def remnW (a b : Word) : Word := if b = 0 then a else BitVec.ofNat 64 (a.toNat % b.toNat)
def minW (a b : Word) : Word := if a.toInt ≤ b.toInt then a else b
def maxW (a b : Word) : Word := if a.toInt ≤ b.toInt then b else a
def minnW (a b : Word) : Word := if a.toNat ≤ b.toNat then a else b
def maxnW (a b : Word) : Word := if a.toNat ≤ b.toNat then b else a
/-- SETW at position `k` (R242). -/
def setwW (k : Nat) (d : Word) (i : BitVec 12) : Word :=
  (d &&& ~~~(BitVec.ofNat 64 (4095 * 2 ^ (12 * k)))) ||| (BitVec.ofNat 64 (i.toNat * 2 ^ (12 * k)))
/-- SEXT for width code 0, 1, 2 (R242). -/
def sextW (z : BitVec 2) (a : Word) : Word :=
  match z.toNat with
  | 0 => (a.setWidth 8).signExtend 64
  | 1 => (a.setWidth 16).signExtend 64
  | _ => (a.setWidth 32).signExtend 64
/-- Leading zero bits (R242). -/
def clzW (a : Word) : Word := if a = 0 then 64 else BitVec.ofNat 64 (63 - a.toNat.log2)
def popcW (a : Word) : Word := BitVec.ofNat 64 (popc a)

/-- SETW reads its destination. -/
def setwOp (h : Hd) (k : Nat) (d : BitVec 6) (i : BitVec 12) : SlotOp := sRR h 1 d d (fun v => noFl (setwW k v i))

/-! ## Compares (R207, R243, R245) -/

/-- The pair written by a compare with a true guard; `p` is the state read, `r` the one written (R207, R208). -/
def pairWrite (p r : Regs) (d : BitVec 4) (md : BitVec 2) (c : Bool) : Regs :=
  let i := d.toNat
  let j := (d ^^^ 1).toNat
  let (x, y) := match md.toNat with
    | 1 => (readP p i && c, readP p j || !c)
    | 2 => (readP p i || c, readP p j && !c)
    | _ => (c, !c)
  writeP (writeP r i x) j y

/-- The pair cleared by an unconditional compare with a false guard (R207). -/
def pairClear (r : Regs) (d : BitVec 4) (md : BitVec 2) : Regs :=
  if md = 3 then writeP (writeP r d.toNat false) (d ^^^ 1).toNat false else r

/-- A compare of s registers. -/
def cmpOp (h : Hd) (p : BitVec 4) (md : BitVec 2) (reads : List Rd) (f : Regs → Bool × Flags) : SlotOp :=
  { pos := 0, h, reads
    eff := fun e s => let (c, fl) := f e.r; modRegs s e.c e.x (fun r => raise (pairWrite e.r r p md c) fl)
    effF := fun e s => modRegs s e.c e.x (fun r => pairClear r p md) }

def cmpRR (h : Hd) (p : BitVec 4) (md : BitVec 2) (a b : BitVec 6) (f : Word → Word → Bool) : SlotOp :=
  cmpOp h p md [.s a.toNat, .s b.toNat] (fun r => (f (sreg r a) (sreg r b), 0))
def cmpRI (h : Hd) (p : BitVec 4) (md : BitVec 2) (a : BitVec 6) (i : Word) (f : Word → Word → Bool) : SlotOp :=
  cmpOp h p md [.s a.toNat] (fun r => (f (sreg r a) i, 0))
def eqC (a b : Word) : Bool := a = b
def neC (a b : Word) : Bool := a ≠ b
def ltC (a b : Word) : Bool := a.toInt < b.toInt
def leC (a b : Word) : Bool := a.toInt ≤ b.toInt
def ltnC (a b : Word) : Bool := a.toNat < b.toNat
def lenC (a b : Word) : Bool := a.toNat ≤ b.toNat

/-! ## Floating point (R238, R244 to R246) -/

/-- The format-`f` bits of an s register (R238). -/
def fbits (f : Ff) (v : Word) : Nat := v.toNat % 2 ^ f.width
/-- A floating-point result extended to 64 bits (R238). -/
def ofRes (r : Res) : Word × Flags := (BitVec.ofNat 64 r.1, r.2)

def fOp2 (h : Hd) (f : Ff) (d a b : BitVec 6) (g : Ff → Nat → Nat → Res) : SlotOp :=
  sRRR h 4 d a b (fun x y => ofRes (g f (fbits f x) (fbits f y)))
def fOp3 (h : Hd) (f : Ff) (d a b : BitVec 6) (g : Ff → Nat → Nat → Nat → Res) : SlotOp :=
  sRRRR h 4 d a b (fun x y z => ofRes (g f (fbits f x) (fbits f y) (fbits f z)))
def fcmpOp (h : Hd) (f : Ff) (cc : Nat) (p : BitVec 4) (md : BitVec 2) (a b : BitVec 6) : SlotOp :=
  cmpOp h p md [.s a.toNat, .s b.toNat] (fun r => fCompare cc f (fbits f (sreg r a)) (fbits f (sreg r b)))

/-- The type codes of the X and Y fields of CVT; 3 is reserved (R217). -/
def cvtType (x : BitVec 2) : Ff :=
  match x.toNat with
  | 0 => .f32
  | 1 => .f16
  | _ => .b16

/-- FTOI to `w` bits, signed or not, from a format-`f` value (R246). -/
def ftoiW (signed : Bool) (f : Ff) (rm z : BitVec 2) (v : Word) : Word × Flags :=
  let w := 8 * 2 ^ z.toNat
  let lo : Int := if signed then -((2 ^ (w - 1) : Nat) : Int) else 0
  let hi : Int := if signed then ((2 ^ (w - 1) : Nat) : Int) - 1 else ((2 ^ w : Nat) : Int) - 1
  let (n, fl) := cvtInt lo hi rm (.real (unpack f (fbits f v)))
  (BitVec.ofInt 64 n, fl)

/-! ## Predicates and selection (R247, R248) -/

/-- A predicate operation writes Pd only. -/
def pOp (h : Hd) (p : BitVec 4) (f : Regs → Bool) : SlotOp :=
  { pos := 0, h, eff := fun e s => modRegs s e.c e.x (fun r => writeP r p.toNat (f e.r)) }

/-- SEL writes the source that its guard selects, and reads only that (R248). -/
def selOp (h : Hd) (d a b : BitVec 6) : SlotOp :=
  { pos := 0, h, reads := [.s a.toNat], readsF := [.s b.toNat], writes := [.s d.toNat]
    eff := fun e s => sWrite e s 1 d (sreg e.r a) 0
    effF := fun e s => sWrite e s 1 d (sreg e.r b) 0 }

/-- MOVA: an address register's value (R249). -/
def movaOp (h : Hd) (d : BitVec 6) (f : BitVec 1) (r : BitVec 4) : SlotOp :=
  { pos := 0, h, reads := [.a (f = 1) r.toNat], writes := [.s d.toNat]
    eff := fun e s => sWrite e s 1 d (readA e.r (f = 1) r.toNat) 0 }

/-! ## The operations -/

/-- ADD: d := a + b modulo 2^64 (R239). -/
def opAdd (h : Hd) (d : BitVec 6) (a : BitVec 6) (b : BitVec 6) : SlotOp :=
  sRRR h 1 d a b (fun a b => noFl (a + b))
/-- The meaning of ADD (R239). -/
def execAdd (h : Hd) (d : BitVec 6) (a : BitVec 6) (b : BitVec 6) (s0 : State) : Host.Outcome State Fault Refusal :=
  issueOne s0 (opAdd h d a b)

/-- SUB: d := a - b modulo 2^64 (R239). -/
def opSub (h : Hd) (d : BitVec 6) (a : BitVec 6) (b : BitVec 6) : SlotOp :=
  sRRR h 1 d a b (fun a b => noFl (a - b))
/-- The meaning of SUB (R239). -/
def execSub (h : Hd) (d : BitVec 6) (a : BitVec 6) (b : BitVec 6) (s0 : State) : Host.Outcome State Fault Refusal :=
  issueOne s0 (opSub h d a b)

/-- AND: d := a AND b (R239). -/
def opAnd (h : Hd) (d : BitVec 6) (a : BitVec 6) (b : BitVec 6) : SlotOp :=
  sRRR h 1 d a b (fun a b => noFl (a &&& b))
/-- The meaning of AND (R239). -/
def execAnd (h : Hd) (d : BitVec 6) (a : BitVec 6) (b : BitVec 6) (s0 : State) : Host.Outcome State Fault Refusal :=
  issueOne s0 (opAnd h d a b)

/-- OR: d := a OR b (R239). -/
def opOr (h : Hd) (d : BitVec 6) (a : BitVec 6) (b : BitVec 6) : SlotOp :=
  sRRR h 1 d a b (fun a b => noFl (a ||| b))
/-- The meaning of OR (R239). -/
def execOr (h : Hd) (d : BitVec 6) (a : BitVec 6) (b : BitVec 6) (s0 : State) : Host.Outcome State Fault Refusal :=
  issueOne s0 (opOr h d a b)

/-- XOR: d := a XOR b (R239). -/
def opXor (h : Hd) (d : BitVec 6) (a : BitVec 6) (b : BitVec 6) : SlotOp :=
  sRRR h 1 d a b (fun a b => noFl (a ^^^ b))
/-- The meaning of XOR (R239). -/
def execXor (h : Hd) (d : BitVec 6) (a : BitVec 6) (b : BitVec 6) (s0 : State) : Host.Outcome State Fault Refusal :=
  issueOne s0 (opXor h d a b)

/-- ANDN: d := a AND NOT b (R239). -/
def opAndn (h : Hd) (d : BitVec 6) (a : BitVec 6) (b : BitVec 6) : SlotOp :=
  sRRR h 1 d a b (fun a b => noFl (a &&& ~~~b))
/-- The meaning of ANDN (R239). -/
def execAndn (h : Hd) (d : BitVec 6) (a : BitVec 6) (b : BitVec 6) (s0 : State) : Host.Outcome State Fault Refusal :=
  issueOne s0 (opAndn h d a b)

/-- SHL: Shift left by b[5:0] (R239). -/
def opShl (h : Hd) (d : BitVec 6) (a : BitVec 6) (b : BitVec 6) : SlotOp :=
  sRRR h 1 d a b (fun a b => noFl (shlW a b))
/-- The meaning of SHL (R239). -/
def execShl (h : Hd) (d : BitVec 6) (a : BitVec 6) (b : BitVec 6) (s0 : State) : Host.Outcome State Fault Refusal :=
  issueOne s0 (opShl h d a b)

/-- SHR: Logical shift right by b[5:0] (R239). -/
def opShr (h : Hd) (d : BitVec 6) (a : BitVec 6) (b : BitVec 6) : SlotOp :=
  sRRR h 1 d a b (fun a b => noFl (shrW a b))
/-- The meaning of SHR (R239). -/
def execShr (h : Hd) (d : BitVec 6) (a : BitVec 6) (b : BitVec 6) (s0 : State) : Host.Outcome State Fault Refusal :=
  issueOne s0 (opShr h d a b)

/-- SAR: Arithmetic shift right by b[5:0] (R239). -/
def opSar (h : Hd) (d : BitVec 6) (a : BitVec 6) (b : BitVec 6) : SlotOp :=
  sRRR h 1 d a b (fun a b => noFl (sarW a b))
/-- The meaning of SAR (R239). -/
def execSar (h : Hd) (d : BitVec 6) (a : BitVec 6) (b : BitVec 6) (s0 : State) : Host.Outcome State Fault Refusal :=
  issueOne s0 (opSar h d a b)

/-- MUL: Low 64 bits of a × b (R239). -/
def opMul (h : Hd) (d : BitVec 6) (a : BitVec 6) (b : BitVec 6) : SlotOp :=
  sRRR h 3 d a b (fun a b => noFl (a * b))
/-- The meaning of MUL (R239). -/
def execMul (h : Hd) (d : BitVec 6) (a : BitVec 6) (b : BitVec 6) (s0 : State) : Host.Outcome State Fault Refusal :=
  issueOne s0 (opMul h d a b)

/-- MULH: High 64 bits of the signed product (R239). -/
def opMulh (h : Hd) (d : BitVec 6) (a : BitVec 6) (b : BitVec 6) : SlotOp :=
  sRRR h 3 d a b (fun a b => noFl (mulhW a b))
/-- The meaning of MULH (R239). -/
def execMulh (h : Hd) (d : BitVec 6) (a : BitVec 6) (b : BitVec 6) (s0 : State) : Host.Outcome State Fault Refusal :=
  issueOne s0 (opMulh h d a b)

/-- MULHN: High 64 bits of the unsigned product (R239). -/
def opMulhn (h : Hd) (d : BitVec 6) (a : BitVec 6) (b : BitVec 6) : SlotOp :=
  sRRR h 3 d a b (fun a b => noFl (mulhnW a b))
/-- The meaning of MULHN (R239). -/
def execMulhn (h : Hd) (d : BitVec 6) (a : BitVec 6) (b : BitVec 6) (s0 : State) : Host.Outcome State Fault Refusal :=
  issueOne s0 (opMulhn h d a b)

/-- DIV: Signed quotient, 0 for division by zero (R240). -/
def opDiv (h : Hd) (d : BitVec 6) (a : BitVec 6) (b : BitVec 6) : SlotOp :=
  sRRR h 18 d a b (fun a b => noFl (divW a b))
/-- The meaning of DIV (R240). -/
def execDiv (h : Hd) (d : BitVec 6) (a : BitVec 6) (b : BitVec 6) (s0 : State) : Host.Outcome State Fault Refusal :=
  issueOne s0 (opDiv h d a b)

/-- DIVN: Unsigned quotient (R240). -/
def opDivn (h : Hd) (d : BitVec 6) (a : BitVec 6) (b : BitVec 6) : SlotOp :=
  sRRR h 18 d a b (fun a b => noFl (divnW a b))
/-- The meaning of DIVN (R240). -/
def execDivn (h : Hd) (d : BitVec 6) (a : BitVec 6) (b : BitVec 6) (s0 : State) : Host.Outcome State Fault Refusal :=
  issueOne s0 (opDivn h d a b)

/-- REM: Signed remainder (R240). -/
def opRem (h : Hd) (d : BitVec 6) (a : BitVec 6) (b : BitVec 6) : SlotOp :=
  sRRR h 18 d a b (fun a b => noFl (remW a b))
/-- The meaning of REM (R240). -/
def execRem (h : Hd) (d : BitVec 6) (a : BitVec 6) (b : BitVec 6) (s0 : State) : Host.Outcome State Fault Refusal :=
  issueOne s0 (opRem h d a b)

/-- REMN: Unsigned remainder (R240). -/
def opRemn (h : Hd) (d : BitVec 6) (a : BitVec 6) (b : BitVec 6) : SlotOp :=
  sRRR h 18 d a b (fun a b => noFl (remnW a b))
/-- The meaning of REMN (R240). -/
def execRemn (h : Hd) (d : BitVec 6) (a : BitVec 6) (b : BitVec 6) (s0 : State) : Host.Outcome State Fault Refusal :=
  issueOne s0 (opRemn h d a b)

/-- MIN: Signed minimum (R239). -/
def opMin (h : Hd) (d : BitVec 6) (a : BitVec 6) (b : BitVec 6) : SlotOp :=
  sRRR h 1 d a b (fun a b => noFl (minW a b))
/-- The meaning of MIN (R239). -/
def execMin (h : Hd) (d : BitVec 6) (a : BitVec 6) (b : BitVec 6) (s0 : State) : Host.Outcome State Fault Refusal :=
  issueOne s0 (opMin h d a b)

/-- MAX: Signed maximum (R239). -/
def opMax (h : Hd) (d : BitVec 6) (a : BitVec 6) (b : BitVec 6) : SlotOp :=
  sRRR h 1 d a b (fun a b => noFl (maxW a b))
/-- The meaning of MAX (R239). -/
def execMax (h : Hd) (d : BitVec 6) (a : BitVec 6) (b : BitVec 6) (s0 : State) : Host.Outcome State Fault Refusal :=
  issueOne s0 (opMax h d a b)

/-- MINN: Unsigned minimum (R239). -/
def opMinn (h : Hd) (d : BitVec 6) (a : BitVec 6) (b : BitVec 6) : SlotOp :=
  sRRR h 1 d a b (fun a b => noFl (minnW a b))
/-- The meaning of MINN (R239). -/
def execMinn (h : Hd) (d : BitVec 6) (a : BitVec 6) (b : BitVec 6) (s0 : State) : Host.Outcome State Fault Refusal :=
  issueOne s0 (opMinn h d a b)

/-- MAXN: Unsigned maximum (R239). -/
def opMaxn (h : Hd) (d : BitVec 6) (a : BitVec 6) (b : BitVec 6) : SlotOp :=
  sRRR h 1 d a b (fun a b => noFl (maxnW a b))
/-- The meaning of MAXN (R239). -/
def execMaxn (h : Hd) (d : BitVec 6) (a : BitVec 6) (b : BitVec 6) (s0 : State) : Host.Outcome State Fault Refusal :=
  issueOne s0 (opMaxn h d a b)

/-- ADD_IMM: d := a + sign-extended imm6 (R241). -/
def opAddImm (h : Hd) (d : BitVec 6) (a : BitVec 6) (i : BitVec 6) : SlotOp :=
  sRR h 1 d a (fun a => noFl (a + imm6s i))
/-- The meaning of ADD_IMM (R241). -/
def execAddImm (h : Hd) (d : BitVec 6) (a : BitVec 6) (i : BitVec 6) (s0 : State) : Host.Outcome State Fault Refusal :=
  issueOne s0 (opAddImm h d a i)

/-- AND_IMM: d := a AND sign-extended imm6 (R241). -/
def opAndImm (h : Hd) (d : BitVec 6) (a : BitVec 6) (i : BitVec 6) : SlotOp :=
  sRR h 1 d a (fun a => noFl (a &&& imm6s i))
/-- The meaning of AND_IMM (R241). -/
def execAndImm (h : Hd) (d : BitVec 6) (a : BitVec 6) (i : BitVec 6) (s0 : State) : Host.Outcome State Fault Refusal :=
  issueOne s0 (opAndImm h d a i)

/-- OR_IMM: d := a OR sign-extended imm6 (R241). -/
def opOrImm (h : Hd) (d : BitVec 6) (a : BitVec 6) (i : BitVec 6) : SlotOp :=
  sRR h 1 d a (fun a => noFl (a ||| imm6s i))
/-- The meaning of OR_IMM (R241). -/
def execOrImm (h : Hd) (d : BitVec 6) (a : BitVec 6) (i : BitVec 6) (s0 : State) : Host.Outcome State Fault Refusal :=
  issueOne s0 (opOrImm h d a i)

/-- XOR_IMM: d := a XOR sign-extended imm6 (R241). -/
def opXorImm (h : Hd) (d : BitVec 6) (a : BitVec 6) (i : BitVec 6) : SlotOp :=
  sRR h 1 d a (fun a => noFl (a ^^^ imm6s i))
/-- The meaning of XOR_IMM (R241). -/
def execXorImm (h : Hd) (d : BitVec 6) (a : BitVec 6) (i : BitVec 6) (s0 : State) : Host.Outcome State Fault Refusal :=
  issueOne s0 (opXorImm h d a i)

/-- SHL_IMM: Shift left by an unsigned imm6 count (R241). -/
def opShlImm (h : Hd) (d : BitVec 6) (a : BitVec 6) (i : BitVec 6) : SlotOp :=
  sRR h 1 d a (fun a => noFl (shlW a (imm6u i)))
/-- The meaning of SHL_IMM (R241). -/
def execShlImm (h : Hd) (d : BitVec 6) (a : BitVec 6) (i : BitVec 6) (s0 : State) : Host.Outcome State Fault Refusal :=
  issueOne s0 (opShlImm h d a i)

/-- SHR_IMM: Logical shift right by imm6 (R241). -/
def opShrImm (h : Hd) (d : BitVec 6) (a : BitVec 6) (i : BitVec 6) : SlotOp :=
  sRR h 1 d a (fun a => noFl (shrW a (imm6u i)))
/-- The meaning of SHR_IMM (R241). -/
def execShrImm (h : Hd) (d : BitVec 6) (a : BitVec 6) (i : BitVec 6) (s0 : State) : Host.Outcome State Fault Refusal :=
  issueOne s0 (opShrImm h d a i)

/-- SAR_IMM: Arithmetic shift right by imm6 (R241). -/
def opSarImm (h : Hd) (d : BitVec 6) (a : BitVec 6) (i : BitVec 6) : SlotOp :=
  sRR h 1 d a (fun a => noFl (sarW a (imm6u i)))
/-- The meaning of SAR_IMM (R241). -/
def execSarImm (h : Hd) (d : BitVec 6) (a : BitVec 6) (i : BitVec 6) (s0 : State) : Host.Outcome State Fault Refusal :=
  issueOne s0 (opSarImm h d a i)

/-- SETW_0: Replace bits [11:0] of d with imm12 (R242). -/
def opSetw0 (h : Hd) (d : BitVec 6) (i : BitVec 12) : SlotOp :=
  setwOp h 0 d i
/-- The meaning of SETW_0 (R242). -/
def execSetw0 (h : Hd) (d : BitVec 6) (i : BitVec 12) (s0 : State) : Host.Outcome State Fault Refusal :=
  issueOne s0 (opSetw0 h d i)

/-- SETW_1: Replace bits [23:12] of d with imm12 (R242). -/
def opSetw1 (h : Hd) (d : BitVec 6) (i : BitVec 12) : SlotOp :=
  setwOp h 1 d i
/-- The meaning of SETW_1 (R242). -/
def execSetw1 (h : Hd) (d : BitVec 6) (i : BitVec 12) (s0 : State) : Host.Outcome State Fault Refusal :=
  issueOne s0 (opSetw1 h d i)

/-- SETW_2: Replace bits [35:24] of d with imm12 (R242). -/
def opSetw2 (h : Hd) (d : BitVec 6) (i : BitVec 12) : SlotOp :=
  setwOp h 2 d i
/-- The meaning of SETW_2 (R242). -/
def execSetw2 (h : Hd) (d : BitVec 6) (i : BitVec 12) (s0 : State) : Host.Outcome State Fault Refusal :=
  issueOne s0 (opSetw2 h d i)

/-- SETW_3: Replace bits [47:36] of d with imm12 (R242). -/
def opSetw3 (h : Hd) (d : BitVec 6) (i : BitVec 12) : SlotOp :=
  setwOp h 3 d i
/-- The meaning of SETW_3 (R242). -/
def execSetw3 (h : Hd) (d : BitVec 6) (i : BitVec 12) (s0 : State) : Host.Outcome State Fault Refusal :=
  issueOne s0 (opSetw3 h d i)

/-- SETW_4: Replace bits [59:48] of d with imm12 (R242). -/
def opSetw4 (h : Hd) (d : BitVec 6) (i : BitVec 12) : SlotOp :=
  setwOp h 4 d i
/-- The meaning of SETW_4 (R242). -/
def execSetw4 (h : Hd) (d : BitVec 6) (i : BitVec 12) (s0 : State) : Host.Outcome State Fault Refusal :=
  issueOne s0 (opSetw4 h d i)

/-- SETW_5: Replace bits [63:60] of d with imm12[3:0] (R242). -/
def opSetw5 (h : Hd) (d : BitVec 6) (i : BitVec 4) : SlotOp :=
  setwOp h 5 d (i.setWidth 12)
/-- The meaning of SETW_5 (R242). -/
def execSetw5 (h : Hd) (d : BitVec 6) (i : BitVec 4) (s0 : State) : Host.Outcome State Fault Refusal :=
  issueOne s0 (opSetw5 h d i)

/-- SEXT: Sign-extend the low 8, 16 or 32 bits of a (R242). -/
def opSext (h : Hd) (d : BitVec 6) (a : BitVec 6) (z : BitVec 2) : SlotOp :=
  sRR h 1 d a (fun a => noFl (sextW z a)) (z = 3)
/-- The meaning of SEXT (R242). -/
def execSext (h : Hd) (d : BitVec 6) (a : BitVec 6) (z : BitVec 2) (s0 : State) : Host.Outcome State Fault Refusal :=
  issueOne s0 (opSext h d a z)

/-- CLZ: Count leading zero bits of a (R242). -/
def opClz (h : Hd) (d : BitVec 6) (a : BitVec 6) : SlotOp :=
  sRR h 1 d a (fun a => noFl (clzW a))
/-- The meaning of CLZ (R242). -/
def execClz (h : Hd) (d : BitVec 6) (a : BitVec 6) (s0 : State) : Host.Outcome State Fault Refusal :=
  issueOne s0 (opClz h d a)

/-- POPC: Count one bits of a (R242). -/
def opPopc (h : Hd) (d : BitVec 6) (a : BitVec 6) : SlotOp :=
  sRR h 1 d a (fun a => noFl (popcW a))
/-- The meaning of POPC (R242). -/
def execPopc (h : Hd) (d : BitVec 6) (a : BitVec 6) (s0 : State) : Host.Outcome State Fault Refusal :=
  issueOne s0 (opPopc h d a)

/-- CMP_EQ: Write a predicate pair from a = b (R243). -/
def opCmpEq (h : Hd) (p : BitVec 4) (m : BitVec 2) (a : BitVec 6) (b : BitVec 6) : SlotOp :=
  cmpRR h p m a b eqC
/-- The meaning of CMP_EQ (R243). -/
def execCmpEq (h : Hd) (p : BitVec 4) (m : BitVec 2) (a : BitVec 6) (b : BitVec 6) (s0 : State) : Host.Outcome State Fault Refusal :=
  issueOne s0 (opCmpEq h p m a b)

/-- CMP_NE: Write a predicate pair from a ≠ b (R243). -/
def opCmpNe (h : Hd) (p : BitVec 4) (m : BitVec 2) (a : BitVec 6) (b : BitVec 6) : SlotOp :=
  cmpRR h p m a b neC
/-- The meaning of CMP_NE (R243). -/
def execCmpNe (h : Hd) (p : BitVec 4) (m : BitVec 2) (a : BitVec 6) (b : BitVec 6) (s0 : State) : Host.Outcome State Fault Refusal :=
  issueOne s0 (opCmpNe h p m a b)

/-- CMP_LT: Write a predicate pair from signed a < b (R243). -/
def opCmpLt (h : Hd) (p : BitVec 4) (m : BitVec 2) (a : BitVec 6) (b : BitVec 6) : SlotOp :=
  cmpRR h p m a b ltC
/-- The meaning of CMP_LT (R243). -/
def execCmpLt (h : Hd) (p : BitVec 4) (m : BitVec 2) (a : BitVec 6) (b : BitVec 6) (s0 : State) : Host.Outcome State Fault Refusal :=
  issueOne s0 (opCmpLt h p m a b)

/-- CMP_LE: Write a predicate pair from signed a ≤ b (R243). -/
def opCmpLe (h : Hd) (p : BitVec 4) (m : BitVec 2) (a : BitVec 6) (b : BitVec 6) : SlotOp :=
  cmpRR h p m a b leC
/-- The meaning of CMP_LE (R243). -/
def execCmpLe (h : Hd) (p : BitVec 4) (m : BitVec 2) (a : BitVec 6) (b : BitVec 6) (s0 : State) : Host.Outcome State Fault Refusal :=
  issueOne s0 (opCmpLe h p m a b)

/-- CMP_LTN: Write a predicate pair from unsigned a < b (R243). -/
def opCmpLtn (h : Hd) (p : BitVec 4) (m : BitVec 2) (a : BitVec 6) (b : BitVec 6) : SlotOp :=
  cmpRR h p m a b ltnC
/-- The meaning of CMP_LTN (R243). -/
def execCmpLtn (h : Hd) (p : BitVec 4) (m : BitVec 2) (a : BitVec 6) (b : BitVec 6) (s0 : State) : Host.Outcome State Fault Refusal :=
  issueOne s0 (opCmpLtn h p m a b)

/-- CMP_LEN: Write a predicate pair from unsigned a ≤ b (R243). -/
def opCmpLen (h : Hd) (p : BitVec 4) (m : BitVec 2) (a : BitVec 6) (b : BitVec 6) : SlotOp :=
  cmpRR h p m a b lenC
/-- The meaning of CMP_LEN (R243). -/
def execCmpLen (h : Hd) (p : BitVec 4) (m : BitVec 2) (a : BitVec 6) (b : BitVec 6) (s0 : State) : Host.Outcome State Fault Refusal :=
  issueOne s0 (opCmpLen h p m a b)

/-- CMP_EQ_IMM: Compare a = sign-extended imm6 (R243). -/
def opCmpEqImm (h : Hd) (p : BitVec 4) (m : BitVec 2) (a : BitVec 6) (i : BitVec 6) : SlotOp :=
  cmpRI h p m a (imm6s i) eqC
/-- The meaning of CMP_EQ_IMM (R243). -/
def execCmpEqImm (h : Hd) (p : BitVec 4) (m : BitVec 2) (a : BitVec 6) (i : BitVec 6) (s0 : State) : Host.Outcome State Fault Refusal :=
  issueOne s0 (opCmpEqImm h p m a i)

/-- CMP_NE_IMM: Compare a ≠ sign-extended imm6 (R243). -/
def opCmpNeImm (h : Hd) (p : BitVec 4) (m : BitVec 2) (a : BitVec 6) (i : BitVec 6) : SlotOp :=
  cmpRI h p m a (imm6s i) neC
/-- The meaning of CMP_NE_IMM (R243). -/
def execCmpNeImm (h : Hd) (p : BitVec 4) (m : BitVec 2) (a : BitVec 6) (i : BitVec 6) (s0 : State) : Host.Outcome State Fault Refusal :=
  issueOne s0 (opCmpNeImm h p m a i)

/-- CMP_LT_IMM: Compare signed a < imm6 (R243). -/
def opCmpLtImm (h : Hd) (p : BitVec 4) (m : BitVec 2) (a : BitVec 6) (i : BitVec 6) : SlotOp :=
  cmpRI h p m a (imm6s i) ltC
/-- The meaning of CMP_LT_IMM (R243). -/
def execCmpLtImm (h : Hd) (p : BitVec 4) (m : BitVec 2) (a : BitVec 6) (i : BitVec 6) (s0 : State) : Host.Outcome State Fault Refusal :=
  issueOne s0 (opCmpLtImm h p m a i)

/-- CMP_LE_IMM: Compare signed a ≤ imm6 (R243). -/
def opCmpLeImm (h : Hd) (p : BitVec 4) (m : BitVec 2) (a : BitVec 6) (i : BitVec 6) : SlotOp :=
  cmpRI h p m a (imm6s i) leC
/-- The meaning of CMP_LE_IMM (R243). -/
def execCmpLeImm (h : Hd) (p : BitVec 4) (m : BitVec 2) (a : BitVec 6) (i : BitVec 6) (s0 : State) : Host.Outcome State Fault Refusal :=
  issueOne s0 (opCmpLeImm h p m a i)

/-- CMP_LTN_IMM: Compare unsigned a < zero-extended imm6 (R243). -/
def opCmpLtnImm (h : Hd) (p : BitVec 4) (m : BitVec 2) (a : BitVec 6) (i : BitVec 6) : SlotOp :=
  cmpRI h p m a (imm6u i) ltnC
/-- The meaning of CMP_LTN_IMM (R243). -/
def execCmpLtnImm (h : Hd) (p : BitVec 4) (m : BitVec 2) (a : BitVec 6) (i : BitVec 6) (s0 : State) : Host.Outcome State Fault Refusal :=
  issueOne s0 (opCmpLtnImm h p m a i)

/-- CMP_LEN_IMM: Compare unsigned a ≤ zero-extended imm6 (R243). -/
def opCmpLenImm (h : Hd) (p : BitVec 4) (m : BitVec 2) (a : BitVec 6) (i : BitVec 6) : SlotOp :=
  cmpRI h p m a (imm6u i) lenC
/-- The meaning of CMP_LEN_IMM (R243). -/
def execCmpLenImm (h : Hd) (p : BitVec 4) (m : BitVec 2) (a : BitVec 6) (i : BitVec 6) (s0 : State) : Host.Outcome State Fault Refusal :=
  issueOne s0 (opCmpLenImm h p m a i)

/-- FADD_F32: FP32 add rounded once (R244). -/
def opFaddF32 (h : Hd) (d : BitVec 6) (a : BitVec 6) (b : BitVec 6) : SlotOp :=
  fOp2 h .f32 d a b fAdd
/-- The meaning of FADD_F32 (R244). -/
def execFaddF32 (h : Hd) (d : BitVec 6) (a : BitVec 6) (b : BitVec 6) (s0 : State) : Host.Outcome State Fault Refusal :=
  issueOne s0 (opFaddF32 h d a b)

/-- FADD_F16: FP16 add (R244). -/
def opFaddF16 (h : Hd) (d : BitVec 6) (a : BitVec 6) (b : BitVec 6) : SlotOp :=
  fOp2 h .f16 d a b fAdd
/-- The meaning of FADD_F16 (R244). -/
def execFaddF16 (h : Hd) (d : BitVec 6) (a : BitVec 6) (b : BitVec 6) (s0 : State) : Host.Outcome State Fault Refusal :=
  issueOne s0 (opFaddF16 h d a b)

/-- FADD_B16: BF16 add (R244). -/
def opFaddB16 (h : Hd) (d : BitVec 6) (a : BitVec 6) (b : BitVec 6) : SlotOp :=
  fOp2 h .b16 d a b fAdd
/-- The meaning of FADD_B16 (R244). -/
def execFaddB16 (h : Hd) (d : BitVec 6) (a : BitVec 6) (b : BitVec 6) (s0 : State) : Host.Outcome State Fault Refusal :=
  issueOne s0 (opFaddB16 h d a b)

/-- FSUB_F32: FP32 subtract (R244). -/
def opFsubF32 (h : Hd) (d : BitVec 6) (a : BitVec 6) (b : BitVec 6) : SlotOp :=
  fOp2 h .f32 d a b fSub
/-- The meaning of FSUB_F32 (R244). -/
def execFsubF32 (h : Hd) (d : BitVec 6) (a : BitVec 6) (b : BitVec 6) (s0 : State) : Host.Outcome State Fault Refusal :=
  issueOne s0 (opFsubF32 h d a b)

/-- FSUB_F16: FP16 subtract (R244). -/
def opFsubF16 (h : Hd) (d : BitVec 6) (a : BitVec 6) (b : BitVec 6) : SlotOp :=
  fOp2 h .f16 d a b fSub
/-- The meaning of FSUB_F16 (R244). -/
def execFsubF16 (h : Hd) (d : BitVec 6) (a : BitVec 6) (b : BitVec 6) (s0 : State) : Host.Outcome State Fault Refusal :=
  issueOne s0 (opFsubF16 h d a b)

/-- FSUB_B16: BF16 subtract (R244). -/
def opFsubB16 (h : Hd) (d : BitVec 6) (a : BitVec 6) (b : BitVec 6) : SlotOp :=
  fOp2 h .b16 d a b fSub
/-- The meaning of FSUB_B16 (R244). -/
def execFsubB16 (h : Hd) (d : BitVec 6) (a : BitVec 6) (b : BitVec 6) (s0 : State) : Host.Outcome State Fault Refusal :=
  issueOne s0 (opFsubB16 h d a b)

/-- FMUL_F32: FP32 multiply (R244). -/
def opFmulF32 (h : Hd) (d : BitVec 6) (a : BitVec 6) (b : BitVec 6) : SlotOp :=
  fOp2 h .f32 d a b fMul
/-- The meaning of FMUL_F32 (R244). -/
def execFmulF32 (h : Hd) (d : BitVec 6) (a : BitVec 6) (b : BitVec 6) (s0 : State) : Host.Outcome State Fault Refusal :=
  issueOne s0 (opFmulF32 h d a b)

/-- FMUL_F16: FP16 multiply (R244). -/
def opFmulF16 (h : Hd) (d : BitVec 6) (a : BitVec 6) (b : BitVec 6) : SlotOp :=
  fOp2 h .f16 d a b fMul
/-- The meaning of FMUL_F16 (R244). -/
def execFmulF16 (h : Hd) (d : BitVec 6) (a : BitVec 6) (b : BitVec 6) (s0 : State) : Host.Outcome State Fault Refusal :=
  issueOne s0 (opFmulF16 h d a b)

/-- FMUL_B16: BF16 multiply (R244). -/
def opFmulB16 (h : Hd) (d : BitVec 6) (a : BitVec 6) (b : BitVec 6) : SlotOp :=
  fOp2 h .b16 d a b fMul
/-- The meaning of FMUL_B16 (R244). -/
def execFmulB16 (h : Hd) (d : BitVec 6) (a : BitVec 6) (b : BitVec 6) (s0 : State) : Host.Outcome State Fault Refusal :=
  issueOne s0 (opFmulB16 h d a b)

/-- FFMA_F32: FP32 fused multiply-add into d (R244). -/
def opFfmaF32 (h : Hd) (d : BitVec 6) (a : BitVec 6) (b : BitVec 6) : SlotOp :=
  fOp3 h .f32 d a b fFma
/-- The meaning of FFMA_F32 (R244). -/
def execFfmaF32 (h : Hd) (d : BitVec 6) (a : BitVec 6) (b : BitVec 6) (s0 : State) : Host.Outcome State Fault Refusal :=
  issueOne s0 (opFfmaF32 h d a b)

/-- FFMA_F16: FP16 fused multiply-add (R244). -/
def opFfmaF16 (h : Hd) (d : BitVec 6) (a : BitVec 6) (b : BitVec 6) : SlotOp :=
  fOp3 h .f16 d a b fFma
/-- The meaning of FFMA_F16 (R244). -/
def execFfmaF16 (h : Hd) (d : BitVec 6) (a : BitVec 6) (b : BitVec 6) (s0 : State) : Host.Outcome State Fault Refusal :=
  issueOne s0 (opFfmaF16 h d a b)

/-- FFMA_B16: BF16 fused multiply-add (R244). -/
def opFfmaB16 (h : Hd) (d : BitVec 6) (a : BitVec 6) (b : BitVec 6) : SlotOp :=
  fOp3 h .b16 d a b fFma
/-- The meaning of FFMA_B16 (R244). -/
def execFfmaB16 (h : Hd) (d : BitVec 6) (a : BitVec 6) (b : BitVec 6) (s0 : State) : Host.Outcome State Fault Refusal :=
  issueOne s0 (opFfmaB16 h d a b)

/-- FMIN_F32: FP32 minimumNumber (R244). -/
def opFminF32 (h : Hd) (d : BitVec 6) (a : BitVec 6) (b : BitVec 6) : SlotOp :=
  fOp2 h .f32 d a b (fMinMax false)
/-- The meaning of FMIN_F32 (R244). -/
def execFminF32 (h : Hd) (d : BitVec 6) (a : BitVec 6) (b : BitVec 6) (s0 : State) : Host.Outcome State Fault Refusal :=
  issueOne s0 (opFminF32 h d a b)

/-- FMIN_F16: FP16 minimumNumber (R244). -/
def opFminF16 (h : Hd) (d : BitVec 6) (a : BitVec 6) (b : BitVec 6) : SlotOp :=
  fOp2 h .f16 d a b (fMinMax false)
/-- The meaning of FMIN_F16 (R244). -/
def execFminF16 (h : Hd) (d : BitVec 6) (a : BitVec 6) (b : BitVec 6) (s0 : State) : Host.Outcome State Fault Refusal :=
  issueOne s0 (opFminF16 h d a b)

/-- FMIN_B16: BF16 minimumNumber (R244). -/
def opFminB16 (h : Hd) (d : BitVec 6) (a : BitVec 6) (b : BitVec 6) : SlotOp :=
  fOp2 h .b16 d a b (fMinMax false)
/-- The meaning of FMIN_B16 (R244). -/
def execFminB16 (h : Hd) (d : BitVec 6) (a : BitVec 6) (b : BitVec 6) (s0 : State) : Host.Outcome State Fault Refusal :=
  issueOne s0 (opFminB16 h d a b)

/-- FMAX_F32: FP32 maximumNumber (R244). -/
def opFmaxF32 (h : Hd) (d : BitVec 6) (a : BitVec 6) (b : BitVec 6) : SlotOp :=
  fOp2 h .f32 d a b (fMinMax true)
/-- The meaning of FMAX_F32 (R244). -/
def execFmaxF32 (h : Hd) (d : BitVec 6) (a : BitVec 6) (b : BitVec 6) (s0 : State) : Host.Outcome State Fault Refusal :=
  issueOne s0 (opFmaxF32 h d a b)

/-- FMAX_F16: FP16 maximumNumber (R244). -/
def opFmaxF16 (h : Hd) (d : BitVec 6) (a : BitVec 6) (b : BitVec 6) : SlotOp :=
  fOp2 h .f16 d a b (fMinMax true)
/-- The meaning of FMAX_F16 (R244). -/
def execFmaxF16 (h : Hd) (d : BitVec 6) (a : BitVec 6) (b : BitVec 6) (s0 : State) : Host.Outcome State Fault Refusal :=
  issueOne s0 (opFmaxF16 h d a b)

/-- FMAX_B16: BF16 maximumNumber (R244). -/
def opFmaxB16 (h : Hd) (d : BitVec 6) (a : BitVec 6) (b : BitVec 6) : SlotOp :=
  fOp2 h .b16 d a b (fMinMax true)
/-- The meaning of FMAX_B16 (R244). -/
def execFmaxB16 (h : Hd) (d : BitVec 6) (a : BitVec 6) (b : BitVec 6) (s0 : State) : Host.Outcome State Fault Refusal :=
  issueOne s0 (opFmaxB16 h d a b)

/-- FCMP_EQ_F32: FP32 equal compare into a predicate pair (R245). -/
def opFcmpEqF32 (h : Hd) (p : BitVec 4) (m : BitVec 2) (a : BitVec 6) (b : BitVec 6) : SlotOp :=
  fcmpOp h .f32 0 p m a b
/-- The meaning of FCMP_EQ_F32 (R245). -/
def execFcmpEqF32 (h : Hd) (p : BitVec 4) (m : BitVec 2) (a : BitVec 6) (b : BitVec 6) (s0 : State) : Host.Outcome State Fault Refusal :=
  issueOne s0 (opFcmpEqF32 h p m a b)

/-- FCMP_EQ_F16: FP16 equal compare (R245). -/
def opFcmpEqF16 (h : Hd) (p : BitVec 4) (m : BitVec 2) (a : BitVec 6) (b : BitVec 6) : SlotOp :=
  fcmpOp h .f16 0 p m a b
/-- The meaning of FCMP_EQ_F16 (R245). -/
def execFcmpEqF16 (h : Hd) (p : BitVec 4) (m : BitVec 2) (a : BitVec 6) (b : BitVec 6) (s0 : State) : Host.Outcome State Fault Refusal :=
  issueOne s0 (opFcmpEqF16 h p m a b)

/-- FCMP_EQ_B16: BF16 equal compare (R245). -/
def opFcmpEqB16 (h : Hd) (p : BitVec 4) (m : BitVec 2) (a : BitVec 6) (b : BitVec 6) : SlotOp :=
  fcmpOp h .b16 0 p m a b
/-- The meaning of FCMP_EQ_B16 (R245). -/
def execFcmpEqB16 (h : Hd) (p : BitVec 4) (m : BitVec 2) (a : BitVec 6) (b : BitVec 6) (s0 : State) : Host.Outcome State Fault Refusal :=
  issueOne s0 (opFcmpEqB16 h p m a b)

/-- FCMP_LT_F32: FP32 less-than compare (R245). -/
def opFcmpLtF32 (h : Hd) (p : BitVec 4) (m : BitVec 2) (a : BitVec 6) (b : BitVec 6) : SlotOp :=
  fcmpOp h .f32 2 p m a b
/-- The meaning of FCMP_LT_F32 (R245). -/
def execFcmpLtF32 (h : Hd) (p : BitVec 4) (m : BitVec 2) (a : BitVec 6) (b : BitVec 6) (s0 : State) : Host.Outcome State Fault Refusal :=
  issueOne s0 (opFcmpLtF32 h p m a b)

/-- FCMP_LT_F16: FP16 less-than compare (R245). -/
def opFcmpLtF16 (h : Hd) (p : BitVec 4) (m : BitVec 2) (a : BitVec 6) (b : BitVec 6) : SlotOp :=
  fcmpOp h .f16 2 p m a b
/-- The meaning of FCMP_LT_F16 (R245). -/
def execFcmpLtF16 (h : Hd) (p : BitVec 4) (m : BitVec 2) (a : BitVec 6) (b : BitVec 6) (s0 : State) : Host.Outcome State Fault Refusal :=
  issueOne s0 (opFcmpLtF16 h p m a b)

/-- FCMP_LT_B16: BF16 less-than compare (R245). -/
def opFcmpLtB16 (h : Hd) (p : BitVec 4) (m : BitVec 2) (a : BitVec 6) (b : BitVec 6) : SlotOp :=
  fcmpOp h .b16 2 p m a b
/-- The meaning of FCMP_LT_B16 (R245). -/
def execFcmpLtB16 (h : Hd) (p : BitVec 4) (m : BitVec 2) (a : BitVec 6) (b : BitVec 6) (s0 : State) : Host.Outcome State Fault Refusal :=
  issueOne s0 (opFcmpLtB16 h p m a b)

/-- FCMP_LE_F32: FP32 less-or-equal compare (R245). -/
def opFcmpLeF32 (h : Hd) (p : BitVec 4) (m : BitVec 2) (a : BitVec 6) (b : BitVec 6) : SlotOp :=
  fcmpOp h .f32 3 p m a b
/-- The meaning of FCMP_LE_F32 (R245). -/
def execFcmpLeF32 (h : Hd) (p : BitVec 4) (m : BitVec 2) (a : BitVec 6) (b : BitVec 6) (s0 : State) : Host.Outcome State Fault Refusal :=
  issueOne s0 (opFcmpLeF32 h p m a b)

/-- FCMP_LE_F16: FP16 less-or-equal compare (R245). -/
def opFcmpLeF16 (h : Hd) (p : BitVec 4) (m : BitVec 2) (a : BitVec 6) (b : BitVec 6) : SlotOp :=
  fcmpOp h .f16 3 p m a b
/-- The meaning of FCMP_LE_F16 (R245). -/
def execFcmpLeF16 (h : Hd) (p : BitVec 4) (m : BitVec 2) (a : BitVec 6) (b : BitVec 6) (s0 : State) : Host.Outcome State Fault Refusal :=
  issueOne s0 (opFcmpLeF16 h p m a b)

/-- FCMP_LE_B16: BF16 less-or-equal compare (R245). -/
def opFcmpLeB16 (h : Hd) (p : BitVec 4) (m : BitVec 2) (a : BitVec 6) (b : BitVec 6) : SlotOp :=
  fcmpOp h .b16 3 p m a b
/-- The meaning of FCMP_LE_B16 (R245). -/
def execFcmpLeB16 (h : Hd) (p : BitVec 4) (m : BitVec 2) (a : BitVec 6) (b : BitVec 6) (s0 : State) : Host.Outcome State Fault Refusal :=
  issueOne s0 (opFcmpLeB16 h p m a b)

/-- FCVT: Convert between floating-point formats with a rounding mode (R246). -/
def opFcvt (h : Hd) (d : BitVec 6) (a : BitVec 6) (r : BitVec 2) (x : BitVec 2) (y : BitVec 2) : SlotOp :=
  sRR h 4 d a (fun a => ofRes (cvtFloat (cvtType y) r (.real (unpack (cvtType x) (fbits (cvtType x) a))))) (x = 3 || y = 3)
/-- The meaning of FCVT (R246). -/
def execFcvt (h : Hd) (d : BitVec 6) (a : BitVec 6) (r : BitVec 2) (x : BitVec 2) (y : BitVec 2) (s0 : State) : Host.Outcome State Fault Refusal :=
  issueOne s0 (opFcvt h d a r x y)

/-- ITOF: Convert a signed or unsigned 64-bit integer to floating point (R246). -/
def opItof (h : Hd) (d : BitVec 6) (a : BitVec 6) (r : BitVec 2) (u : BitVec 1) (y : BitVec 2) : SlotOp :=
  sRR h 4 d a (fun a => ofRes (cvtFloat (cvtType y) r (.int (if u = 1 then (a.toNat : Int) else a.toInt)))) (y = 3)
/-- The meaning of ITOF (R246). -/
def execItof (h : Hd) (d : BitVec 6) (a : BitVec 6) (r : BitVec 2) (u : BitVec 1) (y : BitVec 2) (s0 : State) : Host.Outcome State Fault Refusal :=
  issueOne s0 (opItof h d a r u y)

/-- FTOI: Convert floating point to a signed integer of W bits (R246). -/
def opFtoi (h : Hd) (d : BitVec 6) (a : BitVec 6) (r : BitVec 2) (x : BitVec 2) (z : BitVec 2) : SlotOp :=
  sRR h 4 d a (fun a => ftoiW true (cvtType x) r z a) (x = 3)
/-- The meaning of FTOI (R246). -/
def execFtoi (h : Hd) (d : BitVec 6) (a : BitVec 6) (r : BitVec 2) (x : BitVec 2) (z : BitVec 2) (s0 : State) : Host.Outcome State Fault Refusal :=
  issueOne s0 (opFtoi h d a r x z)

/-- FTOI_N: Convert floating point to an unsigned integer of W bits (R246). -/
def opFtoiN (h : Hd) (d : BitVec 6) (a : BitVec 6) (r : BitVec 2) (x : BitVec 2) (z : BitVec 2) : SlotOp :=
  sRR h 4 d a (fun a => ftoiW false (cvtType x) r z a) (x = 3)
/-- The meaning of FTOI_N (R246). -/
def execFtoiN (h : Hd) (d : BitVec 6) (a : BitVec 6) (r : BitVec 2) (x : BitVec 2) (z : BitVec 2) (s0 : State) : Host.Outcome State Fault Refusal :=
  issueOne s0 (opFtoiN h d a r x z)

/-- PAND: Pd := Pa AND Pb (R247). -/
def opPand (h : Hd) (p : BitVec 4) (a : BitVec 4) (b : BitVec 4) : SlotOp :=
  pOp h p (fun r => readP r a.toNat && readP r b.toNat)
/-- The meaning of PAND (R247). -/
def execPand (h : Hd) (p : BitVec 4) (a : BitVec 4) (b : BitVec 4) (s0 : State) : Host.Outcome State Fault Refusal :=
  issueOne s0 (opPand h p a b)

/-- POR: Pd := Pa OR Pb (R247). -/
def opPor (h : Hd) (p : BitVec 4) (a : BitVec 4) (b : BitVec 4) : SlotOp :=
  pOp h p (fun r => readP r a.toNat || readP r b.toNat)
/-- The meaning of POR (R247). -/
def execPor (h : Hd) (p : BitVec 4) (a : BitVec 4) (b : BitVec 4) (s0 : State) : Host.Outcome State Fault Refusal :=
  issueOne s0 (opPor h p a b)

/-- PXOR: Pd := Pa XOR Pb (R247). -/
def opPxor (h : Hd) (p : BitVec 4) (a : BitVec 4) (b : BitVec 4) : SlotOp :=
  pOp h p (fun r => readP r a.toNat != readP r b.toNat)
/-- The meaning of PXOR (R247). -/
def execPxor (h : Hd) (p : BitVec 4) (a : BitVec 4) (b : BitVec 4) (s0 : State) : Host.Outcome State Fault Refusal :=
  issueOne s0 (opPxor h p a b)

/-- PANDN: Pd := Pa AND NOT Pb (R247). -/
def opPandn (h : Hd) (p : BitVec 4) (a : BitVec 4) (b : BitVec 4) : SlotOp :=
  pOp h p (fun r => readP r a.toNat && !readP r b.toNat)
/-- The meaning of PANDN (R247). -/
def execPandn (h : Hd) (p : BitVec 4) (a : BitVec 4) (b : BitVec 4) (s0 : State) : Host.Outcome State Fault Refusal :=
  issueOne s0 (opPandn h p a b)

/-- PMOV: Pd := Pa (R247). -/
def opPmov (h : Hd) (p : BitVec 4) (a : BitVec 4) : SlotOp :=
  pOp h p (fun r => readP r a.toNat)
/-- The meaning of PMOV (R247). -/
def execPmov (h : Hd) (p : BitVec 4) (a : BitVec 4) (s0 : State) : Host.Outcome State Fault Refusal :=
  issueOne s0 (opPmov h p a)

/-- SEL: d := a if the guard is true, else b; always writes (R248). -/
def opSel (h : Hd) (d : BitVec 6) (a : BitVec 6) (b : BitVec 6) : SlotOp :=
  selOp h d a b
/-- The meaning of SEL (R248). -/
def execSel (h : Hd) (d : BitVec 6) (a : BitVec 6) (b : BitVec 6) (s0 : State) : Host.Outcome State Fault Refusal :=
  issueOne s0 (opSel h d a b)

/-- MOVA: Copy an address register into an s register (R249). -/
def opMova (h : Hd) (d : BitVec 6) (f : BitVec 1) (r : BitVec 4) : SlotOp :=
  movaOp h d f r
/-- The meaning of MOVA (R249). -/
def execMova (h : Hd) (d : BitVec 6) (f : BitVec 1) (r : BitVec 4) (s0 : State) : Host.Outcome State Fault Refusal :=
  issueOne s0 (opMova h d f r)

end Sys2Proof.Machine
end

