-- ==== Sys2Proof/Machine/Control.lean ====
section
/-! DEFINITION. The B slot: branches, calls, hardware loops, segments, barriers, waits, system events, breakpoints and the
vector power domains (R214, R250 to R265). -/

namespace Sys2Proof.Machine

/-- A B-slot operation. -/
def bOp (h : Hd) (eff : Env → State → State) : SlotOp := { pos := 6, h, eff }

/-- A taken branch: two delay bundles, then the target; a BR or BRX pops the loops it leaves (R250, R257). -/
def branchTo (e : Env) (s : State) (t : BitVec 32) (pops : Bool) : State :=
  modRegs s e.c e.x (fun r => { r with redirect := some (3, t), redirectPops := pops })
/-- A branch to a displaced target. -/
def brOp (h : Hd) (o : BitVec 18) : SlotOp :=
  { bOp h (fun e s => branchTo e s (offTarget e.r.pc o) true) with flow := .redirect }
/-- A branch to the address in an s register. -/
def brxOp (h : Hd) (a : BitVec 6) : SlotOp :=
  { bOp h (fun e s => branchTo e s ((readS e.r a.toNat).setWidth 32) true) with flow := .redirect, reads := [.s a.toNat] }

/-- A call pushes b + 3; a full return stack traps (R252). -/
def callTo (e : Env) (s : State) (t : BitVec 32) : State :=
  branchTo e (modRegs s e.c e.x (fun r => { r with rstack := (e.r.pc + 3) :: r.rstack })) t false
def stackFull (e : Env) : Verdict := stopIf (decide (e.r.rstack.length ≥ 16)) (.trap 1 2 0)
def callOp (h : Hd) (o : BitVec 18) : SlotOp :=
  { bOp h (fun e s => callTo e s (offTarget e.r.pc o)) with flow := .redirect, check := stackFull }
def callxOp (h : Hd) (a : BitVec 6) : SlotOp :=
  { bOp h (fun e s => callTo e s ((readS e.r a.toNat).setWidth 32)) with flow := .redirect, reads := [.s a.toNat], check := stackFull }
/-- A return pops its target; an empty return stack traps (R252). -/
def retOp (h : Hd) : SlotOp :=
  { bOp h (fun e s => match e.r.rstack with
      | t :: l => branchTo e (modRegs s e.c e.x (fun r => { r with rstack := l })) t false
      | [] => s) with
    flow := .redirect
    check := fun e => stopIf e.r.rstack.isEmpty (.trap 1 2 0) }

/-! ## Loops (R254 to R256) -/

/-- The traps of LOOP; the innermost level is compared where its body encloses the LOOP. -/
def loopCheck (len n : Nat) (e : Env) : Verdict :=
  if n > 2 ^ 32 - 1 then .trap 1 4 0
  else if (activeLoops e.r).length ≥ 6 then .trap 1 5 0
  else match activeLoops e.r with
    | l :: _ => stopIf (decide (l.start ≤ e.r.pc ∧ e.r.pc ≤ l.fin ∧ l.fin ≤ e.r.pc + 1 + BitVec.ofNat 32 len)) (.trap 1 6 0)
    | [] => .go

/-- A LOOP of `n` trips over `len + 1` bundles. -/
def loopEff (len n : Nat) (e : Env) (s : State) : State :=
  let first := e.r.pc + 1
  let last := first + BitVec.ofNat 32 len
  modRegs s e.c e.x (fun r =>
    let st := e.r.pend.isSome
    let epi := e.r.pend.getD 0
    let r := { r with pend := none }
    if n = 0 then { r with redirect := if r.redirect.isNone then some (0, last + 1) else r.redirect }
    else
      let r := { r with loops := { start := first, fin := last, rem := n + (if st then epi.toNat else 0), stage := st, epi } :: r.loops }
      if st then { r with preds := (r.preds &&& 0x00FF) ||| 0x0100 } else r)

def loopOp (h : Hd) (l : BitVec 6) (c : BitVec 11) : SlotOp :=
  { bOp h (loopEff l.toNat c.toNat) with flow := .loop, check := loopCheck l.toNat c.toNat, key := fun _ => c.toNat + 1 }
def loopRegOp (h : Hd) (l a : BitVec 6) : SlotOp :=
  { bOp h (fun e s => loopEff l.toNat (readS e.r a.toNat).toNat e s) with
    flow := .loop, reads := [.s a.toNat], check := fun e => loopCheck l.toNat (readS e.r a.toNat).toNat e
    key := fun e => (readS e.r a.toNat).toNat + 1 }

/-! ## Segments, barriers and waits (R258 to R262) -/

/-- SEG closes one segment and opens the next; issued again by a replay, as the entry bundle of its own segment, it leaves that segment's
replay count (R156, R160). -/
def segOp (h : Hd) (a : BitVec 6) : SlotOp :=
  { bOp h (fun e s =>
      let s := openSegment (closeSegment s e.c e.x) e.c e.x (checkpointOf (settlePops e.r) e.ctx.rdvCount) ((readS e.r a.toNat).setWidth 32)
      if e.ctx.g.entryAt = some e.ctx.nissued then modCtx s e.c e.x (fun v => { v with g := { v.g with replays := e.ctx.g.replays } }) else s) with
    reads := [.s a.toNat], seg := some a, flow := .sync }

/-- A barrier that is not complete blocks or traps (R259). A member that replays on its own rejoins the broadcast at the first one that
no other member has passed (R163). -/
def rdvOp (h : Hd) : SlotOp :=
  { bOp h (fun e s =>
      let behind := (membersOf e.p e.c e.x).any (fun m => e.ctx.rdvCount < (getCtx e.p m e.x).rdvCount)
      modCtx s e.c e.x (fun v => { v with rdvAt := none, rdvCount := v.rdvCount + 1, g := { v.g with solo := v.g.solo && behind } })) with
    flow := .sync
    check := fun e => stopIf (!rdvComplete e.p e.c e.x) (.wait 3 0) }

/-- The counter's held copies (R260). -/
def heldOn (s : State) (c x n : Nat) : Nat :=
  (s.x.reqs.filter (fun p => p.2.st = .held && (coresOf p.2).contains c && p.2.ctx = x && p.2.ctr = n)).length
def waitcOp (h : Hd) (c : BitVec 4) (l : BitVec 14) : SlotOp :=
  { bOp h (fun _ s => s) with
    check := fun e =>
      if (readC e.r c.toNat).toNat ≤ l.toNat then .go
      else if heldOn e.p e.c e.x c.toNat > l.toNat then .trap 7 2 c.toNat
      else .wait 4 c.toNat }

/-- The yielding context leaves the issue slot if another is ready; a cycle passes before the next issue (R151, R261). -/
def yieldEff (e : Env) (s : State) : State :=
  if otherReady s e.c e.x then
    let s := modCtx s e.c e.x (fun v => { v with status := .ready })
    modCore s e.c (fun k => { k with running := none, lastCtx := e.x, nextIssue := s.t.now + 2, consec := 0 })
  else s

/-- In a gang a HALT waits, like a rendezvous, for a member that replays on its own (R163). Beside a copy whose acceptance is
awaited, the context halts once that has come: its bundle is then decoded again for the HALT alone. -/
def haltOp (h : Hd) : SlotOp :=
  { bOp h (fun e s =>
      if acceptPending s e.c e.x then
        modRegs s e.c e.x (fun r => { r with redirect := some (0, r.pc), donemask := 0xBF })
      else haltCtx s e.c e.x) with
    odd := some (fun _ s => s)
    flow := .sync
    check := fun e => stopIf (!rdvComplete e.p e.c e.x || (e.ctx.g.solo && decide (e.ctx.rdvAt ≠ some e.r.pc))) (.block 104 0) }

/-! ## Leaving the core (R263, R264) -/

/-- CTXID (R35). -/
def ctxid (c x : Nat) (j : Place) : Nat := x + c * 4 + j.part.toNat * 2 ^ 9 + (if j.secure then 2 ^ 13 else 0)

def sysOp (h : Hd) (i : BitVec 12) : SlotOp :=
  { bOp h (fun e s => postEvent (markNonReplay s e.c e.x) 3 (queueOf s e.ctx) e.ctx.j.part
      (Config.eventData 3 [i.toNat, ctxid e.c e.x e.ctx.j, e.r.pc.toNat]).toNat) with
    odd := some (fun _ s => s), posts := true
    check := fun e => stopIf (!eventRoom e.p) (.block 101 0) }

def fbregOp (h : Hd) (o : BitVec 18) : SlotOp :=
  bOp h (fun e s => modRegs s e.c e.x (fun r => { r with fbTarget := offTarget e.r.pc o }))

def bkptOp (h : Hd) (i : BitVec 12) : SlotOp := { bOp h (fun _ s => s) with brk := some i }

/-! ## Power domains (R214) -/

/-- The domains that a VGATE names: the banks of its mask over the blocks of the grant. -/
def gateDoms (j : Place) (file : Bool) (m : BitVec 8) : List Nat :=
  let g := if file then j.granty else j.grantx
  (List.range (g.2 / 64)).flatMap (fun i => (List.range 8).filterMap (fun b =>
    if m.getLsbD b then some (((if file then 8 else 0) + b) * 64 + g.1 / 64 + i) else none))

/-- Whether a producer of the context is outstanding into a domain. -/
def producerInto (v : Ctx) (d : Nat) : Bool :=
  v.landings.any (fun l => match l.dst with
    | .v f a => domOf f a = d || (mirrored v.j f a && mirDom f a = d)
    | _ => false)

/-- Whether a register loses its content with a domain: it stands in it, and no mirror copy stands elsewhere in a domain that is not off
(R213, R214; that the other copy keeps it is the model's reading, in the assumption log). -/
def losesWith (k : Core) (d p : Nat) : Bool :=
  let f := decide (4096 ≤ p)
  let g := p % 4096
  let mir := k.ctxs.any (fun v => mirrored v.2.j f g)
  (domOf f g = d && !(mir && domPower k (mirDom f g) ≠ .off)) || (mir && mirDom f g = d && domPower k (domOf f g) = .off)
/-- Registers of a domain lose their content: they read zero, full. -/
def loseDomain (k : Core) (d : Nat) : Core :=
  { k with vf := { k.vf with
    vregs := k.vf.vregs.filter (fun p => !losesWith k d p.1), vEmpty := k.vf.vEmpty.filter (fun p => !losesWith k d p.1)
    vBad := k.vf.vBad.filter (fun p => !losesWith k d p.1) } }
/-- A domain that was off is on again: its copies of mirrored registers hold zero, and a read may use either (R213, R214; the model
reads the zero one, a choice in the assumption log). -/
def freshDomain (k : Core) (d : Nat) : Core :=
  let gone (p : Nat) : Bool :=
    let f := decide (4096 ≤ p)
    k.ctxs.any (fun v => mirrored v.2.j f (p % 4096)) && (domOf f (p % 4096) = d || mirDom f (p % 4096) = d)
  { k with vf := { k.vf with
    vregs := k.vf.vregs.filter (fun p => !gone p.1), vEmpty := k.vf.vEmpty.filter (fun p => !gone p.1)
    vBad := k.vf.vBad.filter (fun p => !gone p.1) } }

/-- A domain turned on, put in retention or turned off. -/
def gateDomain (s : State) (c : Nat) (st : Power) (d : Nat) : State :=
  let now := domPower (getCore s c) d
  let due := s.t.now + 31
  match st with
  | .on =>
    if now = .on then s
    else match now with
      | .waking _ _ => s
      | p => schedule (modCore s c (fun k => { k with vf := { k.vf with domains := smPut k.vf.domains d (.waking due (decide (p = .off))) } })) due (.domainWakeComplete c d)
  | .off =>
    modCore s c (fun k => (fun (k : Core) => { k with vf := { k.vf with domains := smPut k.vf.domains d .off } }) (loseDomain k d))
  | st => if now = .off then s else modCore s c (fun k => { k with vf := { k.vf with domains := smPut k.vf.domains d st } })

def vgateOp (h : Hd) (f : BitVec 1) (m : BitVec 8) (st : Power) : SlotOp :=
  { bOp h (fun e s =>
      let ds := gateDoms e.ctx.j (f = 1) m
      let s := if st = .off && ds.any (fun d => domPower e.core d ≠ .off) then markNonReplay s e.c e.x else s
      ds.foldl (fun s d => gateDomain s e.c st d) s) with
    check := fun e => stopIf ((gateDoms e.ctx.j (f = 1) m).any (producerInto e.ctx)) (.block 102 0) }

/-! ## NOP (R216) -/

/-- The meaning of NOP (R216): the all-zero word has no effect in any position. -/
def execNop (s0 : State) : Host.Outcome State Fault Refusal :=
  match (getCore s0 s0.t.fcore).running with
  | none => .fault .noContext
  | some _ => .next s0

/-! ## The instructions -/

/-- BR: Branch to a relative target after two delay bundles (R251). -/
def opBr (h : Hd) (o : BitVec 18) : SlotOp :=
  brOp h o
/-- The meaning of BR (R251). -/
def execBr (h : Hd) (o : BitVec 18) (s0 : State) : Host.Outcome State Fault Refusal :=
  issueOne s0 (opBr h o)

/-- BRX: Branch to the address in an s register (R251). -/
def opBrx (h : Hd) (s : BitVec 6) : SlotOp :=
  brxOp h s
/-- The meaning of BRX (R251). -/
def execBrx (h : Hd) (s : BitVec 6) (s0 : State) : Host.Outcome State Fault Refusal :=
  issueOne s0 (opBrx h s)

/-- CALL: Push b + 3 and branch to a relative target (R252). -/
def opCall (h : Hd) (o : BitVec 18) : SlotOp :=
  callOp h o
/-- The meaning of CALL (R252). -/
def execCall (h : Hd) (o : BitVec 18) (s0 : State) : Host.Outcome State Fault Refusal :=
  issueOne s0 (opCall h o)

/-- CALLX: Push b + 3 and branch to an s-register address (R252). -/
def opCallx (h : Hd) (s : BitVec 6) : SlotOp :=
  callxOp h s
/-- The meaning of CALLX (R252). -/
def execCallx (h : Hd) (s : BitVec 6) (s0 : State) : Host.Outcome State Fault Refusal :=
  issueOne s0 (opCallx h s)

/-- RET: Pop the return stack and branch there (R252). -/
def opRet (h : Hd) : SlotOp :=
  retOp h
/-- The meaning of RET (R252). -/
def execRet (h : Hd) (s0 : State) : Host.Outcome State Fault Refusal :=
  issueOne s0 (opRet h)

/-- LOOP: Push a hardware loop level with an immediate trip count (R254). -/
def opLoop (h : Hd) (l : BitVec 6) (c : BitVec 11) : SlotOp :=
  loopOp h l c
/-- The meaning of LOOP (R254). -/
def execLoop (h : Hd) (l : BitVec 6) (c : BitVec 11) (s0 : State) : Host.Outcome State Fault Refusal :=
  issueOne s0 (opLoop h l c)

/-- LOOP_REG: Push a hardware loop level with a trip count from an s register (R254). -/
def opLoopReg (h : Hd) (l : BitVec 6) (s : BitVec 6) : SlotOp :=
  loopRegOp h l s
/-- The meaning of LOOP_REG (R254). -/
def execLoopReg (h : Hd) (l : BitVec 6) (s : BitVec 6) (s0 : State) : Host.Outcome State Fault Refusal :=
  issueOne s0 (opLoopReg h l s)

/-- STAGE: Set the pending stage flag and epilogue count for the next LOOP (R256). -/
def opStage (h : Hd) (e : BitVec 3) : SlotOp :=
  { bOp h (fun v s => modRegs s v.c v.x (fun r => { r with pend := some e })) with flow := .stage }
/-- The meaning of STAGE (R256). -/
def execStage (h : Hd) (e : BitVec 3) (s0 : State) : Host.Outcome State Fault Refusal :=
  issueOne s0 (opStage h e)

/-- SEG: Close the current segment, release held copies and open a new one with a checkpoint (R258). -/
def opSeg (h : Hd) (s : BitVec 6) : SlotOp :=
  segOp h s
/-- The meaning of SEG (R258). -/
def execSeg (h : Hd) (s : BitVec 6) (s0 : State) : Host.Outcome State Fault Refusal :=
  issueOne s0 (opSeg h s)

/-- RDV: Barrier across the contexts of the job (R259). -/
def opRdv (h : Hd) : SlotOp :=
  rdvOp h
/-- The meaning of RDV (R259). -/
def execRdv (h : Hd) (s0 : State) : Host.Outcome State Fault Refusal :=
  issueOne s0 (opRdv h)

/-- WAITC: Wait until a copy counter is at or below a limit (R260). -/
def opWaitc (h : Hd) (c : BitVec 4) (l : BitVec 14) : SlotOp :=
  waitcOp h c l
/-- The meaning of WAITC (R260). -/
def execWaitc (h : Hd) (c : BitVec 4) (l : BitVec 14) (s0 : State) : Host.Outcome State Fault Refusal :=
  issueOne s0 (opWaitc h c l)

/-- YIELD: Give the issue slot to another ready context (R261). -/
def opYield (h : Hd) : SlotOp :=
  { bOp h yieldEff with odd := some (fun _ s => s), flow := .sync }
/-- The meaning of YIELD (R261). -/
def execYield (h : Hd) (s0 : State) : Host.Outcome State Fault Refusal :=
  issueOne s0 (opYield h)

/-- HALT: End the context's issue and close the segment (R262). -/
def opHalt (h : Hd) : SlotOp :=
  haltOp h
/-- The meaning of HALT (R262). -/
def execHalt (h : Hd) (s0 : State) : Host.Outcome State Fault Refusal :=
  issueOne s0 (opHalt h)

/-- SYS: Post a system event to the firmware event queue (R263). -/
def opSys (h : Hd) (i : BitVec 12) : SlotOp :=
  sysOp h i
/-- The meaning of SYS (R263). -/
def execSys (h : Hd) (i : BitVec 12) (s0 : State) : Host.Outcome State Fault Refusal :=
  issueOne s0 (opSys h i)

/-- FBREG: Set the context's fallback target (R251). -/
def opFbreg (h : Hd) (o : BitVec 18) : SlotOp :=
  fbregOp h o
/-- The meaning of FBREG (R251). -/
def execFbreg (h : Hd) (o : BitVec 18) (s0 : State) : Host.Outcome State Fault Refusal :=
  issueOne s0 (opFbreg h o)

/-- BKPT: Raise a breakpoint trap at decode (R264). -/
def opBkpt (h : Hd) (i : BitVec 12) : SlotOp :=
  bkptOp h i
/-- The meaning of BKPT (R264). -/
def execBkpt (h : Hd) (i : BitVec 12) (s0 : State) : Host.Outcome State Fault Refusal :=
  issueOne s0 (opBkpt h i)

/-- VGATE_ON: Turn vector power domains on (R214). -/
def opVgateOn (h : Hd) (f : BitVec 1) (m : BitVec 8) : SlotOp :=
  vgateOp h f m .on
/-- The meaning of VGATE_ON (R214). -/
def execVgateOn (h : Hd) (f : BitVec 1) (m : BitVec 8) (s0 : State) : Host.Outcome State Fault Refusal :=
  issueOne s0 (opVgateOn h f m)

/-- VGATE_RET: Put vector power domains in retention (R214). -/
def opVgateRet (h : Hd) (f : BitVec 1) (m : BitVec 8) : SlotOp :=
  vgateOp h f m .ret
/-- The meaning of VGATE_RET (R214). -/
def execVgateRet (h : Hd) (f : BitVec 1) (m : BitVec 8) (s0 : State) : Host.Outcome State Fault Refusal :=
  issueOne s0 (opVgateRet h f m)

/-- VGATE_OFF: Turn vector power domains off, losing content (R214). -/
def opVgateOff (h : Hd) (f : BitVec 1) (m : BitVec 8) : SlotOp :=
  vgateOp h f m .off
/-- The meaning of VGATE_OFF (R214). -/
def execVgateOff (h : Hd) (f : BitVec 1) (m : BitVec 8) (s0 : State) : Host.Outcome State Fault Refusal :=
  issueOne s0 (opVgateOff h f m)

end Sys2Proof.Machine
end

