-- ==== Sys2Proof/Machine/Matrix.lean ====
section
/-! DEFINITION. The M slot and the matrix array: weight buffer and decompressor, beats, accumulators (R286 to R303, R143). -/

namespace Sys2Proof.Machine

/-! ## Weight buffer and decompressor (R286 to R290) -/

/-- A byte of a weight-buffer unit. -/
def unitByte (m : Matrix) (u o : Nat) : Nat := el 8 (smGet 0 m.wbuf (64 * u + o / 256)) (o % 256)
/-- A little-endian value of `n` bytes of a unit. -/
def unitNat (m : Matrix) (u o : Nat) : Nat → Nat
  | 0 => 0
  | n + 1 => unitByte m u o + 256 * unitNat m u (o + 1) n
def unitSt (m : Matrix) (u : Nat) : UnitSt := smGet .empty m.units u

/-- The unit and column that WBU selects under a B format (R289). -/
def wbuSel (bf : BitVec 4) (wbu : BitVec 12) : Nat × Nat :=
  let d := match bf.toNat with
    | 0 => 128
    | 8 => 64
    | 9 => 128
    | _ => 256
  (wbu.toNat / d, wbu.toNat % d)

/-- 2^(X - 133) as FP32, a NaN for X = 255 (R132, R290). -/
def mxScale (x : Nat) : Nat := if x = 255 then Ff.f32.nan else (roundMag .f32 0 false 1 ((x : Int) - 133) false).1

/-- Level of element `i` of column `p` (R290). -/
def colLevel (m : Matrix) (bf : BitVec 4) (u p i : Nat) : Int :=
  match bf.toNat with
  | 9 =>
    let b := 68 * p + 34 * (i / 64)
    let nib := (unitByte m u (b + 2 + i % 64 / 2) / (if i % 2 = 0 then 1 else 16)) % 16
    q4Level (unitByte m u (b + 1) % 4) nib
  | 10 => (((unitByte m u (64 * p + i / 2) / (if i % 2 = 0 then 1 else 16)) % 16 : Nat) : Int) - 8
  | _ => sgn 8 (unitByte m u (128 * p + i))

/-- Block scales of a column as FP32, with the flags of forming them (R290). -/
def colScales (m : Matrix) (bf : BitVec 4) (u p : Nat) : List Res :=
  match bf.toNat with
  | 8 => (List.range 4).map (fun b => (mxScale (unitByte m u (8192 + 4 * p + b)), 0))
  | 9 => (List.range 2).map (fun b =>
      let o := 68 * p + 34 * b
      q4Scale (unitNat m u 8704 4) (unitByte m u o) (unitByte m u (o + 1) % 4))
  | _ => (List.range 4).map (fun _ => (0x3F800000, 0))

/-- Pack numbers of `w` bits, the first lowest. -/
def packN (w : Nat) : List Nat → Nat
  | [] => 0
  | n :: l => n % 2 ^ w + 2 ^ w * packN w l

/-- A decoded column with the NV of its block scales (R290). -/
def decodeCol (m : Matrix) (bf : BitVec 4) (u p : Nat) : WCol × Flags :=
  let sc := colScales m bf u p
  ({ levels := BitVec.ofNat 1024 (packN 8 ((List.range 128).map (fun i => wrap 8 (colLevel m bf u p i))))
     scales := BitVec.ofNat 128 (packN 32 (sc.map (·.1)))
     two := bf = 9 },
   (sc.foldl (fun f r => f ||| r.2) 0) &&& fNV)

/-- Level `k` of a column, and the FP32 scale of its block. -/
def WCol.level (w : WCol) (k : Nat) : Int := sgn 8 (w.levels.toNat >>> (8 * k))
def WCol.scale (w : WCol) (b : Nat) : Nat := (w.scales.toNat >>> (32 * b)) % 2 ^ 32
/-- The number of B blocks (R143). -/
def WCol.blocks (w : WCol) : Nat := if w.two then 2 else 4

/-! ## Beats (R143, R295, R296) -/

/-- The scale exponent of A group `g`: 133 for INT8; none for a NaN scale (R295). -/
def aScale (af : BitVec 4) (v : Wide) (g : Nat) : Option Nat :=
  if af = 0 then some 133 else let x := el 8 v (128 + g); if x = 255 then none else some x
/-- The A integer of position `k`. -/
def aInt (v : Wide) (k : Nat) : Int := sgn 8 (el 8 v k)

/-- An exact integer as a value scaled by 2^e. -/
def scaled (n : Int) (e : Int) : FV := .fin (n < 0) n.natAbs e

/-- Sum of values with their flags. -/
def fvSum : List (FV × Flags) → FV × Flags
  | [] => (.fin false 0 0, 0)
  | [a] => a
  | a :: l =>
    let (s, f) := fvSum l
    let (r, g) := fvAdd a.1 s
    (r, a.2 ||| f ||| g)

/-- A rounded zero of step T is +0 when the exact value is zero (R143). -/
def rneT (x : FV × Flags) : Res :=
  match x.1 with
  | .fin _ 0 _ => (0, x.2)
  | _ => rne .f32 x

/-- The chain s := T, then s := rne(s + T) (R143). -/
def chainT : List Res → Res
  | [] => (0, 0)
  | t :: l => l.foldl (fun (s : Res) t => let r := fAdd .f32 s.1 t.1; (r.1, r.2 ||| s.2 ||| t.2)) t

/-- Multiply-add: the value s of column `w` (R143). -/
def madCol (af : BitVec 4) (a : Wide) (w : WCol) : Res :=
  let group (g : Nat) : FV × Flags :=
    match aScale af a g with
    | none => (.nan false, fNV)
    | some x =>
      (scaled ((List.range 32).foldl (fun (s : Int) i => s + aInt a (32 * g + i) * w.level (32 * g + i)) 0) ((x : Int) - 133), 0)
  let per := 4 / w.blocks
  let term (b : Nat) : Res :=
    let p := fvSum ((List.range per).map (fun i => group (per * b + i)))
    let bs := unpack .f32 (w.scale b)
    let m := fvMul p.1 bs
    rneT (m.1, m.2 ||| p.2 ||| flagIf bs.isNan fNV)
  chainT ((List.range w.blocks).map term)

/-- The two products of position `k`: a x sA and w x bscale, with NV for a NaN scale (R296). -/
def posTerms (af : BitVec 4) (a : Wide) (w : WCol) (k : Nat) : (FV × Flags) × (FV × Flags) :=
  let l : FV × Flags := match aScale af a (k / 32) with
    | none => (.nan false, fNV)
    | some x => (scaled (aInt a k) ((x : Int) - 133), 0)
  let bs := unpack .f32 (w.scale (k / (128 / w.blocks)))
  let m := fvMul (.ofInt (w.level k)) bs
  (l, (m.1, m.2 ||| flagIf bs.isNan fNV))

/-- The magnitude of a value. -/
def FV.abs : FV → FV
  | .fin _ m e => .fin false m e
  | .inf _ => .inf false
  | .nan s => .nan s

/-- Absolute difference: the value s of column `w` (R296). -/
def adaCol (af : BitVec 4) (a : Wide) (w : WCol) : Res :=
  let n := 128 / w.blocks
  let term (b : Nat) : Res :=
    rneT (fvSum ((List.range n).map (fun i =>
      let (x, y) := posTerms af a w (n * b + i)
      let d := fvAdd x.1 y.1.neg
      (d.1.abs, d.2 ||| x.2 ||| y.2))))
  chainT ((List.range w.blocks).map term)

/-- Compare-select: the value T of column `w` (R296). -/
def cslCol (af : BitVec 4) (a : Wide) (w : WCol) : Res :=
  let v (k : Nat) : FV × Flags :=
    let (x, y) := posTerms af a w k
    let d := fvAdd x.1 y.1
    (d.1, d.2 ||| x.2 ||| y.2)
  let l := (List.range 128).map v
  let fl := l.foldl (fun f x => f ||| x.2) 0
  match (l.map (·.1)).filter (fun x => !x.isNan) with
  | [] => (Ff.f32.nan, fl)
  | x :: t => rne .f32 (t.foldl (fun m y => if fvLt m y then y else m) x, fl)

/-- What a beat forms from A and one active column. -/
def cellCol (op : CellOp) (af : BitVec 4) (a : Wide) (w : WCol) : Res :=
  match op with
  | .mad => madCol af a w
  | .ada => adaCol af a w
  | .csl => cslCol af a w

def activeCol (m : Matrix) (n : Nat) : WCol := smGet {} m.active n

/-- The 64 column values of a beat with their flags. -/
def beatVal (m : Matrix) (op : CellOp) (a : Wide) : Wide × Flags :=
  let l := (List.range 64).map (fun n => cellCol op m.mAF a (activeCol m n))
  (BitVec.ofNat 2048 (packN 32 (l.map (·.1))), l.foldl (fun f r => f ||| r.2) 0)

def accRow (m : Matrix) (tile row : Nat) : Wide := smGet 0 m.acc (128 * tile + row)

/-- A beat's landing in its row: added, or the maximum (R143, R296). -/
def landBeat (m : Matrix) (b : Beat) : Matrix × Flags :=
  let old := accRow m b.tile b.row
  let one (n : Nat) : Res := match b.op with
    | .csl => fMinMax true .f32 (el 32 old n) (el 32 b.val n)
    | _ => fAdd .f32 (el 32 old n) (el 32 b.val n)
  let l := (List.range 64).map one
  ({ m with acc := cmPut 0 m.acc (128 * b.tile + b.row) (BitVec.ofNat 2048 (packN 32 (l.map (·.1)))) },
   l.foldl (fun f r => f ||| r.2) b.flags)

/-- The beats of a core that are due land, in issue order, with their flags (R297, R129). -/
def landDue (s : State) (c : Nat) : List Beat → State
  | [] => s
  | b :: l =>
    let k := getCore s c
    let (m, f) := landBeat k.mx b
    let k := { k with mx := m }
    let k := putCtx k b.ctx { ctxOf k b.ctx with r := raise (ctxOf k b.ctx).r f }
    landDue (setCore s c k) c l

/-! ## The M operations (R291 to R301) -/

/-- Only the context that claims the array issues M operations (R148). -/
def claimM (e : Env) : Verdict := stopIf (!e.ctx.j.claimM) (.trap 12 0 0)

/-- An M slot. -/
def mOp (h : Hd) (eff : Env → State → State) : SlotOp := { pos := 3, h, heavy := true, early := claimM, eff }

def cellOpOf (o : BitVec 2) : CellOp :=
  match o.toNat with
  | 1 => .ada
  | 2 => .csl
  | _ => .mad

/-- MCFG: a code that is no reserved code but no format of the array raises *matrix format* (R291). -/
def mcfgOp (h : Hd) (a b : BitVec 4) (o : BitVec 2) : SlotOp :=
  { mOp h (fun e s => modCore s e.c (fun k => { k with mx := { k.mx with mAF := a, mBF := b, mDEF := cellOpOf o } })) with
    bad := o = 3 || !fmtOk a.toNat || !fmtOk b.toNat
    early := fun e => (claimM e).andThen
      (stopIf (!((a == 0 || a == 8) && (b == 0 || b == 8 || b == 9 || b == 10))) (.trap 1 13 0)) }

/-- The 256-B ranges of a unit's image that hold a column's bytes and block data (R289). -/
def colChunks (bf : BitVec 4) (p : Nat) : List Nat :=
  if bf = 0 then [p / 2]
  else if bf = 8 then [p / 2, 32 + p / 64]
  else if bf = 9 then [68 * p / 256, (68 * p + 67) / 256, 34]
  else [p / 4]

/-- MPUSH (R288 to R290, R293). -/
def mpushOp (h : Hd) (c : BitVec 6) (w : BitVec 12) : SlotOp :=
  { mOp h (fun e s =>
      let m := e.core.mx
      let (u, p) := wbuSel m.mBF w
      let (col, fl) := decodeCol m m.mBF u p
      let s := modCore s e.c (fun k => { k with mx := { k.mx with shadow := smPut k.mx.shadow c.toNat col } })
      modRegs s e.c e.x (fun r => raise r fl)) with
    check := fun e => let u := (wbuSel e.core.mx.mBF w).1; stopIf (unitSt e.core.mx u ≠ .ready) (.wait 5 u)
    unsound := fun e =>
      let (u, p) := wbuSel e.core.mx.mBF w
      if (colChunks e.core.mx.mBF p).any (fun i => smGet false e.core.mx.wbad (64 * u + i)) then some (2, u) else none }

/-- MSHIFT: one beat (R295). -/
def mshiftOp (h : Hd) (v : BitVec 6) (f : BitVec 1) (o : BitVec 2) (t : BitVec 2) (r : BitVec 7) : SlotOp :=
  { mOp h (fun e s =>
      let m := e.core.mx
      let op := if o = 3 then m.mDEF else cellOpOf o
      let (val, flags) := beatVal m op (readV e.core (f = 1) (vAbs e.r (f = 1) v.toNat))
      let b : Beat := { due := s.t.now + 19, ctx := e.x, tile := t.toNat, row := r.toNat, op, val, flags }
      schedule (modCore s e.c (fun k => { k with mx := { k.mx with beats := k.mx.beats ++ [b] } })) b.due (.beatLanding e.c)) with
    reads := [.v (f = 1) v.toNat] }

/-- MDRAIN with a conversion to `f` (R298, R299). -/
def mdrainOp (h : Hd) (fmt : Ff) (d : BitVec 6) (f : BitVec 1) (t : BitVec 2) (r : BitVec 7) : SlotOp :=
  { mOp h (fun e s =>
      let row := accRow e.core.mx t.toNat r.toNat
      let one (i : Nat) : Res := if fmt = .f32 then (el 32 row i, 0) else roundFV fmt 0 (unpack .f32 (el 32 row i))
      let l := (List.range 64).map one
      postResult s e.c e.x 4 (.v (f = 1) (vAbs e.r (f = 1) d.toNat)) (BitVec.ofNat 2048 (packN fmt.width (l.map (·.1))))
        (l.foldl (fun g x => g ||| x.2) 0)) with
    writes := [.v (f = 1) d.toNat]
    check := fun e => stopIf (e.core.mx.beats.any (fun b => b.tile = t.toNat && b.row = r.toNat)) (.wait 6 0)
    unsound := fun e => if smGet false e.core.mx.accBad (128 * t.toNat + r.toNat) then some (1, 128 * t.toNat + r.toNat) else none }

/-- MCLR (R298, R300). -/
def mclrOp (h : Hd) (t : BitVec 2) : SlotOp :=
  { mOp h (fun e s => modCore s e.c (fun k =>
      { k with mx := { k.mx with
        acc := k.mx.acc.filter (fun p => p.1 / 128 ≠ t.toNat), accBad := k.mx.accBad.filter (fun p => p.1 / 128 ≠ t.toNat) } })) with
    check := fun e => stopIf (e.core.mx.beats.any (fun b => b.tile = t.toNat)) (.wait 6 0) }

/-- MFLUSH (R301). -/
def mflushOp (h : Hd) : SlotOp :=
  { mOp h (fun _ s => s) with check := fun e => stopIf (e.core.mx.beats.any (fun b => b.ctx = e.x)) (.wait 7 0) }

/-! ## The operations -/

/-- MCFG: Set the matrix A format, B format and default cell operation (R292). -/
def opMcfg (h : Hd) (a : BitVec 4) (b : BitVec 4) (o : BitVec 2) : SlotOp :=
  mcfgOp h a b o
/-- The meaning of MCFG (R292). -/
def execMcfg (h : Hd) (a : BitVec 4) (b : BitVec 4) (o : BitVec 2) (s0 : State) : Host.Outcome State Fault Refusal :=
  issueOne s0 (opMcfg h a b o)

/-- MPUSH: Decode a weight-buffer column into a shadow weight column (R293). -/
def opMpush (h : Hd) (c : BitVec 6) (u : BitVec 12) : SlotOp :=
  mpushOp h c u
/-- The meaning of MPUSH (R293). -/
def execMpush (h : Hd) (c : BitVec 6) (u : BitVec 12) (s0 : State) : Host.Outcome State Fault Refusal :=
  issueOne s0 (opMpush h c u)

/-- MSWAP: Exchange shadow and active weight sets (R294). -/
def opMswap (h : Hd) : SlotOp :=
  mOp h (fun e s => modCore s e.c (fun k => { k with mx := { k.mx with shadow := k.mx.active, active := k.mx.shadow } }))
/-- The meaning of MSWAP (R294). -/
def execMswap (h : Hd) (s0 : State) : Host.Outcome State Fault Refusal :=
  issueOne s0 (opMswap h)

/-- MSHIFT: Issue one matrix beat into an accumulator row, landing 20 cycles later (R295). -/
def opMshift (h : Hd) (v : BitVec 6) (f : BitVec 1) (o : BitVec 2) (t : BitVec 2) (r : BitVec 7) : SlotOp :=
  mshiftOp h v f o t r
/-- The meaning of MSHIFT (R295). -/
def execMshift (h : Hd) (v : BitVec 6) (f : BitVec 1) (o : BitVec 2) (t : BitVec 2) (r : BitVec 7) (s0 : State) : Host.Outcome State Fault Refusal :=
  issueOne s0 (opMshift h v f o t r)

/-- MDRAIN_F32: Read an accumulator row into a vector register as FP32 (R299). -/
def opMdrainF32 (h : Hd) (d : BitVec 6) (f : BitVec 1) (t : BitVec 2) (r : BitVec 7) : SlotOp :=
  mdrainOp h .f32 d f t r
/-- The meaning of MDRAIN_F32 (R299). -/
def execMdrainF32 (h : Hd) (d : BitVec 6) (f : BitVec 1) (t : BitVec 2) (r : BitVec 7) (s0 : State) : Host.Outcome State Fault Refusal :=
  issueOne s0 (opMdrainF32 h d f t r)

/-- MDRAIN_F16: Read an accumulator row converted to FP16 (R299). -/
def opMdrainF16 (h : Hd) (d : BitVec 6) (f : BitVec 1) (t : BitVec 2) (r : BitVec 7) : SlotOp :=
  mdrainOp h .f16 d f t r
/-- The meaning of MDRAIN_F16 (R299). -/
def execMdrainF16 (h : Hd) (d : BitVec 6) (f : BitVec 1) (t : BitVec 2) (r : BitVec 7) (s0 : State) : Host.Outcome State Fault Refusal :=
  issueOne s0 (opMdrainF16 h d f t r)

/-- MDRAIN_B16: Read an accumulator row converted to BF16 (R299). -/
def opMdrainB16 (h : Hd) (d : BitVec 6) (f : BitVec 1) (t : BitVec 2) (r : BitVec 7) : SlotOp :=
  mdrainOp h .b16 d f t r
/-- The meaning of MDRAIN_B16 (R299). -/
def execMdrainB16 (h : Hd) (d : BitVec 6) (f : BitVec 1) (t : BitVec 2) (r : BitVec 7) (s0 : State) : Host.Outcome State Fault Refusal :=
  issueOne s0 (opMdrainB16 h d f t r)

/-- MCLR: Clear an accumulator tile to +0 (R300). -/
def opMclr (h : Hd) (t : BitVec 2) : SlotOp :=
  mclrOp h t
/-- The meaning of MCLR (R300). -/
def execMclr (h : Hd) (t : BitVec 2) (s0 : State) : Host.Outcome State Fault Refusal :=
  issueOne s0 (opMclr h t)

/-- MFLUSH: Wait until every in-flight beat has landed (R301). -/
def opMflush (h : Hd) : SlotOp :=
  mflushOp h
/-- The meaning of MFLUSH (R301). -/
def execMflush (h : Hd) (s0 : State) : Host.Outcome State Fault Refusal :=
  issueOne s0 (opMflush h)

/-- The meaning of BEAT_LANDING (R295 to R297): every beat whose landing is due is added to its row. -/
def execBeatLanding (core : Nat) (s : State) : Host.Outcome State Fault Refusal :=
  let l := (getCore s core).mx.beats
  let s1 := modCore s core (fun k => { k with mx := { k.mx with beats := l.filter (fun b => s.t.now < b.due) } })
  .next (landDue s1 core (l.filter (fun b => b.due ≤ s.t.now)))

end Sys2Proof.Machine
end

