-- ==== Sys2Proof/Machine/Xbar.lean ====
section
/-! DEFINITION. The crossbar bank: coupling, operation queue, conversions, programming, calibration and power, with the A
slot (R323 to R347). -/

namespace Sys2Proof.Machine

/-! ## The bank (R323, R334) -/

/-- The core whose bank serves a context: the even one of a protected pair (R165, R334). -/
def bankCore (c : Nat) (v : Ctx) : Nat := if oddOfPair c v then c - 1 else c
def modXb (s : State) (c : Nat) (f : XBank → XBank) : State := modCore s c (fun k => { k with xb := f k.xb })
def xbOf (s : State) (c : Nat) : XBank := (getCore s c).xb
def arrOf (b : XBank) (a : Nat) : XArr := smGet {} b.arrays a
def setArr (b : XBank) (a : Nat) (v : XArr) : XBank := { b with arrays := smPut b.arrays a v }
def modArr (b : XBank) (a : Nat) (f : XArr → XArr) : XBank := setArr b a (f (arrOf b a))

/-- XCTL fields (R324). -/
def xctlOf (b : XBank) (a : Nat) : Nat := (smGet 0 b.xctl a).toNat
def xPcol (b : XBank) (a : Nat) : Nat := bitsN (xctlOf b a) 9 0
def xOgrp (b : XBank) (a : Nat) : Nat := bitsN (xctlOf b a) 12 10
def xOng (b : XBank) (a : Nat) : Nat := bitsN (xctlOf b a) 15 13

/-- The address of a code (R36). -/
def codeAt (a w j : Nat) : Nat := a * 2 ^ 19 + w * 2 ^ 10 + j
/-- The listed codes of a column of an array: row and code; the others are 8. -/
def columnOf (m : SMap (BitVec 4)) (a p : Nat) : List (Nat × Nat) :=
  m.filterMap (fun x => if x.1 / 2 ^ 19 = a && x.1 % 2 ^ 10 = p then some (x.1 / 2 ^ 10 % 512, x.2.toNat) else none)
/-- The code of a row in a column. -/
def codeIn (col : List (Nat × Nat)) (w : Nat) : Nat := ((col.find? (fun x => x.1 = w)).map (·.2)).getD 8
/-- The 512 codes of a column as XC4 nibbles (R344). -/
def columnNibbles (m : SMap (BitVec 4)) (a p : Nat) : Wide :=
  let col := columnOf m a p
  BitVec.ofNat 2048 (packN 4 ((List.range 512).map (codeIn col)))
/-- Read a column of the cells back into the image. -/
def readBack (b : XBank) (a p : Nat) : XBank :=
  let rest := b.image.filter (fun x => !(x.1 / 2 ^ 19 = a && x.1 % 2 ^ 10 = p))
  { b with image := (columnOf b.cells a p).foldl (fun m x => cmPut 8 m (codeAt a x.1 p) (BitVec.ofNat 4 x.2)) rest }

/-- The entry that maps a logical column (R327). -/
def remapFor (m : SMap Nat) (j : Nat) : Option Nat := (m.find? (fun p => p.2 = j)).map (·.1)
/-- The physical column of a logical one. -/
def physCol (m : SMap Nat) (j : Nat) : Nat := match remapFor m j with
  | some r => 512 + r
  | none => j

/-- Accepted operations not completed; automatic runs are none. -/
def xAccepted (b : XBank) : List XOp := b.xq.filter (fun o => !o.auto)
/-- The arrays that an operation names. -/
def XOp.names (o : XOp) (a : Nat) : Bool := o.arr ≤ a && a ≤ o.arr + o.ch
/-- CPLFREE (R335). -/
def cplFree (b : XBank) : Nat := 16 - b.coupling.length - b.xq.foldl (fun n o => n + o.holds) 0

/-- The number of a bank state (R345). -/
def BankSt.code : BankSt → Nat
  | .on => 0
  | .gating => 1
  | .gated => 2
  | .waking _ _ => 3

/-! ## Ticks (R330, R331) -/

/-- The bank tick that falls in a cycle. -/
def tickIn (u : Nat) : Option Nat := let k := 5 * u / 8; if (8 * k + 4) / 5 = u then some k else none
/-- The cycle of a tick. -/
def tickCycle (k : Nat) : Nat := (8 * k + 4) / 5
/-- Ticks for which an operation occupies its arrays, and from its start to its completion. -/
def XKind.busy : XKind → Nat
  | .xmvm => 128
  | .xver => 128
  | .xmon => 136
  | .xprog => 1024
  | .xcalmon => 16384
def XKind.dur : XKind → Nat
  | .xmvm => 136
  | k => k.busy
/-- Arrays that an operation converts on at a tick. -/
def XOp.converting (o : XOp) (k : Nat) : Nat :=
  match o.start with
  | some k0 => if k < k0 + o.kind.busy then (match o.kind with
      | .xmvm => o.ch + 1
      | .xver => 1
      | .xmon => 1
      | _ => 0) else 0
  | none => 0
/-- Arrays converting in a cycle. -/
def convertingNow (b : XBank) (now : Nat) : Nat := b.xq.foldl (fun n o => n + o.converting (5 * now / 8)) 0
/-- Whether an array is occupied at a tick. -/
def arrBusy (b : XBank) (a k : Nat) : Bool :=
  b.xq.any (fun o => o.names a && match o.start with
    | some k0 => decide (k < k0 + o.kind.busy)
    | none => false)
/-- Whether operation `o` may start at tick `k` in cycle `u`. -/
def mayStart (b : XBank) (o : XOp) (k u : Nat) : Bool :=
  let waits := (b.xq.takeWhile (fun p => p.id ≠ o.id)).filter (fun p => p.start.isNone && !p.auto)
  let others := b.xq.filter (fun p => p.start.isNone && !p.auto)
  let n := match o.kind with
    | .xmvm => o.ch + 1
    | .xver => 1
    | .xmon => 1
    | _ => 0
  o.start.isNone && (o.auto || decide (o.issued + 4 ≤ u))
  && (List.range (o.ch + 1)).all (fun i => !arrBusy b (o.arr + i) k
      && !(if o.auto then others else waits).any (fun p => p.names (o.arr + i)))
  && (n = 0 || b.xq.foldl (fun m p => m + p.converting k) 0 + n ≤ 16)
  && (!o.auto || decide (b.bank = .on))

/-- XBSTAT (R346). -/
def xbstat (b : XBank) (now : Nat) : Nat :=
  let landed := (b.results.filter (·.landed)).length
  b.bank.code + (xAccepted b).length * 2 ^ 2 + landed * 2 ^ 7 + (b.results.length - landed) * 2 ^ 12
  + convertingNow b now * 2 ^ 17 + (match b.bank with
      | .waking due _ => (due + 1 - now) * 2 ^ 22
      | _ => 0)

/-- XSTAT of an array (R345). -/
def xstat (b : XBank) (a : Nat) : Nat :=
  let v := arrOf b a
  let bit (c : Bool) (i : Nat) : Nat := if c then 2 ^ i else 0
  bit ((xAccepted b).any (fun o => o.names a)) 0 + bit v.drift 1 + b.bank.code * 4 + v.monerr * 2 ^ 4
  + v.remap.length * 2 ^ 8 + bit v.vvalid 13 + v.vcnt * 2 ^ 14 + v.verified.toNat * 2 ^ 24

/-- XDRIFT (R35). -/
def xdrift (b : XBank) : Word := BitVec.ofNat 64 ((List.range 64).foldr (fun a n => (if (arrOf b a).drift then 1 else 0) + 2 * n) 0)

/-! ## The coupling (R325, R326) -/

/-- An INT8 entry. -/
def int8Entry (v : Wide) : CplEntry := { n := 256, q := v, e := 0 }
/-- A BF16 entry with its flags. -/
def bf16Entry (v : Wide) : CplEntry × Flags :=
  let xs := (List.range 128).map (fun i => unpack .b16 (el 16 v i))
  let e : Int := match topLog (xs.filter FV.isFin) with
    | some t => t - 6
    | none => 0
  let one : FV → Nat × Flags
    | .nan _ => (0, fNV)
    | .inf neg => (wrap 8 (if neg then -128 else 127), fNV)
    | .fin neg m x =>
      let (r, nx) := roundInt 0 neg m (x - e)
      (wrap 8 (clip r (-128) 127), flagIf (nx || r > 127 || r < -128) fNX)
  let qs := xs.map one
  ({ n := 128, q := BitVec.ofNat 2048 (packN 8 (qs.map (·.1))), e }, qs.foldl (fun f x => f ||| x.2) 0)

/-- The fewest head entries whose counts reach `v`. -/
def takeEntries : List CplEntry → Nat → List CplEntry
  | [], _ => []
  | x :: l, v => if v = 0 then [] else x :: takeEntries l (v - x.n)
/-- The sum of the counts of entries. -/
def entrySum (l : List CplEntry) : Nat := l.foldl (fun n x => n + x.n) 0
/-- The exponent of an operation's inputs. -/
def topExp (l : List CplEntry) : Int := match l with
  | [] => 0
  | x :: l => l.foldl (fun m y => max m y.e) x.e
/-- The input values of an operation, aligned to the largest exponent. -/
def inputs (l : List CplEntry) : List Int :=
  let top := topExp l
  l.flatMap (fun x => (List.range x.n).map (fun i =>
    let q := sgn 8 (el 8 x.q i)
    if x.e < top then (roundInt 0 (q < 0) q.natAbs (x.e - top)).1 else q))

/-! ## Conversion (R327 to R329) -/

/-- A delivered converter value: within one of the nominal one while the array is within its limit, 0 for a phase whose
nibbles are all zero; `f` numbers the draw. -/
def converted (inLim zero : Bool) (f : Nat) (nom : Int) : Int :=
  if zero then 0
  else if inLim then clip (nom + ((Config.converter f % 3 : Nat) : Int) - 1) (-512) 511
  else ((Config.converter f % 1024 : Nat) : Int) - 512

/-- The nominal converter value of a column under driven nibbles. -/
def nominal (col : List (Nat × Nat)) (nib : List Nat) (rs : Nat) : Int :=
  let d := col.foldl (fun (n : Int) x => n + (nib.getD x.1 0 : Nat) * ((x.2 : Int) - 8)) 0
  clip (roundInt 0 (d < 0) d.natAbs (-(rs : Int))).1 (-512) 511

/-- One array's part of Y for a logical column; `lim` says whether the array is within its monitor limit. -/
def arrayPart (lim : Bool) (b : XBank) (o : XOp) (i j : Nat) (xs : List Int) (f : Nat) : Int :=
  let a := o.arr + i
  let dep := 64 * 2 ^ o.dep
  let p := physCol (((o.remap.find? (fun r => r.1 = a)).map (·.2)).getD []) j
  let col := (columnOf b.cells a p).filter (fun x => x.1 < dep)
  let x := (xs.drop (i * dep)).take dep
  let h := x.map (fun v => (v + 128).toNat / 16)
  let l := x.map (fun v => (v + 128).toNat % 16)
  let aH := converted lim (h.all (· = 0)) (f + 1) (nominal col h o.rs)
  let aL := converted lim (l.all (· = 0)) (f + 2) (nominal col l o.rs)
  let w := ((columnOf b.image a p).filter (fun x => x.1 < dep)).foldl (fun (n : Int) x => n + ((x.2 : Int) - 8)) 0
  16 * aH * 2 ^ o.rs + aL * 2 ^ o.rs - 128 * w

/-- Column `j` of an XMVM: its result bits and flags; `f` numbers its draws (R328). -/
def columnResult (b : XBank) (o : XOp) (xs : List Int) (j f : Nat) : Res :=
  let y := (List.range (o.ch + 1)).foldl (fun (n : Int) i => n + arrayPart (Config.inLimit (f + 3 * i)) b o i j xs (f + 3 * i)) 0
  if o.ofmt = 3 then
    let (n, fl) := cvtInt (-(2 ^ 31 : Int)) (2 ^ 31 - 1) 0 (.int y)
    (wrap 32 n, fl)
  else
    let (v, f0) := cvtFloat .f32 0 (.int y)
    let (v, f1) := fAdd .f32 v (smGet 0 o.off j).toNat
    let (v, f2) := fMul .f32 v (smGet 0x3F800000 o.gain j).toNat
    let (v, f3) := rne .f32 (fvMul (unpack .f32 v) (.fin false 1 (topExp o.entries)))
    let fl := f0 ||| f1 ||| f2 ||| f3
    match o.ofmt with
    | 0 => (v, fl)
    | 1 => let (r, g) := roundFV .f16 0 (unpack .f32 v); (r, fl ||| g)
    | _ => let (r, g) := roundFV .b16 0 (unpack .f32 v); (r, fl ||| g)

/-- The monitor's eight converter values of an array: columns 536 to 539, h then l phase (R339). -/
def monitorValues (b : XBank) (a f : Nat) : List Int :=
  let lim := Config.inLimit f
  (List.range 8).map (fun i => converted lim false (f + 1 + i) (nominal (columnOf b.cells a (536 + i / 2)) (List.replicate 512 15) 7))

/-- A monitor run (R339). -/
def runMonitor (b : XBank) (a f : Nat) : XBank :=
  modArr b a (fun v =>
    let err := match v.expect with
      | none => 15
      | some ex => min 15 (((monitorValues b a f).zip ex).foldl (fun n p => max n (p.1 - p.2).natAbs) 0)
    { v with monerr := err, drift := v.drift || err > b.monlim.toNat })

/-! ## Programming (R341, R345) -/

/-- One pulse on each cell of a column towards its target; `f` numbers the draws, one a row. -/
def pulse (b : XBank) (a p step f : Nat) (target : Nat → Nat) : XBank :=
  let col := columnOf b.cells a p
  let cells := (List.range 512).foldl (fun m w =>
    let c := codeIn col w
    let g := target w
    let move := Config.pulseMove (f + w)
    let c' := if c < g then c + move % (min step (g - c) + 1) else if g < c then c - move % (min step (c - g) + 1) else c
    if c' = c then m else cmPut 8 m (codeAt a w p) (BitVec.ofNat 4 c')) b.cells
  readBack { b with cells } a p

/-- The code that a monitor cell is to hold (R345). -/
def monitorCode (p w : Nat) : Nat :=
  match p with
  | 536 => 15
  | 537 => 1
  | 538 => if w % 2 = 0 then 15 else 1
  | _ => 4 + w % 8
/-- Whether every monitor cell holds its target. -/
def monitorsHold (b : XBank) (a : Nat) : Bool :=
  (List.range 4).all (fun i =>
    let col := columnOf b.cells a (536 + i)
    (List.range 512).all (fun w => codeIn col w = monitorCode (536 + i) w))
/-- Three rounds on the monitor columns. -/
def programMonitors (b : XBank) (a f : Nat) : XBank :=
  (List.range 3).foldl (fun b r => (List.range 4).foldl (fun b i =>
    pulse b a (536 + i) 15 (f + 2048 * r + 512 * i) (monitorCode (536 + i))) b) b

/-! ## Completion (R331, R332, R341, R342, R345) -/

/-- What an operation does when it completes, with the number of draws it made. -/
def finishOp (b : XBank) (o : XOp) (f : Nat) : XBank × Nat :=
  match o.kind with
  | .xmvm => (b, 0)
  | .xmon => (runMonitor b o.arr f, 9)
  | .xprog =>
    let b := pulse b o.arr o.pcol o.step f (fun w => el 4 o.vec w)
    (modArr b o.arr (fun v => { v with vvalid := false
                                       verified := if 512 ≤ o.pcol then v.verified &&& ~~~(1#24 <<< (o.pcol - 512)) else v.verified }), 512)
  | .xver =>
    let b := readBack b o.arr o.pcol
    let col := columnOf b.image o.arr o.pcol
    let bad := (List.range 512).map (fun w => decide (codeIn col w ≠ el 4 o.vec w))
    let n := (bad.filter id).length
    (modArr b o.arr (fun v => { v with
      vmask := BitVec.ofNat 512 (bad.foldr (fun x m => (if x then 1 else 0) + 2 * m) 0), vcnt := n, vvalid := true
      verified := if 512 ≤ o.pcol then
          (if n = 0 then v.verified ||| (1#24 <<< (o.pcol - 512)) else v.verified &&& ~~~(1#24 <<< (o.pcol - 512)))
        else v.verified }), 512)
  | .xcalmon =>
    let b := programMonitors b o.arr f
    if monitorsHold b o.arr then
      let m := monitorValues b o.arr (f + 6144)
      (modArr b o.arr (fun v => { v with expect := some m, monerr := 0, drift := false }), 6153)
    else (modArr b o.arr (fun v => { v with expect := none, monerr := 15, drift := true }), 6153)

/-- An operation leaves the queue; a gating bank whose last accepted operation completes is gated (R346). -/
def leaveQueue (b : XBank) (id : Nat) : XBank :=
  let b := { b with xq := b.xq.filter (fun o => o.id ≠ id) }
  if b.bank = .gating && (xAccepted b).isEmpty then { b with bank := .gated } else b

/-- Count draws of free values. -/
def drawn (s : State) (n : Nat) : State := { s with t := { s.t with free := s.t.free + n } }

/-- XBAR_OP_START: an operation of the bank takes its arrays at this cycle's tick, if it may (R330, R331). -/
def execXbarOpStart (core id : Nat) (s : State) : Host.Outcome State Fault Refusal :=
  let b := xbOf s core
  match tickIn s.t.now, b.xq.find? (fun o => o.id = id) with
  | some k, some o =>
    if mayStart b o k s.t.now then
      .next (modXb s core (fun b => { b with xq := b.xq.map (fun p => if p.id = id then { p with start := some k, holds := 0 } else p) }))
    else .next s
  | _, _ => .next s

/-- XMVM_LANDING: the results are written into their entries and the flags reach FPSTAT (R328, R332). -/
def execXmvmLanding (core id : Nat) (s : State) : Host.Outcome State Fault Refusal :=
  let b := xbOf s core
  match b.xq.find? (fun o => o.id = id) with
  | some o => match o.start with
    | some k0 =>
      if o.kind = .xmvm ∧ tickCycle (k0 + 136) ≤ s.t.now then
        let xs := (inputs o.entries).take ((o.ch + 1) * 64 * 2 ^ o.dep)
        let per := 3 * (o.ch + 1)
        let w := if o.ofmt = 0 ∨ o.ofmt = 3 then 32 else 16
        let group (m : Nat) : List Res :=
          (List.range 64).map (fun i => columnResult b o xs (64 * (o.ogrp + m) + i) (s.t.free + per * (64 * m + i)))
        let groups := (List.range (o.ong + 1)).map group
        let fl := groups.foldl (fun f g => g.foldl (fun f r => f ||| r.2) f) 0
        let datas := groups.map (fun g => BitVec.ofNat 2048 (packN w (g.map (·.1))))
        let fill (acc : List ResEntry × List Wide) (e : ResEntry) : List ResEntry × List Wide :=
          if e.op = id && !e.landed then (acc.1 ++ [{ e with landed := true, data := acc.2.headD 0 }], acc.2.drop 1)
          else (acc.1 ++ [e], acc.2)
        let s := drawn (modXb s core (fun b => leaveQueue { b with results := (b.results.foldl fill ([], datas)).1 } id))
          (per * 64 * (o.ong + 1))
        let cs := if (getCtx s core o.ctx).j.prot then [core, core + 1] else [core]
        .next (cs.foldl (fun s c => modRegs s c o.ctx (fun r => raise r fl)) s)
      else .next s
    | none => .next s
  | none => .next s

/-- XBAR_OP_COMPLETE: XPROG, XVER, XMON and XCAL.mon complete (R331, R339, R341, R342, R345). -/
def execXbarOpComplete (core id : Nat) (s : State) : Host.Outcome State Fault Refusal :=
  let b := xbOf s core
  match b.xq.find? (fun o => o.id = id) with
  | some o => match o.start with
    | some k0 =>
      if o.kind ≠ .xmvm ∧ tickCycle (k0 + o.kind.dur) ≤ s.t.now then
        let (b, n) := finishOp b o s.t.free
        .next (drawn (modXb s core (fun _ => leaveQueue b id)) n)
      else .next s
    | none => .next s
  | none => .next s

/-- AUTO_MONITOR_RUN: once in every MONPER ticks an automatic run is owed on every array of a bank that is on (R339). -/
def execAutoMonitorRun (core : Nat) (s : State) : Host.Outcome State Fault Refusal :=
  let b := xbOf s core
  if b.monper ≠ 0 ∧ b.bank = .on ∧ timebase s ≥ b.lastMon + b.monper.toNat then
    let s1 := (List.range 64).foldl (fun s a =>
      if (xbOf s core).xq.any (fun o => o.auto && o.arr = a) then s
      else
        let (id, s) := newId s
        modXb s core (fun b => { b with xq := b.xq ++ [{ id, kind := .xmon, arr := a, issued := s.t.now, ctx := 0, auto := true }] })) s
    .next (modXb s1 core (fun b => { b with lastMon := timebase s }))
  else .next s

/-- BANK_WAKE_COMPLETE: a waking bank is on, or gated if it was gated meanwhile (R346). -/
def execBankWakeComplete (core : Nat) (s : State) : Host.Outcome State Fault Refusal :=
  match (xbOf s core).bank with
  | .waking due gate =>
    if due ≤ s.t.now then .next (modXb s core (fun b => { b with bank := if gate then .gated else .on })) else .next s
  | _ => .next s

/-! ## The A slot (R333 to R346) -/

/-- The claim (R334); where `on` holds, the bank must be on too. -/
def claimX (on : Bool) (e : Env) : Verdict :=
  if !e.ctx.j.claimX then .trap 12 0 0
  else stopIf (on && decide ((xbOf e.p (bankCore e.c e.ctx)).bank ≠ .on)) (.trap 10 0 0)
def xbEnv (e : Env) : XBank := xbOf e.p (bankCore e.c e.ctx)

/-- An A-slot operation. The even core of a pair serves both; the odd core follows for the registers written (R165). -/
def aOp (h : Hd) (on : Bool) (nonRep : Bool) (eff : Env → State → State) (reads writes : List Rd) : SlotOp :=
  { pos := 7, h, heavy := true, reads, writes, early := claimX on
    eff := fun e s => eff e (if nonRep then markNonReplay s e.c e.x else s)
    odd := some (fun e s => followWrites writes e (if nonRep then markNonReplay s e.c e.x else s)) }

/-- Whether the operation queue is full (R330). -/
def queueFull (e : Env) (cause : Nat) : Verdict := stopIf (decide ((xAccepted (xbEnv e)).length ≥ 16)) (.wait cause 0)
/-- The wait of R343. -/
def arrayIdle (a : BitVec 6) (e : Env) : Verdict := stopIf ((xAccepted (xbEnv e)).any (fun o => o.names a.toNat)) (.wait 12 a.toNat)
/-- A vector source of the A slot. -/
def aVec (e : Env) (f : BitVec 1) (v : BitVec 6) : Wide := readV e.core (f = 1) (vAbs e.r (f = 1) v.toNat)

/-- An operation enters the queue. -/
def enterXq (e : Env) (s : State) (mk : Nat → XOp) : State :=
  let (id, s) := newId s
  modXb s e.c (fun b => { b with xq := b.xq ++ [mk id] })

def xpushOp (h : Hd) (v : BitVec 6) (f c : BitVec 1) : SlotOp :=
  { aOp h true true (fun e s =>
      let (en, fl) := if c = 1 then bf16Entry (aVec e f v) else (int8Entry (aVec e f v), 0)
      let s := modXb s e.c (fun b => { b with coupling := b.coupling ++ [en] })
      (if e.ctx.j.prot then [e.c, e.c + 1] else [e.c]).foldl (fun s k => modRegs s k e.x (fun r => raise r fl)) s)
      [.v (f = 1) v.toNat] [] with
    check := fun e => stopIf (decide (cplFree (xbEnv e) = 0)) (.wait 8 0) }

def xpopOp (h : Hd) (v : BitVec 6) (f : BitVec 1) : SlotOp :=
  { aOp h false true (fun e s =>
      let d := ((xbEnv e).results.headD { op := 0 }).data
      let s := modXb s e.c (fun b => { b with results := b.results.drop 1 })
      postResult s e.c e.x 2 (.v (f = 1) (vAbs e.r (f = 1) v.toNat)) d)
      [] [.v (f = 1) v.toNat] with
    check := fun e => match (xbEnv e).results with
      | r :: _ => stopIf (!r.landed) (.wait 9 0)
      | [] => .wait 9 0 }

/-- Whether an XMVM falls back: a DRIFT array in its chain, the fallback enabled and its target set (R338). -/
def driftArr (b : XBank) (a : BitVec 6) (c : BitVec 4) : Option Nat :=
  (List.range (c.toNat + 1)).findSome? (fun i => if (arrOf b (a.toNat + i)).drift then some (a.toNat + i) else none)
def canFallBack (e : Env) : Bool := e.ctx.j.fbk && e.r.fbTarget ≠ 0xFFFFFFFF

/-- The decode checks of XMVM from step 2 on (R337, R338). -/
def xmvmCheck (a : BitVec 6) (d : BitVec 2) (c : BitVec 4) (e : Env) : Verdict :=
  let b := xbEnv e
  let v := (c.toNat + 1) * 64 * 2 ^ d.toNat
  if a.toNat + c.toNat > 63 then .trap 1 14 0
  else if v > 4096 ∨ (b.coupling.length = 16 ∧ entrySum b.coupling < v) then .trap 1 15 0
  else if entrySum b.coupling < v then .wait 10 0
  else match driftArr b a c with
    | some k =>
      if canFallBack e then
        let delay := match e.r.redirect with
          | some (n, _) => n = 1 || n = 2
          | none => false
        let last := match activeLoops e.r with
          | l :: _ => l.fin = e.r.pc
          | [] => false
        stopIf (delay || last || e.redir) (.trap 2 3 0)
      else .trap 11 0 k
    | none =>
      stopIf (decide (b.results.length + xOng b a.toNat + 1 > 16) || decide ((xAccepted b).length ≥ 16)) (.wait 11 0)

/-- XMVM (R326, R337, R338). -/
def xmvmOp (h : Hd) (a : BitVec 6) (d : BitVec 2) (rs : BitVec 3) (c : BitVec 4) (o : BitVec 2) : SlotOp :=
  let take (e : Env) : List CplEntry := takeEntries (xbEnv e).coupling ((c.toNat + 1) * 64 * 2 ^ d.toNat)
  let falls (e : Env) : Bool := (driftArr (xbEnv e) a c).isSome
  { aOp h true true (fun e s =>
      let b := xbEnv e
      let ents := take e
      let s := modXb s e.c (fun b => { b with coupling := b.coupling.drop ents.length })
      if falls e then branchTo e s e.r.fbTarget true
      else
        let (id, s) := newId s
        let chain := (List.range (c.toNat + 1)).map (fun i => (a.toNat + i, (arrOf b (a.toNat + i)).remap))
        let v := arrOf b a.toNat
        modXb s e.c (fun b => { b with
          xq := b.xq ++ [{ id, kind := .xmvm, arr := a.toNat, ch := c.toNat, issued := s.t.now, ctx := e.x, dep := d.toNat
                           rs := rs.toNat, ofmt := o.toNat, ogrp := xOgrp b a.toNat, ong := xOng b a.toNat, entries := ents
                           holds := ents.length, remap := chain, off := v.off, gain := v.gain }]
          results := b.results ++ List.replicate (xOng b a.toNat + 1) { op := id } })) [] [] with
    check := xmvmCheck a d c
    flow := .fallback
    odd := some (fun e s =>
      let s := markNonReplay s e.c e.x
      match (getCtx s (e.c - 1) e.x).commits with
      | m :: _ => if m.post.redirect = some (2, e.r.fbTarget) && e.r.redirect = none && !e.redir then branchTo e s e.r.fbTarget true else s
      | [] => s) }

/-- A column that an operation may name: 544 and above is none (R36). -/
def colOk (e : Env) (a : BitVec 6) (top : Nat) : Verdict := stopIf (decide (xPcol (xbEnv e) a.toNat > top)) (.trap 1 22 0)

def xprogOp (h : Hd) (a : BitVec 6) (f : BitVec 1) (v : BitVec 6) (k : BitVec 4) : SlotOp :=
  { aOp h true true (fun e s =>
      enterXq e s (fun id => { id, kind := .xprog, arr := a.toNat, issued := s.t.now, ctx := e.x, step := k.toNat
                               pcol := xPcol (xbEnv e) a.toNat, vec := aVec e f v })) [.v (f = 1) v.toNat] [] with
    bad := k = 0
    check := fun e =>
      let p := xPcol (xbEnv e) a.toNat
      ((colOk e a 535).andThen (stopIf (decide (512 ≤ p) && (arrOf (xbEnv e) a.toNat).remap.any (fun r => r.1 = p - 512)) (.trap 1 16 0))).andThen
        (queueFull e 15) }

def xverOp (h : Hd) (a : BitVec 6) (f : BitVec 1) (v : BitVec 6) : SlotOp :=
  { aOp h true false (fun e s =>
      enterXq e s (fun id => { id, kind := .xver, arr := a.toNat, issued := s.t.now, ctx := e.x
                               pcol := xPcol (xbEnv e) a.toNat, vec := aVec e f v })) [.v (f = 1) v.toNat] [] with
    check := fun e => (colOk e a 543).andThen (queueFull e 15) }

def xmonOp (h : Hd) (kind : XKind) (nonRep : Bool) (a : BitVec 6) : SlotOp :=
  { aOp h true nonRep (fun e s => enterXq e s (fun id => { id, kind, arr := a.toNat, issued := s.t.now, ctx := e.x })) [] [] with
    check := fun e => queueFull e 15 }

/-- XREMAP (R343). -/
def xremapOp (h : Hd) (a : BitVec 6) (k : BitVec 5) : SlotOp :=
  { aOp h false true (fun e s =>
      let l := xPcol (xbEnv e) a.toNat
      modXb s e.c (fun b => modArr b a.toNat (fun v => { v with remap := smPut (v.remap.filter (fun r => r.2 ≠ l)) k.toNat l }))) [] [] with
    bad := 24 ≤ k
    check := fun e =>
      let l := xPcol (xbEnv e) a.toNat
      let v := arrOf (xbEnv e) a.toNat
      (arrayIdle a e).andThen
        (if l > 511 then .trap 1 17 0
         else if !v.verified.getLsbD k.toNat then .trap 1 18 0
         else stopIf (v.remap.any (fun r => r.1 = k.toNat && r.2 ≠ l)) (.trap 1 16 0)) }
def xremapClrOp (h : Hd) (a : BitVec 6) : SlotOp :=
  { aOp h false true (fun e s =>
      let l := xPcol (xbEnv e) a.toNat
      modXb s e.c (fun b => modArr b a.toNat (fun v => { v with remap := v.remap.filter (fun r => r.2 ≠ l) }))) [] [] with
    check := fun e => (arrayIdle a e).andThen (stopIf (decide (xPcol (xbEnv e) a.toNat > 511)) (.trap 1 17 0)) }

/-- XCAL.off and XCAL.gain (R345). -/
def xcalOp (h : Hd) (a : BitVec 6) (f : BitVec 1) (v : BitVec 6) (g : BitVec 3) (isGain : Bool) : SlotOp :=
  { aOp h true true (fun e s =>
      let put (d : BitVec 32) (m : SMap (BitVec 32)) : SMap (BitVec 32) :=
        (List.range 64).foldl (fun m i => cmPut d m (64 * g.toNat + i) (BitVec.ofNat 32 (el 32 (aVec e f v) i))) m
      modXb s e.c (fun b => modArr b a.toNat (fun x =>
        if isGain then { x with gain := put 0x3F800000 x.gain } else { x with off := put 0 x.off })))
      [.v (f = 1) v.toNat] [] with
    check := arrayIdle a }

def xgateOp (h : Hd) : SlotOp :=
  aOp h false true (fun e s => modXb s e.c (fun b => { b with
    bank := match b.bank with
      | .on => if (xAccepted b).isEmpty then .gated else .gating
      | .waking d _ => .waking d true
      | x => x })) [] []
def xwakeOp (h : Hd) : SlotOp :=
  aOp h false true (fun e s => match (xbOf s e.c).bank with
    | .gating => modXb s e.c (fun b => { b with bank := .on })
    | .gated =>
      schedule (modXb s e.c (fun b => { b with bank := .waking (s.t.now + 1999) false })) (s.t.now + 1999) (.bankWakeComplete e.c)
    | _ => s) [] []

def xstatOp (h : Hd) (d a : BitVec 6) : SlotOp :=
  aOp h false false (fun e s => postResult s e.c e.x 4 (.s d.toNat) (BitVec.ofNat 2048 (xstat (xbEnv e) a.toNat))) [] [.s d.toNat]

/-- XLDC (R344). -/
def xldcOp (h : Hd) (a : BitVec 6) (f : BitVec 1) (v : BitVec 6) (ver : Bool) : SlotOp :=
  { aOp h false false (fun e s =>
      let b := xbEnv e
      let x := arrOf b a.toNat
      let w : Wide := if ver then BitVec.ofNat 2048 (x.vmask.toNat + x.vcnt * 2 ^ 512 + (if x.vvalid then 2 ^ 528 else 0))
        else columnNibbles b.image a.toNat (xPcol b a.toNat)
      postResult s e.c e.x 12 (.v (f = 1) (vAbs e.r (f = 1) v.toNat)) w) [] [.v (f = 1) v.toNat] with
    check := fun e => (arrayIdle a e).andThen (if ver then .go else colOk e a 543) }

/-! ## The instructions -/

/-- XMVM: Take coupling entries and queue a crossbar matrix-vector product (R337). -/
def opXmvm (h : Hd) (a : BitVec 6) (d : BitVec 2) (s : BitVec 3) (c : BitVec 4) (o : BitVec 2) : SlotOp :=
  xmvmOp h a d s c o
/-- The meaning of XMVM (R337). -/
def execXmvm (h : Hd) (a : BitVec 6) (d : BitVec 2) (s : BitVec 3) (c : BitVec 4) (o : BitVec 2) (s0 : State) : Host.Outcome State Fault Refusal :=
  issueOne s0 (opXmvm h a d s c o)

/-- XPUSH: Append a vector as an input entry to the coupling (R335). -/
def opXpush (h : Hd) (v : BitVec 6) (f : BitVec 1) (c : BitVec 1) : SlotOp :=
  xpushOp h v f c
/-- The meaning of XPUSH (R335). -/
def execXpush (h : Hd) (v : BitVec 6) (f : BitVec 1) (c : BitVec 1) (s0 : State) : Host.Outcome State Fault Refusal :=
  issueOne s0 (opXpush h v f c)

/-- XPOP: Remove the landed head result entry into a vector register (R336). -/
def opXpop (h : Hd) (v : BitVec 6) (f : BitVec 1) : SlotOp :=
  xpopOp h v f
/-- The meaning of XPOP (R336). -/
def execXpop (h : Hd) (v : BitVec 6) (f : BitVec 1) (s0 : State) : Host.Outcome State Fault Refusal :=
  issueOne s0 (opXpop h v f)

/-- XPROG: Queue one programming pulse on each cell of a physical column (R341). -/
def opXprog (h : Hd) (a : BitVec 6) (f : BitVec 1) (v : BitVec 6) (k : BitVec 4) : SlotOp :=
  xprogOp h a f v k
/-- The meaning of XPROG (R341). -/
def execXprog (h : Hd) (a : BitVec 6) (f : BitVec 1) (v : BitVec 6) (k : BitVec 4) (s0 : State) : Host.Outcome State Fault Refusal :=
  issueOne s0 (opXprog h a f v k)

/-- XVER: Queue a verify of a column against targets (R342). -/
def opXver (h : Hd) (a : BitVec 6) (f : BitVec 1) (v : BitVec 6) : SlotOp :=
  xverOp h a f v
/-- The meaning of XVER (R342). -/
def execXver (h : Hd) (a : BitVec 6) (f : BitVec 1) (v : BitVec 6) (s0 : State) : Host.Outcome State Fault Refusal :=
  issueOne s0 (opXver h a f v)

/-- XREMAP: Map a logical column onto a verified reserve column (R343). -/
def opXremap (h : Hd) (a : BitVec 6) (k : BitVec 5) : SlotOp :=
  xremapOp h a k
/-- The meaning of XREMAP (R343). -/
def execXremap (h : Hd) (a : BitVec 6) (k : BitVec 5) (s0 : State) : Host.Outcome State Fault Refusal :=
  issueOne s0 (opXremap h a k)

/-- XREMAP_CLR: Clear the remap entry of a logical column (R343). -/
def opXremapClr (h : Hd) (a : BitVec 6) : SlotOp :=
  xremapClrOp h a
/-- The meaning of XREMAP_CLR (R343). -/
def execXremapClr (h : Hd) (a : BitVec 6) (s0 : State) : Host.Outcome State Fault Refusal :=
  issueOne s0 (opXremapClr h a)

/-- XMON: Queue a drift-monitor run on an array (R339). -/
def opXmon (h : Hd) (a : BitVec 6) : SlotOp :=
  xmonOp h .xmon false a
/-- The meaning of XMON (R339). -/
def execXmon (h : Hd) (a : BitVec 6) (s0 : State) : Host.Outcome State Fault Refusal :=
  issueOne s0 (opXmon h a)

/-- XCAL_OFF: Write offsets of 64 logical columns (R345). -/
def opXcalOff (h : Hd) (a : BitVec 6) (f : BitVec 1) (v : BitVec 6) (j : BitVec 3) : SlotOp :=
  xcalOp h a f v j false
/-- The meaning of XCAL_OFF (R345). -/
def execXcalOff (h : Hd) (a : BitVec 6) (f : BitVec 1) (v : BitVec 6) (j : BitVec 3) (s0 : State) : Host.Outcome State Fault Refusal :=
  issueOne s0 (opXcalOff h a f v j)

/-- XCAL_GAIN: Write gains of 64 logical columns (R345). -/
def opXcalGain (h : Hd) (a : BitVec 6) (f : BitVec 1) (v : BitVec 6) (j : BitVec 3) : SlotOp :=
  xcalOp h a f v j true
/-- The meaning of XCAL_GAIN (R345). -/
def execXcalGain (h : Hd) (a : BitVec 6) (f : BitVec 1) (v : BitVec 6) (j : BitVec 3) (s0 : State) : Host.Outcome State Fault Refusal :=
  issueOne s0 (opXcalGain h a f v j)

/-- XCAL_MON: Queue programming of the monitor columns and storing of expectations (R345). -/
def opXcalMon (h : Hd) (a : BitVec 6) : SlotOp :=
  xmonOp h .xcalmon true a
/-- The meaning of XCAL_MON (R345). -/
def execXcalMon (h : Hd) (a : BitVec 6) (s0 : State) : Host.Outcome State Fault Refusal :=
  issueOne s0 (opXcalMon h a)

/-- XGATE: Gate the crossbar bank, via gating when operations are incomplete (R346). -/
def opXgate (h : Hd) : SlotOp :=
  xgateOp h
/-- The meaning of XGATE (R346). -/
def execXgate (h : Hd) (s0 : State) : Host.Outcome State Fault Refusal :=
  issueOne s0 (opXgate h)

/-- XWAKE: Wake a gated bank or return a gating bank to on (R346). -/
def opXwake (h : Hd) : SlotOp :=
  xwakeOp h
/-- The meaning of XWAKE (R346). -/
def execXwake (h : Hd) (s0 : State) : Host.Outcome State Fault Refusal :=
  issueOne s0 (opXwake h)

/-- XSTAT: Read an array's status into an s register (R345). -/
def opXstat (h : Hd) (d : BitVec 6) (a : BitVec 6) : SlotOp :=
  xstatOp h d a
/-- The meaning of XSTAT (R345). -/
def execXstat (h : Hd) (d : BitVec 6) (a : BitVec 6) (s0 : State) : Host.Outcome State Fault Refusal :=
  issueOne s0 (opXstat h d a)

/-- XLDC_CODE: Read a column's code image into a vector register (R344). -/
def opXldcCode (h : Hd) (a : BitVec 6) (f : BitVec 1) (v : BitVec 6) : SlotOp :=
  xldcOp h a f v false
/-- The meaning of XLDC_CODE (R344). -/
def execXldcCode (h : Hd) (a : BitVec 6) (f : BitVec 1) (v : BitVec 6) (s0 : State) : Host.Outcome State Fault Refusal :=
  issueOne s0 (opXldcCode h a f v)

/-- XLDC_VER: Read an array's verify record into a vector register (R344). -/
def opXldcVer (h : Hd) (a : BitVec 6) (f : BitVec 1) (v : BitVec 6) : SlotOp :=
  xldcOp h a f v true
/-- The meaning of XLDC_VER (R344). -/
def execXldcVer (h : Hd) (a : BitVec 6) (f : BitVec 1) (v : BitVec 6) (s0 : State) : Host.Outcome State Fault Refusal :=
  issueOne s0 (opXldcVer h a f v)

end Sys2Proof.Machine
end

