-- ==== Sys2Proof/Machine/Special.lean ====
section
/-! DEFINITION. The special registers, read by MFS and written by MTS (R34, R35, R73, R128, R201, R202, R324). -/

namespace Sys2Proof.Machine

/-- VPWRX and VPWRY (R202). -/
def vpwr (k : Core) (v : Ctx) (file : Bool) : Nat :=
  let g := if file then v.j.granty else v.j.grantx
  if v.r.vpwrsel.toNat ≥ g.2 / 64 then 0xFFFF
  else (List.range 8).foldr (fun b n => (match domPower k ((if file then 8 else 0) * 64 + b * 64 + g.1 / 64 + v.r.vpwrsel.toNat) with
    | .on => 0
    | .off => 2
    | _ => 1) + 4 * n) 0

/-- What MFS reads; none where no register has the number (R35, R201). -/
def mfsValue (s : State) (c x n : Nat) : Option Nat :=
  let v := getCtx s c x
  let r := v.r
  let b := xbOf s (bankCore c v)
  let cl := getCl s (clusterOf c)
  let bit (p : Bool) (i : Nat) : Nat := if p then 2 ^ i else 0
  match n with
  | 0x000 => some (ctxid c x v.j)
  | 0x001 => some v.j.rank
  | 0x002 => some v.j.gsize
  | 0x003 => some r.vfbx.toNat
  | 0x004 => some r.vfby.toNat
  | 0x005 => some r.fpstat.toNat
  | 0x006 => some (((activeLoops r).head?.map (·.rem)).getD 0)
  | 0x007 => some r.vcount
  | 0x008 => some r.donemask.toNat
  | 0x009 => some r.olcnt
  | 0x00A => some r.rstack.length
  | 0x00B => some (activeLoops r).length
  | 0x00C => some (vpwr (getCore s c) v false)
  | 0x00D => some (vpwr (getCore s c) v true)
  | 0x00E => some (bit v.j.strict 0 + bit v.j.prot 1 + bit v.j.fbk 2)
  | 0x00F => some r.vpwrsel.toNat
  | 0x100 => some (getCore s c).thrl.toNat
  | 0x101 => some (cplFree b)
  | 0x102 => some (xbstat b s.t.now)
  | 0x103 => some (xdrift b).toNat
  | 0x104 => some b.monlim.toNat
  | 0x105 => some b.monper.toNat
  | 0x200 => some (waypart cl)
  | 0x201 => some cl.cmap.toNat
  | 0x202 => some cl.cmapn.toNat
  | n => if 0x180 ≤ n ∧ n < 0x1C0 then some (xctlOf b (n - 0x180)) else none

/-- Numbers that MTS may write (R35, R201). -/
def mtsNumber (n : Nat) : Bool :=
  [0x003, 0x004, 0x005, 0x008, 0x00F, 0x100, 0x104, 0x105, 0x200, 0x202].contains n || (0x180 ≤ n && n < 0x1C0)

/-- The checks of MTS that its number decides: unlisted or read-only, then cluster-wide registers and CMAPN (R35). -/
def mtsEarly (n : Nat) (e : Env) : Verdict :=
  if !mtsNumber n then .trap 1 19 0
  else if n = 0x202 then .trap 12 0 0
  else stopIf (n = 0x200 && decide (e.ctx.j.part ≠ 0)) (.trap 12 0 0)

/-- The checks of MTS on its value. -/
def mtsCheck (n v : Nat) (e : Env) : Verdict :=
  let bad (m : Nat) : Verdict := stopIf (decide (m ≤ v)) (.trap 1 19 0)
  let base (g : Nat × Nat) : Verdict :=
    if v % 64 ≠ 0 ∨ 4096 ≤ v then .trap 1 19 0
    else stopIf (!(decide (g.1 ≤ v) && decide (v + 64 ≤ g.1 + g.2))) (.trap 12 0 0)
  match n with
  | 0x003 => base e.ctx.j.grantx
  | 0x004 => base e.ctx.j.granty
  | 0x005 => bad (2 ^ 6)
  | 0x008 => bad (2 ^ 8)
  | 0x00F => bad (2 ^ 6)
  | 0x100 => bad (2 ^ 3)
  | 0x104 => bad (2 ^ 4)
  | 0x105 => bad (2 ^ 32)
  | 0x200 =>
    let cl := getCl e.p (clusterOf e.c)
    if !waypartOk v then .trap 1 20 0
    else if v % 16 = cl.present ∧ cl.sweep.isNone then .go
    else stopIf cl.sweep.isSome (.wait 2 0)
  | _ => stopIf (decide (2 ^ 16 ≤ v) || decide (bitsN v 9 0 > 543) || decide (bitsN v 12 10 + bitsN v 15 13 > 7)) (.trap 1 19 0)

/-- The write of MTS; one of core or cluster scope makes the segment non-replayable (R159). -/
def mtsWrite (n v : Nat) (e : Env) (s : State) : State :=
  let s := if 0x100 ≤ n then markNonReplay s e.c e.x else s
  let reg (f : Regs → Regs) : State := modRegs s e.c e.x f
  match n with
  | 0x003 => reg (fun r => { r with vfbx := BitVec.ofNat 12 v })
  | 0x004 => reg (fun r => { r with vfby := BitVec.ofNat 12 v })
  | 0x005 => reg (fun r => { r with fpstat := BitVec.ofNat 6 v })
  | 0x008 => reg (fun r => { r with donemask := BitVec.ofNat 8 v })
  | 0x00F => reg (fun r => { r with vpwrsel := BitVec.ofNat 6 v })
  | 0x100 => if (getCore s e.c).hot then s else modCore s e.c (fun k => { k with thrl := BitVec.ofNat 3 v })
  | 0x104 => modXb s e.c (fun b => { b with monlim := BitVec.ofNat 4 v })
  | 0x105 => modXb s e.c (fun b => { b with monper := BitVec.ofNat 32 v, lastMon := timebase s })
  | 0x200 => modCl s (clusterOf e.c) (fun c => if v = c.present then c else { c with wayNew := some v })
  | n => modXb s e.c (fun b => { b with xctl := smPut b.xctl (n - 0x180) (BitVec.ofNat 16 v) })

/-- MFS: a special register into an s register. In a protected pair the odd core takes the even core's value. -/
def mfsOp (h : Hd) (d : BitVec 6) (i : BitVec 12) : SlotOp :=
  { pos := 0, h, writes := [.s d.toNat]
    early := fun e => stopIf (mfsValue e.p e.c e.x i.toNat).isNone (.trap 1 19 0)
    eff := fun e s => postResult s e.c e.x 1 (.s d.toNat) (BitVec.ofNat 2048 ((mfsValue e.p e.c e.x i.toNat).getD 0))
    odd := some (followWrites [.s d.toNat]) }

/-- MTS: an s register into a special register. The odd core of a pair writes its own registers only. -/
def mtsOp (h : Hd) (a : BitVec 6) (i : BitVec 12) : SlotOp :=
  { pos := 0, h, reads := [.s a.toNat]
    early := mtsEarly i.toNat
    check := fun e => mtsCheck i.toNat (readS e.r a.toNat).toNat e
    eff := fun e s => mtsWrite i.toNat (readS e.r a.toNat).toNat e s
    odd := some (fun e s => if i.toNat ≤ 0x100 then mtsWrite i.toNat (readS e.r a.toNat).toNat e s else markNonReplay s e.c e.x) }

/-- MFS: Read a special register into an s register (R249). -/
def opMfs (h : Hd) (d : BitVec 6) (i : BitVec 12) : SlotOp :=
  mfsOp h d i
/-- The meaning of MFS (R249). -/
def execMfs (h : Hd) (d : BitVec 6) (i : BitVec 12) (s0 : State) : Host.Outcome State Fault Refusal :=
  issueOne s0 (opMfs h d i)

/-- MTS: Write an s register into a special register, subject to the traps of R35 (R249). -/
def opMts (h : Hd) (s : BitVec 6) (i : BitVec 12) : SlotOp :=
  mtsOp h s i
/-- The meaning of MTS (R249). -/
def execMts (h : Hd) (s : BitVec 6) (i : BitVec 12) (s0 : State) : Host.Outcome State Fault Refusal :=
  issueOne s0 (opMts h s i)

end Sys2Proof.Machine
end

