-- ==== Sys2Proof/Machine/Vector.lean ====
section
/-! DEFINITION. The V slots: element arithmetic, shifts, masks, conversions, reductions and data movement
(R266 to R285). -/

namespace Sys2Proof.Machine

/-! ## Shared forms -/

/-- The position of a V unit, and its file: x for V0, y for V1 (R210). -/
def vPos : Unit2 → Nat
  | .zero => 1
  | .one => 2
def vFile : Unit2 → Bool
  | .zero => false
  | .one => true

/-- A vector register's content by name (R34). -/
def vreg (e : Env) (file : Bool) (n : Nat) : Wide := readV e.core file (vAbs e.r file n)
/-- The hold mask of a unit (R199, R267). -/
def holdOf (e : Env) (u : Unit2) : Word := readK e.r (vFile u) 0

/-- Write a vector register at a latency. -/
def vWrite (e : Env) (s : State) (file : Bool) (lat : Nat) (d : BitVec 6) (v : Wide × Flags) : State :=
  postResult s e.c e.x lat (.v file (vAbs e.r file d.toNat)) v.1 v.2

/-- A vector operation with a vector result under the hold mask; `f` gets the hold mask, the old destination and the
sources named by `srcs`. -/
def vOp (h : Hd) (u : Unit2) (lat : Nat) (d : BitVec 6) (srcs : List (BitVec 6)) (f : Word → Wide → List Wide → Wide × Flags)
    (bad : Bool := false) : SlotOp :=
  { pos := vPos u, h, bad
    reads := srcs.map (fun n => Rd.v (vFile u) n.toNat) ++ [.k (vFile u) 0]
    writes := [.v (vFile u) d.toNat]
    eff := fun e s => vWrite e s (vFile u) lat d
      (f (holdOf e u) (vreg e (vFile u) d.toNat) (srcs.map (fun n => vreg e (vFile u) n.toNat))) }

/-- Element `e` of source `i`. -/
def sel (w : Nat) (l : List Wide) (i e : Nat) : Nat := el w (l.getD i 0) e

/-- One source, element by element. -/
def vEl1 (h : Hd) (u : Unit2) (lat w : Nat) (d a : BitVec 6) (f : Nat → Res) (bad : Bool := false) : SlotOp :=
  vOp h u lat d [a] (fun hold old l => mapEls w hold old (fun e => f (sel w l 0 e))) bad
/-- Two sources, element by element. -/
def vEl2 (h : Hd) (u : Unit2) (lat w : Nat) (d a b : BitVec 6) (f : Nat → Nat → Res) : SlotOp :=
  vOp h u lat d [a, b] (fun hold old l => mapEls w hold old (fun e => f (sel w l 0 e) (sel w l 1 e)))
/-- Three sources, the destination among them, element by element. -/
def vEl3 (h : Hd) (u : Unit2) (lat w : Nat) (d a b : BitVec 6) (f : Nat → Nat → Nat → Res) : SlotOp :=
  vOp h u lat d [a, b, d] (fun hold old l => mapEls w hold old (fun e => f (sel w l 0 e) (sel w l 1 e) (sel w l 2 e)))

/-! ## Element functions (R269, R270, R278, R281) -/

/-- The latency of an element operation: 2 for integer types, 4 for floating point (R227). -/
def elLat : ElTy → Nat
  | .f _ => 4
  | _ => 2

/-- An integer function stored modulo 2^w, or a floating-point one. -/
def elBin (t : ElTy) (fi : Int → Int → Int) (ff : Ff → Nat → Nat → Res) (x y : Nat) : Res :=
  match t with
  | .f t => ff t x y
  | t => (wrap t.width (fi (elInt t x) (elInt t y)), 0)
def elFma (t : ElTy) (x y z : Nat) : Res :=
  match t with
  | .f t => fFma t x y z
  | t => (wrap t.width (elInt t x * elInt t y + elInt t z), 0)
/-- The range of an integer element type. -/
def elRange : ElTy → Int × Int
  | .i w => (-((2 ^ (w - 1) : Nat) : Int), ((2 ^ (w - 1) : Nat) : Int) - 1)
  | t => (0, ((2 ^ t.width : Nat) : Int) - 1)
/-- Saturating sum or difference (R124, R269). -/
def elSat (t : ElTy) (f : Int → Int → Int) (x y : Nat) : Res :=
  (wrap t.width (clip (f (elInt t x) (elInt t y)) (elRange t).1 (elRange t).2), 0)
/-- Absolute value and negation: the sign bit of a floating-point element, modulo 2^w for an integer (R127, R269). -/
def elAbs (t : ElTy) (x : Nat) : Res :=
  match t with
  | .f t => (x % 2 ^ (t.width - 1), 0)
  | t => (wrap t.width (elInt t x).natAbs, 0)
def elNeg (t : ElTy) (x : Nat) : Res :=
  match t with
  | .f t => (x ^^^ 2 ^ (t.width - 1), 0)
  | t => (wrap t.width (-(elInt t x)), 0)
/-- The comparisons of VCMP: 0 EQ, 1 NE, 2 LT, 3 LE (R273). -/
def elCmp (cc : Nat) (t : ElTy) (x y : Nat) : Bool × Flags :=
  match t with
  | .f t => fCompare cc t x y
  | t =>
    let a := elInt t x
    let b := elInt t y
    ((match cc with
      | 0 => a = b
      | 1 => a ≠ b
      | 2 => a < b
      | _ => a ≤ b : Bool), 0)
/-- Shift counts: 3, 4 or 5 bits of the element of b (R270). -/
def shCount (w y : Nat) : Nat := y % w
def elShl (w x y : Nat) : Res := (x * 2 ^ shCount w y % 2 ^ w, 0)
def elShr (w x y : Nat) : Res := (x / 2 ^ shCount w y, 0)
def elSar (w x y : Nat) : Res := (wrap w ((sgn w x).fdiv ((2 ^ shCount w y : Nat) : Int)), 0)
/-- Multiply by a power of two with one rounding (R278). -/
def elScl (f : Ff) (x y : Nat) : Res :=
  match unpack f x with
  | .fin n m e => roundMag f 0 n m (e + sgn f.width y) false
  | v => roundFV f 0 v

/-! ## Whole-register functions -/

def fullTy (t : BitVec 4) : ElTy := (tyFull t.toNat).getD (.i 8)
/-- TY outside the full set, and outside the set of VABS and VNEG (R219, R222). -/
def badTy (t : BitVec 4) : Bool := t.toNat > 8
def badAbsTy (t : BitVec 4) : Bool := t.toNat > 8 || (3 ≤ t.toNat && t.toNat ≤ 5)

/-- Bitwise operations on active lanes (R271). -/
def vBit (h : Hd) (u : Unit2) (d a b : BitVec 6) (f : Wide → Wide → Wide) : SlotOp :=
  vOp h u 2 d [a, b] (fun hold old l => (mergeLanes hold old (f (l.getD 0 0) (l.getD 1 0)), 0))

/-- VCMP: one bit for each lane, set when the condition holds for every element of the lane (R273). -/
def vcmpOp (h : Hd) (u : Unit2) (t : ElTy) (d c : BitVec 3) (a b : BitVec 6) : SlotOp :=
  let file := vFile u
  let w := t.width
  { pos := vPos u, h, bad := c.toNat > 3
    reads := [.v file a.toNat, .v file b.toNat, .k file 0]
    writes := [.k file d.toNat]
    eff := fun e s =>
      let x := vreg e file a.toNat
      let y := vreg e file b.toNat
      let hold := holdOf e u
      let at_ (i : Nat) : Bool × Flags := elCmp c.toNat t (el w x i) (el w y i)
      let n := 32 / w
      let lane (l : Nat) : Bool := (List.range n).all (fun j => (at_ (l * n + j)).1)
      let old := readK e.r file d.toNat
      let new := lanesOf (fun l => if hold.getLsbD l then old.getLsbD l else lane l)
      let fl := (List.range (elCount w)).foldl (fun f i => if hold.getLsbD (laneOf w i) then f else f ||| (at_ i).2) 0
      postResult s e.c e.x 2 (.k file d.toNat) (new.setWidth 2048) fl }

/-- VSEL (R274). -/
def vselOp (h : Hd) (u : Unit2) (d a : BitVec 6) (k : BitVec 3) : SlotOp :=
  let file := vFile u
  { pos := vPos u, h
    reads := [.v file a.toNat, .v file d.toNat, .k file k.toNat, .k file 0]
    writes := [.v file d.toNat]
    eff := fun e s =>
      let old := vreg e file d.toNat
      let keep := holdOf e u ||| ~~~(readK e.r file k.toNat)
      vWrite e s file 2 d (mergeLanes keep old (vreg e file a.toNat), 0) }

/-- KOP: whole masks, latency 1, the hold mask ignored (R275). -/
def kopOp (h : Hd) (u : Unit2) (d : BitVec 3) (srcs : List (BitVec 3)) (f : List Word → Word) : SlotOp :=
  let file := vFile u
  { pos := vPos u, h
    reads := srcs.map (fun k => Rd.k file k.toNat)
    writes := [.k file d.toNat]
    eff := fun e s =>
      postResult s e.c e.x 1 (.k file d.toNat) ((f (srcs.map (fun k => readK e.r file k.toNat))).setWidth 2048) }

/-- VTEST: the counts are fixed at issue and delivered at t + 2 (R276). -/
def vtestOp (h : Hd) (u : Unit2) (p q : BitVec 4) (a : BitVec 6) : SlotOp :=
  let file := vFile u
  { pos := vPos u, h
    reads := [.v file a.toNat, .k file 0]
    eff := fun e s =>
      let hold := holdOf e u
      let x := vreg e file a.toNat
      let set := lanesOf (fun l => !hold.getLsbD l && el 32 x l ≠ 0)
      postResult s e.c e.x 3 (.vtest p q (popc set) (popc (~~~hold))) 0 }

/-- VCVT from class `v` to class `w` (R277). -/
def vcvtOp (h : Hd) (u : Unit2) (rm : BitVec 2) (d a : BitVec 6) (dc sc : BitVec 3) : SlotOp :=
  let dt := tyClass dc.toNat
  let st := tyClass sc.toNat
  let m := min (elCount st.width) (elCount dt.width)
  vOp h u 4 d [a] (fun hold old l =>
    mapEls dt.width hold old (fun e => if e < m then cvtEl dt rm (elVal st (sel st.width l 0 e)) else (0, 0)))

/-- VQMX: four blocks of 32 FP32 values, the hold mask ignored (R279). -/
def vqmxOp (h : Hd) (u : Unit2) (rm : BitVec 2) (d a b : BitVec 6) : SlotOp :=
  let file := vFile u
  { pos := vPos u, h
    reads := [.v file a.toNat, .v file b.toNat]
    writes := [.v file d.toNat]
    eff := fun e s =>
      let x := vreg e file a.toNat
      let y := vreg e file b.toNat
      let val (i : Nat) : FV := unpack .f32 (if i < 64 then el 32 x i else el 32 y (i - 64))
      let blk (q : Nat) : Nat × List Nat × Flags := mxQuant rm ((List.range 32).map (fun i => val (32 * q + i)))
      let bs := (List.range 4).map blk
      let bytes := bs.flatMap (fun b => b.2.1) ++ bs.map (fun b => b.1)
      let v := bytes.foldr (fun b acc => b + 256 * acc) 0
      vWrite e s file 6 d (BitVec.ofNat 2048 v, bs.foldl (fun f b => f ||| b.2.2) 0) }

/-- VDQ: two Q4 blocks to 128 FP16 elements (R280). Of the block scale's forming only NV is raised (R138). -/
def vdqOp (h : Hd) (u : Unit2) (d a b : BitVec 6) : SlotOp :=
  vOp h u 4 d [a, b] (fun hold old l =>
    let x := l.getD 0 0
    let y := l.getD 1 0
    let sup := el 32 y 0
    let o := el 32 y 1 % 256
    let byte (j i : Nat) : Nat := el 8 x ((o + 34 * j + i) % 256)
    mapEls 16 hold old (fun e =>
      let j := e / 64
      let k := e % 64
      let tag := byte j 1 % 4
      let bs := q4Scale sup (byte j 0) tag
      let nib := (byte j (2 + k / 2) / (if k % 2 = 0 then 1 else 16)) % 16
      let p := q4Val bs.1 (q4Level tag nib)
      let r := roundFV .f16 0 p.1
      (r.1, r.2 ||| p.2 ||| (bs.2 &&& fNV))))

/-- An FP16 or BF16 element converted exactly to FP32; a signalling NaN stays signalling. -/
def toF32 (f : Ff) (x : Nat) : Nat :=
  match unpack f x with
  | .nan s => if s then 0x7FA00000 else Ff.f32.nan
  | v => (roundFV .f32 0 v).1

/-- The kinds of reduction (R282). -/
inductive RedKind where
  | sum
  | max
  | min
  deriving DecidableEq, Repr

/-- A node of the reduction tree over 32-bit values (R282). -/
def redNode (k : RedKind) (t : ElTy) (a b : Res) : Res :=
  let (v, g) := match t with
    | .f _ => (match k with
      | .sum => fAdd .f32 a.1 b.1
      | .max => fMinMax true .f32 a.1 b.1
      | .min => fMinMax false .f32 a.1 b.1 : Res)
    | t =>
      let i (x : Nat) : Int := match t with
        | .i _ => sgn 32 x
        | _ => x
      (match k with
        | .sum => ((a.1 + b.1) % 2 ^ 32, 0)
        | .max => (if i a.1 < i b.1 then b.1 else a.1, 0)
        | .min => (if i b.1 < i a.1 then b.1 else a.1, 0) : Res)
  (v, g ||| a.2 ||| b.2)

/-- The identity of a reduction as 32 bits (R144). -/
def redIdent (k : RedKind) (t : ElTy) : Nat :=
  match k, t with
  | .sum, .f _ => 0x80000000
  | .sum, _ => 0
  | .max, .f _ => 0xFF800000
  | .max, .i _ => 0x80000000
  | .max, .n _ => 0
  | .min, .f _ => 0x7F800000
  | .min, .i _ => 0x7FFFFFFF
  | .min, .n _ => 0xFFFFFFFF

/-- A leaf as 32 bits (R282). -/
def redLeaf (t : ElTy) (x : Nat) : Nat :=
  match t with
  | .i w => wrap 32 (sgn w x)
  | .n _ => x
  | .f f => if f = .f32 then x else toF32 f x

/-- VREDS, VREDM, VREDN (R282). -/
def vredOp (h : Hd) (u : Unit2) (k : RedKind) (d a : BitVec 6) (t : BitVec 4) : SlotOp :=
  let ty := fullTy t
  let w := ty.width
  vOp h u 6 d [a] (fun hold _ l =>
    let leaf (e : Nat) : Res := (if hold.getLsbD (laneOf w e) then redIdent k ty else redLeaf ty (sel w l 0 e), 0)
    let r := (treeFold (redNode k ty) (elCount w).log2 ((List.range (elCount w)).map leaf)).headD (0, 0)
    (BitVec.ofNat 2048 (r.1 % 2 ^ 32), r.2)) (badTy t)

/-- VSET: a sign-extended immediate in every element (R272). -/
def vsetOp (h : Hd) (u : Unit2) (w : Nat) (d : BitVec 6) (i : BitVec 12) : SlotOp :=
  vOp h u 2 d [] (fun hold old _ => mapEls w hold old (fun _ => (wrap w i.toInt, 0)))

/-- VSPLAT: the low bits of an s register in every element (R272). -/
def vsplatOp (h : Hd) (u : Unit2) (d a : BitVec 6) (t : BitVec 4) : SlotOp :=
  let file := vFile u
  { pos := vPos u, h, bad := badTy t
    reads := [.s a.toNat, .k file 0]
    writes := [.v file d.toNat]
    eff := fun e s =>
      let w := (fullTy t).width
      let v := (readS e.r a.toNat).toNat % 2 ^ w
      vWrite e s file 2 d (mapEls w (holdOf e u) (vreg e file d.toNat) (fun _ => (v, 0))) }

/-- VPERM: any byte to any byte (R283). -/
def vpermOp (h : Hd) (u : Unit2) (d a b : BitVec 6) : SlotOp :=
  vOp h u 3 d [a, b] (fun hold old l => mapEls 8 hold old (fun j => (sel 8 l 0 (sel 8 l 1 j), 0)))
/-- VROT: lanes rotated (R283). -/
def vrotOp (h : Hd) (u : Unit2) (d a i : BitVec 6) : SlotOp :=
  vOp h u 2 d [a] (fun hold old l => mapEls 32 hold old (fun k => (sel 32 l 0 ((k + i.toNat) % 64), 0)))
/-- XFER: a register of the other file (R284). -/
def xferOp (h : Hd) (u : Unit2) (d a : BitVec 6) : SlotOp :=
  let file := vFile u
  { pos := vPos u, h
    reads := [.v (!file) a.toNat, .k file 0]
    writes := [.v file d.toNat]
    eff := fun e s => vWrite e s file 2 d (mergeLanes (holdOf e u) (vreg e file d.toNat) (vreg e (!file) a.toNat), 0) }

/-- Whether 64 registers from `b` lie in a grant (R34). -/
def inGrant (g : Nat × Nat) (b : Int) : Bool := (g.1 : Int) ≤ b && b + 64 ≤ ((g.1 + g.2 : Nat) : Int)
def grantOf (j : Place) (file : Bool) : Nat × Nat := if file then j.granty else j.grantx
def setVfb (r : Regs) (file : Bool) (b : BitVec 12) : Regs := if file then { r with vfby := b } else { r with vfbx := b }
/-- VFRAME: the frame base moves by whole frames inside the grant (R285). -/
def vframeOp (h : Hd) (u : Unit2) (st : BitVec 7) : SlotOp :=
  let file := vFile u
  let new (r : Regs) : Int := ((vfb r file).toNat : Int) + 64 * st.toInt
  { pos := vPos u, h
    check := fun e => stopIf (!inGrant (grantOf e.ctx.j file) (new e.r)) (.trap 12 0 0)
    eff := fun e s => modRegs s e.c e.x (fun r => setVfb r file (BitVec.ofInt 12 (new e.r))) }

/-! ## The operations -/

/-- VADD_I8: Element-wise i8 add (R269). -/
def opVaddI8 (h : Hd) (u : Unit2) (d : BitVec 6) (a : BitVec 6) (b : BitVec 6) : SlotOp :=
  vEl2 h u (elLat (.i 8)) 8 d a b (elBin (.i 8) (fun x y => x + y) fAdd)
/-- The meaning of VADD_I8 (R269). -/
def execVaddI8 (h : Hd) (u : Unit2) (d : BitVec 6) (a : BitVec 6) (b : BitVec 6) (s0 : State) : Host.Outcome State Fault Refusal :=
  issueOne s0 (opVaddI8 h u d a b)

/-- VADD_I16: Element-wise i16 add (R269). -/
def opVaddI16 (h : Hd) (u : Unit2) (d : BitVec 6) (a : BitVec 6) (b : BitVec 6) : SlotOp :=
  vEl2 h u (elLat (.i 16)) 16 d a b (elBin (.i 16) (fun x y => x + y) fAdd)
/-- The meaning of VADD_I16 (R269). -/
def execVaddI16 (h : Hd) (u : Unit2) (d : BitVec 6) (a : BitVec 6) (b : BitVec 6) (s0 : State) : Host.Outcome State Fault Refusal :=
  issueOne s0 (opVaddI16 h u d a b)

/-- VADD_I32: Element-wise i32 add (R269). -/
def opVaddI32 (h : Hd) (u : Unit2) (d : BitVec 6) (a : BitVec 6) (b : BitVec 6) : SlotOp :=
  vEl2 h u (elLat (.i 32)) 32 d a b (elBin (.i 32) (fun x y => x + y) fAdd)
/-- The meaning of VADD_I32 (R269). -/
def execVaddI32 (h : Hd) (u : Unit2) (d : BitVec 6) (a : BitVec 6) (b : BitVec 6) (s0 : State) : Host.Outcome State Fault Refusal :=
  issueOne s0 (opVaddI32 h u d a b)

/-- VADD_F16: Element-wise FP16 add (R269). -/
def opVaddF16 (h : Hd) (u : Unit2) (d : BitVec 6) (a : BitVec 6) (b : BitVec 6) : SlotOp :=
  vEl2 h u (elLat (.f .f16)) 16 d a b (elBin (.f .f16) (fun x y => x + y) fAdd)
/-- The meaning of VADD_F16 (R269). -/
def execVaddF16 (h : Hd) (u : Unit2) (d : BitVec 6) (a : BitVec 6) (b : BitVec 6) (s0 : State) : Host.Outcome State Fault Refusal :=
  issueOne s0 (opVaddF16 h u d a b)

/-- VADD_B16: Element-wise BF16 add (R269). -/
def opVaddB16 (h : Hd) (u : Unit2) (d : BitVec 6) (a : BitVec 6) (b : BitVec 6) : SlotOp :=
  vEl2 h u (elLat (.f .b16)) 16 d a b (elBin (.f .b16) (fun x y => x + y) fAdd)
/-- The meaning of VADD_B16 (R269). -/
def execVaddB16 (h : Hd) (u : Unit2) (d : BitVec 6) (a : BitVec 6) (b : BitVec 6) (s0 : State) : Host.Outcome State Fault Refusal :=
  issueOne s0 (opVaddB16 h u d a b)

/-- VADD_F32: Element-wise FP32 add (R269). -/
def opVaddF32 (h : Hd) (u : Unit2) (d : BitVec 6) (a : BitVec 6) (b : BitVec 6) : SlotOp :=
  vEl2 h u (elLat (.f .f32)) 32 d a b (elBin (.f .f32) (fun x y => x + y) fAdd)
/-- The meaning of VADD_F32 (R269). -/
def execVaddF32 (h : Hd) (u : Unit2) (d : BitVec 6) (a : BitVec 6) (b : BitVec 6) (s0 : State) : Host.Outcome State Fault Refusal :=
  issueOne s0 (opVaddF32 h u d a b)

/-- VSUB_I8: Element-wise i8 subtract (R269). -/
def opVsubI8 (h : Hd) (u : Unit2) (d : BitVec 6) (a : BitVec 6) (b : BitVec 6) : SlotOp :=
  vEl2 h u (elLat (.i 8)) 8 d a b (elBin (.i 8) (fun x y => x - y) fSub)
/-- The meaning of VSUB_I8 (R269). -/
def execVsubI8 (h : Hd) (u : Unit2) (d : BitVec 6) (a : BitVec 6) (b : BitVec 6) (s0 : State) : Host.Outcome State Fault Refusal :=
  issueOne s0 (opVsubI8 h u d a b)

/-- VSUB_I16: Element-wise i16 subtract (R269). -/
def opVsubI16 (h : Hd) (u : Unit2) (d : BitVec 6) (a : BitVec 6) (b : BitVec 6) : SlotOp :=
  vEl2 h u (elLat (.i 16)) 16 d a b (elBin (.i 16) (fun x y => x - y) fSub)
/-- The meaning of VSUB_I16 (R269). -/
def execVsubI16 (h : Hd) (u : Unit2) (d : BitVec 6) (a : BitVec 6) (b : BitVec 6) (s0 : State) : Host.Outcome State Fault Refusal :=
  issueOne s0 (opVsubI16 h u d a b)

/-- VSUB_I32: Element-wise i32 subtract (R269). -/
def opVsubI32 (h : Hd) (u : Unit2) (d : BitVec 6) (a : BitVec 6) (b : BitVec 6) : SlotOp :=
  vEl2 h u (elLat (.i 32)) 32 d a b (elBin (.i 32) (fun x y => x - y) fSub)
/-- The meaning of VSUB_I32 (R269). -/
def execVsubI32 (h : Hd) (u : Unit2) (d : BitVec 6) (a : BitVec 6) (b : BitVec 6) (s0 : State) : Host.Outcome State Fault Refusal :=
  issueOne s0 (opVsubI32 h u d a b)

/-- VSUB_F16: Element-wise FP16 subtract (R269). -/
def opVsubF16 (h : Hd) (u : Unit2) (d : BitVec 6) (a : BitVec 6) (b : BitVec 6) : SlotOp :=
  vEl2 h u (elLat (.f .f16)) 16 d a b (elBin (.f .f16) (fun x y => x - y) fSub)
/-- The meaning of VSUB_F16 (R269). -/
def execVsubF16 (h : Hd) (u : Unit2) (d : BitVec 6) (a : BitVec 6) (b : BitVec 6) (s0 : State) : Host.Outcome State Fault Refusal :=
  issueOne s0 (opVsubF16 h u d a b)

/-- VSUB_B16: Element-wise BF16 subtract (R269). -/
def opVsubB16 (h : Hd) (u : Unit2) (d : BitVec 6) (a : BitVec 6) (b : BitVec 6) : SlotOp :=
  vEl2 h u (elLat (.f .b16)) 16 d a b (elBin (.f .b16) (fun x y => x - y) fSub)
/-- The meaning of VSUB_B16 (R269). -/
def execVsubB16 (h : Hd) (u : Unit2) (d : BitVec 6) (a : BitVec 6) (b : BitVec 6) (s0 : State) : Host.Outcome State Fault Refusal :=
  issueOne s0 (opVsubB16 h u d a b)

/-- VSUB_F32: Element-wise FP32 subtract (R269). -/
def opVsubF32 (h : Hd) (u : Unit2) (d : BitVec 6) (a : BitVec 6) (b : BitVec 6) : SlotOp :=
  vEl2 h u (elLat (.f .f32)) 32 d a b (elBin (.f .f32) (fun x y => x - y) fSub)
/-- The meaning of VSUB_F32 (R269). -/
def execVsubF32 (h : Hd) (u : Unit2) (d : BitVec 6) (a : BitVec 6) (b : BitVec 6) (s0 : State) : Host.Outcome State Fault Refusal :=
  issueOne s0 (opVsubF32 h u d a b)

/-- VMUL_I8: Element-wise i8 multiply, low bits (R269). -/
def opVmulI8 (h : Hd) (u : Unit2) (d : BitVec 6) (a : BitVec 6) (b : BitVec 6) : SlotOp :=
  vEl2 h u (elLat (.i 8)) 8 d a b (elBin (.i 8) (fun x y => x * y) fMul)
/-- The meaning of VMUL_I8 (R269). -/
def execVmulI8 (h : Hd) (u : Unit2) (d : BitVec 6) (a : BitVec 6) (b : BitVec 6) (s0 : State) : Host.Outcome State Fault Refusal :=
  issueOne s0 (opVmulI8 h u d a b)

/-- VMUL_I16: Element-wise i16 multiply (R269). -/
def opVmulI16 (h : Hd) (u : Unit2) (d : BitVec 6) (a : BitVec 6) (b : BitVec 6) : SlotOp :=
  vEl2 h u (elLat (.i 16)) 16 d a b (elBin (.i 16) (fun x y => x * y) fMul)
/-- The meaning of VMUL_I16 (R269). -/
def execVmulI16 (h : Hd) (u : Unit2) (d : BitVec 6) (a : BitVec 6) (b : BitVec 6) (s0 : State) : Host.Outcome State Fault Refusal :=
  issueOne s0 (opVmulI16 h u d a b)

/-- VMUL_I32: Element-wise i32 multiply (R269). -/
def opVmulI32 (h : Hd) (u : Unit2) (d : BitVec 6) (a : BitVec 6) (b : BitVec 6) : SlotOp :=
  vEl2 h u (elLat (.i 32)) 32 d a b (elBin (.i 32) (fun x y => x * y) fMul)
/-- The meaning of VMUL_I32 (R269). -/
def execVmulI32 (h : Hd) (u : Unit2) (d : BitVec 6) (a : BitVec 6) (b : BitVec 6) (s0 : State) : Host.Outcome State Fault Refusal :=
  issueOne s0 (opVmulI32 h u d a b)

/-- VMUL_F16: Element-wise FP16 multiply (R269). -/
def opVmulF16 (h : Hd) (u : Unit2) (d : BitVec 6) (a : BitVec 6) (b : BitVec 6) : SlotOp :=
  vEl2 h u (elLat (.f .f16)) 16 d a b (elBin (.f .f16) (fun x y => x * y) fMul)
/-- The meaning of VMUL_F16 (R269). -/
def execVmulF16 (h : Hd) (u : Unit2) (d : BitVec 6) (a : BitVec 6) (b : BitVec 6) (s0 : State) : Host.Outcome State Fault Refusal :=
  issueOne s0 (opVmulF16 h u d a b)

/-- VMUL_B16: Element-wise BF16 multiply (R269). -/
def opVmulB16 (h : Hd) (u : Unit2) (d : BitVec 6) (a : BitVec 6) (b : BitVec 6) : SlotOp :=
  vEl2 h u (elLat (.f .b16)) 16 d a b (elBin (.f .b16) (fun x y => x * y) fMul)
/-- The meaning of VMUL_B16 (R269). -/
def execVmulB16 (h : Hd) (u : Unit2) (d : BitVec 6) (a : BitVec 6) (b : BitVec 6) (s0 : State) : Host.Outcome State Fault Refusal :=
  issueOne s0 (opVmulB16 h u d a b)

/-- VMUL_F32: Element-wise FP32 multiply (R269). -/
def opVmulF32 (h : Hd) (u : Unit2) (d : BitVec 6) (a : BitVec 6) (b : BitVec 6) : SlotOp :=
  vEl2 h u (elLat (.f .f32)) 32 d a b (elBin (.f .f32) (fun x y => x * y) fMul)
/-- The meaning of VMUL_F32 (R269). -/
def execVmulF32 (h : Hd) (u : Unit2) (d : BitVec 6) (a : BitVec 6) (b : BitVec 6) (s0 : State) : Host.Outcome State Fault Refusal :=
  issueOne s0 (opVmulF32 h u d a b)

/-- VFMA_I8: Element-wise i8 multiply-add into d (R269). -/
def opVfmaI8 (h : Hd) (u : Unit2) (d : BitVec 6) (a : BitVec 6) (b : BitVec 6) : SlotOp :=
  vEl3 h u (elLat (.i 8)) 8 d a b (elFma (.i 8))
/-- The meaning of VFMA_I8 (R269). -/
def execVfmaI8 (h : Hd) (u : Unit2) (d : BitVec 6) (a : BitVec 6) (b : BitVec 6) (s0 : State) : Host.Outcome State Fault Refusal :=
  issueOne s0 (opVfmaI8 h u d a b)

/-- VFMA_I16: Element-wise i16 multiply-add (R269). -/
def opVfmaI16 (h : Hd) (u : Unit2) (d : BitVec 6) (a : BitVec 6) (b : BitVec 6) : SlotOp :=
  vEl3 h u (elLat (.i 16)) 16 d a b (elFma (.i 16))
/-- The meaning of VFMA_I16 (R269). -/
def execVfmaI16 (h : Hd) (u : Unit2) (d : BitVec 6) (a : BitVec 6) (b : BitVec 6) (s0 : State) : Host.Outcome State Fault Refusal :=
  issueOne s0 (opVfmaI16 h u d a b)

/-- VFMA_I32: Element-wise i32 multiply-add (R269). -/
def opVfmaI32 (h : Hd) (u : Unit2) (d : BitVec 6) (a : BitVec 6) (b : BitVec 6) : SlotOp :=
  vEl3 h u (elLat (.i 32)) 32 d a b (elFma (.i 32))
/-- The meaning of VFMA_I32 (R269). -/
def execVfmaI32 (h : Hd) (u : Unit2) (d : BitVec 6) (a : BitVec 6) (b : BitVec 6) (s0 : State) : Host.Outcome State Fault Refusal :=
  issueOne s0 (opVfmaI32 h u d a b)

/-- VFMA_F16: Element-wise FP16 fused multiply-add (R269). -/
def opVfmaF16 (h : Hd) (u : Unit2) (d : BitVec 6) (a : BitVec 6) (b : BitVec 6) : SlotOp :=
  vEl3 h u (elLat (.f .f16)) 16 d a b (elFma (.f .f16))
/-- The meaning of VFMA_F16 (R269). -/
def execVfmaF16 (h : Hd) (u : Unit2) (d : BitVec 6) (a : BitVec 6) (b : BitVec 6) (s0 : State) : Host.Outcome State Fault Refusal :=
  issueOne s0 (opVfmaF16 h u d a b)

/-- VFMA_B16: Element-wise BF16 fused multiply-add (R269). -/
def opVfmaB16 (h : Hd) (u : Unit2) (d : BitVec 6) (a : BitVec 6) (b : BitVec 6) : SlotOp :=
  vEl3 h u (elLat (.f .b16)) 16 d a b (elFma (.f .b16))
/-- The meaning of VFMA_B16 (R269). -/
def execVfmaB16 (h : Hd) (u : Unit2) (d : BitVec 6) (a : BitVec 6) (b : BitVec 6) (s0 : State) : Host.Outcome State Fault Refusal :=
  issueOne s0 (opVfmaB16 h u d a b)

/-- VFMA_F32: Element-wise FP32 fused multiply-add (R269). -/
def opVfmaF32 (h : Hd) (u : Unit2) (d : BitVec 6) (a : BitVec 6) (b : BitVec 6) : SlotOp :=
  vEl3 h u (elLat (.f .f32)) 32 d a b (elFma (.f .f32))
/-- The meaning of VFMA_F32 (R269). -/
def execVfmaF32 (h : Hd) (u : Unit2) (d : BitVec 6) (a : BitVec 6) (b : BitVec 6) (s0 : State) : Host.Outcome State Fault Refusal :=
  issueOne s0 (opVfmaF32 h u d a b)

/-- VMIN_I8: Element-wise i8 minimum (R269). -/
def opVminI8 (h : Hd) (u : Unit2) (d : BitVec 6) (a : BitVec 6) (b : BitVec 6) : SlotOp :=
  vEl2 h u (elLat (.i 8)) 8 d a b (elBin (.i 8) (fun x y => if y < x then y else x) (fMinMax false))
/-- The meaning of VMIN_I8 (R269). -/
def execVminI8 (h : Hd) (u : Unit2) (d : BitVec 6) (a : BitVec 6) (b : BitVec 6) (s0 : State) : Host.Outcome State Fault Refusal :=
  issueOne s0 (opVminI8 h u d a b)

/-- VMIN_I16: Element-wise i16 minimum (R269). -/
def opVminI16 (h : Hd) (u : Unit2) (d : BitVec 6) (a : BitVec 6) (b : BitVec 6) : SlotOp :=
  vEl2 h u (elLat (.i 16)) 16 d a b (elBin (.i 16) (fun x y => if y < x then y else x) (fMinMax false))
/-- The meaning of VMIN_I16 (R269). -/
def execVminI16 (h : Hd) (u : Unit2) (d : BitVec 6) (a : BitVec 6) (b : BitVec 6) (s0 : State) : Host.Outcome State Fault Refusal :=
  issueOne s0 (opVminI16 h u d a b)

/-- VMIN_I32: Element-wise i32 minimum (R269). -/
def opVminI32 (h : Hd) (u : Unit2) (d : BitVec 6) (a : BitVec 6) (b : BitVec 6) : SlotOp :=
  vEl2 h u (elLat (.i 32)) 32 d a b (elBin (.i 32) (fun x y => if y < x then y else x) (fMinMax false))
/-- The meaning of VMIN_I32 (R269). -/
def execVminI32 (h : Hd) (u : Unit2) (d : BitVec 6) (a : BitVec 6) (b : BitVec 6) (s0 : State) : Host.Outcome State Fault Refusal :=
  issueOne s0 (opVminI32 h u d a b)

/-- VMIN_N8: Element-wise unsigned 8-bit minimum (R269). -/
def opVminN8 (h : Hd) (u : Unit2) (d : BitVec 6) (a : BitVec 6) (b : BitVec 6) : SlotOp :=
  vEl2 h u (elLat (.n 8)) 8 d a b (elBin (.n 8) (fun x y => if y < x then y else x) (fMinMax false))
/-- The meaning of VMIN_N8 (R269). -/
def execVminN8 (h : Hd) (u : Unit2) (d : BitVec 6) (a : BitVec 6) (b : BitVec 6) (s0 : State) : Host.Outcome State Fault Refusal :=
  issueOne s0 (opVminN8 h u d a b)

/-- VMIN_N16: Element-wise unsigned 16-bit minimum (R269). -/
def opVminN16 (h : Hd) (u : Unit2) (d : BitVec 6) (a : BitVec 6) (b : BitVec 6) : SlotOp :=
  vEl2 h u (elLat (.n 16)) 16 d a b (elBin (.n 16) (fun x y => if y < x then y else x) (fMinMax false))
/-- The meaning of VMIN_N16 (R269). -/
def execVminN16 (h : Hd) (u : Unit2) (d : BitVec 6) (a : BitVec 6) (b : BitVec 6) (s0 : State) : Host.Outcome State Fault Refusal :=
  issueOne s0 (opVminN16 h u d a b)

/-- VMIN_N32: Element-wise unsigned 32-bit minimum (R269). -/
def opVminN32 (h : Hd) (u : Unit2) (d : BitVec 6) (a : BitVec 6) (b : BitVec 6) : SlotOp :=
  vEl2 h u (elLat (.n 32)) 32 d a b (elBin (.n 32) (fun x y => if y < x then y else x) (fMinMax false))
/-- The meaning of VMIN_N32 (R269). -/
def execVminN32 (h : Hd) (u : Unit2) (d : BitVec 6) (a : BitVec 6) (b : BitVec 6) (s0 : State) : Host.Outcome State Fault Refusal :=
  issueOne s0 (opVminN32 h u d a b)

/-- VMIN_F16: Element-wise FP16 minimumNumber (R269). -/
def opVminF16 (h : Hd) (u : Unit2) (d : BitVec 6) (a : BitVec 6) (b : BitVec 6) : SlotOp :=
  vEl2 h u (elLat (.f .f16)) 16 d a b (elBin (.f .f16) (fun x y => if y < x then y else x) (fMinMax false))
/-- The meaning of VMIN_F16 (R269). -/
def execVminF16 (h : Hd) (u : Unit2) (d : BitVec 6) (a : BitVec 6) (b : BitVec 6) (s0 : State) : Host.Outcome State Fault Refusal :=
  issueOne s0 (opVminF16 h u d a b)

/-- VMIN_B16: Element-wise BF16 minimumNumber (R269). -/
def opVminB16 (h : Hd) (u : Unit2) (d : BitVec 6) (a : BitVec 6) (b : BitVec 6) : SlotOp :=
  vEl2 h u (elLat (.f .b16)) 16 d a b (elBin (.f .b16) (fun x y => if y < x then y else x) (fMinMax false))
/-- The meaning of VMIN_B16 (R269). -/
def execVminB16 (h : Hd) (u : Unit2) (d : BitVec 6) (a : BitVec 6) (b : BitVec 6) (s0 : State) : Host.Outcome State Fault Refusal :=
  issueOne s0 (opVminB16 h u d a b)

/-- VMIN_F32: Element-wise FP32 minimumNumber (R269). -/
def opVminF32 (h : Hd) (u : Unit2) (d : BitVec 6) (a : BitVec 6) (b : BitVec 6) : SlotOp :=
  vEl2 h u (elLat (.f .f32)) 32 d a b (elBin (.f .f32) (fun x y => if y < x then y else x) (fMinMax false))
/-- The meaning of VMIN_F32 (R269). -/
def execVminF32 (h : Hd) (u : Unit2) (d : BitVec 6) (a : BitVec 6) (b : BitVec 6) (s0 : State) : Host.Outcome State Fault Refusal :=
  issueOne s0 (opVminF32 h u d a b)

/-- VMAX_I8: Element-wise i8 maximum (R269). -/
def opVmaxI8 (h : Hd) (u : Unit2) (d : BitVec 6) (a : BitVec 6) (b : BitVec 6) : SlotOp :=
  vEl2 h u (elLat (.i 8)) 8 d a b (elBin (.i 8) (fun x y => if x < y then y else x) (fMinMax true))
/-- The meaning of VMAX_I8 (R269). -/
def execVmaxI8 (h : Hd) (u : Unit2) (d : BitVec 6) (a : BitVec 6) (b : BitVec 6) (s0 : State) : Host.Outcome State Fault Refusal :=
  issueOne s0 (opVmaxI8 h u d a b)

/-- VMAX_I16: Element-wise i16 maximum (R269). -/
def opVmaxI16 (h : Hd) (u : Unit2) (d : BitVec 6) (a : BitVec 6) (b : BitVec 6) : SlotOp :=
  vEl2 h u (elLat (.i 16)) 16 d a b (elBin (.i 16) (fun x y => if x < y then y else x) (fMinMax true))
/-- The meaning of VMAX_I16 (R269). -/
def execVmaxI16 (h : Hd) (u : Unit2) (d : BitVec 6) (a : BitVec 6) (b : BitVec 6) (s0 : State) : Host.Outcome State Fault Refusal :=
  issueOne s0 (opVmaxI16 h u d a b)

/-- VMAX_I32: Element-wise i32 maximum (R269). -/
def opVmaxI32 (h : Hd) (u : Unit2) (d : BitVec 6) (a : BitVec 6) (b : BitVec 6) : SlotOp :=
  vEl2 h u (elLat (.i 32)) 32 d a b (elBin (.i 32) (fun x y => if x < y then y else x) (fMinMax true))
/-- The meaning of VMAX_I32 (R269). -/
def execVmaxI32 (h : Hd) (u : Unit2) (d : BitVec 6) (a : BitVec 6) (b : BitVec 6) (s0 : State) : Host.Outcome State Fault Refusal :=
  issueOne s0 (opVmaxI32 h u d a b)

/-- VMAX_N8: Element-wise unsigned 8-bit maximum (R269). -/
def opVmaxN8 (h : Hd) (u : Unit2) (d : BitVec 6) (a : BitVec 6) (b : BitVec 6) : SlotOp :=
  vEl2 h u (elLat (.n 8)) 8 d a b (elBin (.n 8) (fun x y => if x < y then y else x) (fMinMax true))
/-- The meaning of VMAX_N8 (R269). -/
def execVmaxN8 (h : Hd) (u : Unit2) (d : BitVec 6) (a : BitVec 6) (b : BitVec 6) (s0 : State) : Host.Outcome State Fault Refusal :=
  issueOne s0 (opVmaxN8 h u d a b)

/-- VMAX_N16: Element-wise unsigned 16-bit maximum (R269). -/
def opVmaxN16 (h : Hd) (u : Unit2) (d : BitVec 6) (a : BitVec 6) (b : BitVec 6) : SlotOp :=
  vEl2 h u (elLat (.n 16)) 16 d a b (elBin (.n 16) (fun x y => if x < y then y else x) (fMinMax true))
/-- The meaning of VMAX_N16 (R269). -/
def execVmaxN16 (h : Hd) (u : Unit2) (d : BitVec 6) (a : BitVec 6) (b : BitVec 6) (s0 : State) : Host.Outcome State Fault Refusal :=
  issueOne s0 (opVmaxN16 h u d a b)

/-- VMAX_N32: Element-wise unsigned 32-bit maximum (R269). -/
def opVmaxN32 (h : Hd) (u : Unit2) (d : BitVec 6) (a : BitVec 6) (b : BitVec 6) : SlotOp :=
  vEl2 h u (elLat (.n 32)) 32 d a b (elBin (.n 32) (fun x y => if x < y then y else x) (fMinMax true))
/-- The meaning of VMAX_N32 (R269). -/
def execVmaxN32 (h : Hd) (u : Unit2) (d : BitVec 6) (a : BitVec 6) (b : BitVec 6) (s0 : State) : Host.Outcome State Fault Refusal :=
  issueOne s0 (opVmaxN32 h u d a b)

/-- VMAX_F16: Element-wise FP16 maximumNumber (R269). -/
def opVmaxF16 (h : Hd) (u : Unit2) (d : BitVec 6) (a : BitVec 6) (b : BitVec 6) : SlotOp :=
  vEl2 h u (elLat (.f .f16)) 16 d a b (elBin (.f .f16) (fun x y => if x < y then y else x) (fMinMax true))
/-- The meaning of VMAX_F16 (R269). -/
def execVmaxF16 (h : Hd) (u : Unit2) (d : BitVec 6) (a : BitVec 6) (b : BitVec 6) (s0 : State) : Host.Outcome State Fault Refusal :=
  issueOne s0 (opVmaxF16 h u d a b)

/-- VMAX_B16: Element-wise BF16 maximumNumber (R269). -/
def opVmaxB16 (h : Hd) (u : Unit2) (d : BitVec 6) (a : BitVec 6) (b : BitVec 6) : SlotOp :=
  vEl2 h u (elLat (.f .b16)) 16 d a b (elBin (.f .b16) (fun x y => if x < y then y else x) (fMinMax true))
/-- The meaning of VMAX_B16 (R269). -/
def execVmaxB16 (h : Hd) (u : Unit2) (d : BitVec 6) (a : BitVec 6) (b : BitVec 6) (s0 : State) : Host.Outcome State Fault Refusal :=
  issueOne s0 (opVmaxB16 h u d a b)

/-- VMAX_F32: Element-wise FP32 maximumNumber (R269). -/
def opVmaxF32 (h : Hd) (u : Unit2) (d : BitVec 6) (a : BitVec 6) (b : BitVec 6) : SlotOp :=
  vEl2 h u (elLat (.f .f32)) 32 d a b (elBin (.f .f32) (fun x y => if x < y then y else x) (fMinMax true))
/-- The meaning of VMAX_F32 (R269). -/
def execVmaxF32 (h : Hd) (u : Unit2) (d : BitVec 6) (a : BitVec 6) (b : BitVec 6) (s0 : State) : Host.Outcome State Fault Refusal :=
  issueOne s0 (opVmaxF32 h u d a b)

/-- VSADD_I8: Saturating i8 add (R269). -/
def opVsaddI8 (h : Hd) (u : Unit2) (d : BitVec 6) (a : BitVec 6) (b : BitVec 6) : SlotOp :=
  vEl2 h u 2 8 d a b (elSat (.i 8) (fun x y => x + y))
/-- The meaning of VSADD_I8 (R269). -/
def execVsaddI8 (h : Hd) (u : Unit2) (d : BitVec 6) (a : BitVec 6) (b : BitVec 6) (s0 : State) : Host.Outcome State Fault Refusal :=
  issueOne s0 (opVsaddI8 h u d a b)

/-- VSADD_I16: Saturating i16 add (R269). -/
def opVsaddI16 (h : Hd) (u : Unit2) (d : BitVec 6) (a : BitVec 6) (b : BitVec 6) : SlotOp :=
  vEl2 h u 2 16 d a b (elSat (.i 16) (fun x y => x + y))
/-- The meaning of VSADD_I16 (R269). -/
def execVsaddI16 (h : Hd) (u : Unit2) (d : BitVec 6) (a : BitVec 6) (b : BitVec 6) (s0 : State) : Host.Outcome State Fault Refusal :=
  issueOne s0 (opVsaddI16 h u d a b)

/-- VSADD_I32: Saturating i32 add (R269). -/
def opVsaddI32 (h : Hd) (u : Unit2) (d : BitVec 6) (a : BitVec 6) (b : BitVec 6) : SlotOp :=
  vEl2 h u 2 32 d a b (elSat (.i 32) (fun x y => x + y))
/-- The meaning of VSADD_I32 (R269). -/
def execVsaddI32 (h : Hd) (u : Unit2) (d : BitVec 6) (a : BitVec 6) (b : BitVec 6) (s0 : State) : Host.Outcome State Fault Refusal :=
  issueOne s0 (opVsaddI32 h u d a b)

/-- VSADD_N8: Saturating unsigned 8-bit add (R269). -/
def opVsaddN8 (h : Hd) (u : Unit2) (d : BitVec 6) (a : BitVec 6) (b : BitVec 6) : SlotOp :=
  vEl2 h u 2 8 d a b (elSat (.n 8) (fun x y => x + y))
/-- The meaning of VSADD_N8 (R269). -/
def execVsaddN8 (h : Hd) (u : Unit2) (d : BitVec 6) (a : BitVec 6) (b : BitVec 6) (s0 : State) : Host.Outcome State Fault Refusal :=
  issueOne s0 (opVsaddN8 h u d a b)

/-- VSADD_N16: Saturating unsigned 16-bit add (R269). -/
def opVsaddN16 (h : Hd) (u : Unit2) (d : BitVec 6) (a : BitVec 6) (b : BitVec 6) : SlotOp :=
  vEl2 h u 2 16 d a b (elSat (.n 16) (fun x y => x + y))
/-- The meaning of VSADD_N16 (R269). -/
def execVsaddN16 (h : Hd) (u : Unit2) (d : BitVec 6) (a : BitVec 6) (b : BitVec 6) (s0 : State) : Host.Outcome State Fault Refusal :=
  issueOne s0 (opVsaddN16 h u d a b)

/-- VSADD_N32: Saturating unsigned 32-bit add (R269). -/
def opVsaddN32 (h : Hd) (u : Unit2) (d : BitVec 6) (a : BitVec 6) (b : BitVec 6) : SlotOp :=
  vEl2 h u 2 32 d a b (elSat (.n 32) (fun x y => x + y))
/-- The meaning of VSADD_N32 (R269). -/
def execVsaddN32 (h : Hd) (u : Unit2) (d : BitVec 6) (a : BitVec 6) (b : BitVec 6) (s0 : State) : Host.Outcome State Fault Refusal :=
  issueOne s0 (opVsaddN32 h u d a b)

/-- VSSUB_I8: Saturating i8 subtract (R269). -/
def opVssubI8 (h : Hd) (u : Unit2) (d : BitVec 6) (a : BitVec 6) (b : BitVec 6) : SlotOp :=
  vEl2 h u 2 8 d a b (elSat (.i 8) (fun x y => x - y))
/-- The meaning of VSSUB_I8 (R269). -/
def execVssubI8 (h : Hd) (u : Unit2) (d : BitVec 6) (a : BitVec 6) (b : BitVec 6) (s0 : State) : Host.Outcome State Fault Refusal :=
  issueOne s0 (opVssubI8 h u d a b)

/-- VSSUB_I16: Saturating i16 subtract (R269). -/
def opVssubI16 (h : Hd) (u : Unit2) (d : BitVec 6) (a : BitVec 6) (b : BitVec 6) : SlotOp :=
  vEl2 h u 2 16 d a b (elSat (.i 16) (fun x y => x - y))
/-- The meaning of VSSUB_I16 (R269). -/
def execVssubI16 (h : Hd) (u : Unit2) (d : BitVec 6) (a : BitVec 6) (b : BitVec 6) (s0 : State) : Host.Outcome State Fault Refusal :=
  issueOne s0 (opVssubI16 h u d a b)

/-- VSSUB_I32: Saturating i32 subtract (R269). -/
def opVssubI32 (h : Hd) (u : Unit2) (d : BitVec 6) (a : BitVec 6) (b : BitVec 6) : SlotOp :=
  vEl2 h u 2 32 d a b (elSat (.i 32) (fun x y => x - y))
/-- The meaning of VSSUB_I32 (R269). -/
def execVssubI32 (h : Hd) (u : Unit2) (d : BitVec 6) (a : BitVec 6) (b : BitVec 6) (s0 : State) : Host.Outcome State Fault Refusal :=
  issueOne s0 (opVssubI32 h u d a b)

/-- VSSUB_N8: Saturating unsigned 8-bit subtract (R269). -/
def opVssubN8 (h : Hd) (u : Unit2) (d : BitVec 6) (a : BitVec 6) (b : BitVec 6) : SlotOp :=
  vEl2 h u 2 8 d a b (elSat (.n 8) (fun x y => x - y))
/-- The meaning of VSSUB_N8 (R269). -/
def execVssubN8 (h : Hd) (u : Unit2) (d : BitVec 6) (a : BitVec 6) (b : BitVec 6) (s0 : State) : Host.Outcome State Fault Refusal :=
  issueOne s0 (opVssubN8 h u d a b)

/-- VSSUB_N16: Saturating unsigned 16-bit subtract (R269). -/
def opVssubN16 (h : Hd) (u : Unit2) (d : BitVec 6) (a : BitVec 6) (b : BitVec 6) : SlotOp :=
  vEl2 h u 2 16 d a b (elSat (.n 16) (fun x y => x - y))
/-- The meaning of VSSUB_N16 (R269). -/
def execVssubN16 (h : Hd) (u : Unit2) (d : BitVec 6) (a : BitVec 6) (b : BitVec 6) (s0 : State) : Host.Outcome State Fault Refusal :=
  issueOne s0 (opVssubN16 h u d a b)

/-- VSSUB_N32: Saturating unsigned 32-bit subtract (R269). -/
def opVssubN32 (h : Hd) (u : Unit2) (d : BitVec 6) (a : BitVec 6) (b : BitVec 6) : SlotOp :=
  vEl2 h u 2 32 d a b (elSat (.n 32) (fun x y => x - y))
/-- The meaning of VSSUB_N32 (R269). -/
def execVssubN32 (h : Hd) (u : Unit2) (d : BitVec 6) (a : BitVec 6) (b : BitVec 6) (s0 : State) : Host.Outcome State Fault Refusal :=
  issueOne s0 (opVssubN32 h u d a b)

/-- VCMP_I8: Compare i8 elements into a lane mask (R273). -/
def opVcmpI8 (h : Hd) (u : Unit2) (d : BitVec 3) (c : BitVec 3) (a : BitVec 6) (b : BitVec 6) : SlotOp :=
  vcmpOp h u (.i 8) d c a b
/-- The meaning of VCMP_I8 (R273). -/
def execVcmpI8 (h : Hd) (u : Unit2) (d : BitVec 3) (c : BitVec 3) (a : BitVec 6) (b : BitVec 6) (s0 : State) : Host.Outcome State Fault Refusal :=
  issueOne s0 (opVcmpI8 h u d c a b)

/-- VCMP_I16: Compare i16 elements into a lane mask (R273). -/
def opVcmpI16 (h : Hd) (u : Unit2) (d : BitVec 3) (c : BitVec 3) (a : BitVec 6) (b : BitVec 6) : SlotOp :=
  vcmpOp h u (.i 16) d c a b
/-- The meaning of VCMP_I16 (R273). -/
def execVcmpI16 (h : Hd) (u : Unit2) (d : BitVec 3) (c : BitVec 3) (a : BitVec 6) (b : BitVec 6) (s0 : State) : Host.Outcome State Fault Refusal :=
  issueOne s0 (opVcmpI16 h u d c a b)

/-- VCMP_I32: Compare i32 elements into a lane mask (R273). -/
def opVcmpI32 (h : Hd) (u : Unit2) (d : BitVec 3) (c : BitVec 3) (a : BitVec 6) (b : BitVec 6) : SlotOp :=
  vcmpOp h u (.i 32) d c a b
/-- The meaning of VCMP_I32 (R273). -/
def execVcmpI32 (h : Hd) (u : Unit2) (d : BitVec 3) (c : BitVec 3) (a : BitVec 6) (b : BitVec 6) (s0 : State) : Host.Outcome State Fault Refusal :=
  issueOne s0 (opVcmpI32 h u d c a b)

/-- VCMP_N8: Compare unsigned 8-bit elements into a lane mask (R273). -/
def opVcmpN8 (h : Hd) (u : Unit2) (d : BitVec 3) (c : BitVec 3) (a : BitVec 6) (b : BitVec 6) : SlotOp :=
  vcmpOp h u (.n 8) d c a b
/-- The meaning of VCMP_N8 (R273). -/
def execVcmpN8 (h : Hd) (u : Unit2) (d : BitVec 3) (c : BitVec 3) (a : BitVec 6) (b : BitVec 6) (s0 : State) : Host.Outcome State Fault Refusal :=
  issueOne s0 (opVcmpN8 h u d c a b)

/-- VCMP_N16: Compare unsigned 16-bit elements into a lane mask (R273). -/
def opVcmpN16 (h : Hd) (u : Unit2) (d : BitVec 3) (c : BitVec 3) (a : BitVec 6) (b : BitVec 6) : SlotOp :=
  vcmpOp h u (.n 16) d c a b
/-- The meaning of VCMP_N16 (R273). -/
def execVcmpN16 (h : Hd) (u : Unit2) (d : BitVec 3) (c : BitVec 3) (a : BitVec 6) (b : BitVec 6) (s0 : State) : Host.Outcome State Fault Refusal :=
  issueOne s0 (opVcmpN16 h u d c a b)

/-- VCMP_N32: Compare unsigned 32-bit elements into a lane mask (R273). -/
def opVcmpN32 (h : Hd) (u : Unit2) (d : BitVec 3) (c : BitVec 3) (a : BitVec 6) (b : BitVec 6) : SlotOp :=
  vcmpOp h u (.n 32) d c a b
/-- The meaning of VCMP_N32 (R273). -/
def execVcmpN32 (h : Hd) (u : Unit2) (d : BitVec 3) (c : BitVec 3) (a : BitVec 6) (b : BitVec 6) (s0 : State) : Host.Outcome State Fault Refusal :=
  issueOne s0 (opVcmpN32 h u d c a b)

/-- VCMP_F16: Compare FP16 elements into a lane mask (R273). -/
def opVcmpF16 (h : Hd) (u : Unit2) (d : BitVec 3) (c : BitVec 3) (a : BitVec 6) (b : BitVec 6) : SlotOp :=
  vcmpOp h u (.f .f16) d c a b
/-- The meaning of VCMP_F16 (R273). -/
def execVcmpF16 (h : Hd) (u : Unit2) (d : BitVec 3) (c : BitVec 3) (a : BitVec 6) (b : BitVec 6) (s0 : State) : Host.Outcome State Fault Refusal :=
  issueOne s0 (opVcmpF16 h u d c a b)

/-- VCMP_B16: Compare BF16 elements into a lane mask (R273). -/
def opVcmpB16 (h : Hd) (u : Unit2) (d : BitVec 3) (c : BitVec 3) (a : BitVec 6) (b : BitVec 6) : SlotOp :=
  vcmpOp h u (.f .b16) d c a b
/-- The meaning of VCMP_B16 (R273). -/
def execVcmpB16 (h : Hd) (u : Unit2) (d : BitVec 3) (c : BitVec 3) (a : BitVec 6) (b : BitVec 6) (s0 : State) : Host.Outcome State Fault Refusal :=
  issueOne s0 (opVcmpB16 h u d c a b)

/-- VCMP_F32: Compare FP32 elements into a lane mask (R273). -/
def opVcmpF32 (h : Hd) (u : Unit2) (d : BitVec 3) (c : BitVec 3) (a : BitVec 6) (b : BitVec 6) : SlotOp :=
  vcmpOp h u (.f .f32) d c a b
/-- The meaning of VCMP_F32 (R273). -/
def execVcmpF32 (h : Hd) (u : Unit2) (d : BitVec 3) (c : BitVec 3) (a : BitVec 6) (b : BitVec 6) (s0 : State) : Host.Outcome State Fault Refusal :=
  issueOne s0 (opVcmpF32 h u d c a b)

/-- VSHL_8: Shift 8-bit elements left by per-element counts (R270). -/
def opVshl8 (h : Hd) (u : Unit2) (d : BitVec 6) (a : BitVec 6) (b : BitVec 6) : SlotOp :=
  vEl2 h u 2 8 d a b (elShl 8)
/-- The meaning of VSHL_8 (R270). -/
def execVshl8 (h : Hd) (u : Unit2) (d : BitVec 6) (a : BitVec 6) (b : BitVec 6) (s0 : State) : Host.Outcome State Fault Refusal :=
  issueOne s0 (opVshl8 h u d a b)

/-- VSHL_16: Shift 16-bit elements left (R270). -/
def opVshl16 (h : Hd) (u : Unit2) (d : BitVec 6) (a : BitVec 6) (b : BitVec 6) : SlotOp :=
  vEl2 h u 2 16 d a b (elShl 16)
/-- The meaning of VSHL_16 (R270). -/
def execVshl16 (h : Hd) (u : Unit2) (d : BitVec 6) (a : BitVec 6) (b : BitVec 6) (s0 : State) : Host.Outcome State Fault Refusal :=
  issueOne s0 (opVshl16 h u d a b)

/-- VSHL_32: Shift 32-bit elements left (R270). -/
def opVshl32 (h : Hd) (u : Unit2) (d : BitVec 6) (a : BitVec 6) (b : BitVec 6) : SlotOp :=
  vEl2 h u 2 32 d a b (elShl 32)
/-- The meaning of VSHL_32 (R270). -/
def execVshl32 (h : Hd) (u : Unit2) (d : BitVec 6) (a : BitVec 6) (b : BitVec 6) (s0 : State) : Host.Outcome State Fault Refusal :=
  issueOne s0 (opVshl32 h u d a b)

/-- VSHR_8: Logical right shift of 8-bit elements (R270). -/
def opVshr8 (h : Hd) (u : Unit2) (d : BitVec 6) (a : BitVec 6) (b : BitVec 6) : SlotOp :=
  vEl2 h u 2 8 d a b (elShr 8)
/-- The meaning of VSHR_8 (R270). -/
def execVshr8 (h : Hd) (u : Unit2) (d : BitVec 6) (a : BitVec 6) (b : BitVec 6) (s0 : State) : Host.Outcome State Fault Refusal :=
  issueOne s0 (opVshr8 h u d a b)

/-- VSHR_16: Logical right shift of 16-bit elements (R270). -/
def opVshr16 (h : Hd) (u : Unit2) (d : BitVec 6) (a : BitVec 6) (b : BitVec 6) : SlotOp :=
  vEl2 h u 2 16 d a b (elShr 16)
/-- The meaning of VSHR_16 (R270). -/
def execVshr16 (h : Hd) (u : Unit2) (d : BitVec 6) (a : BitVec 6) (b : BitVec 6) (s0 : State) : Host.Outcome State Fault Refusal :=
  issueOne s0 (opVshr16 h u d a b)

/-- VSHR_32: Logical right shift of 32-bit elements (R270). -/
def opVshr32 (h : Hd) (u : Unit2) (d : BitVec 6) (a : BitVec 6) (b : BitVec 6) : SlotOp :=
  vEl2 h u 2 32 d a b (elShr 32)
/-- The meaning of VSHR_32 (R270). -/
def execVshr32 (h : Hd) (u : Unit2) (d : BitVec 6) (a : BitVec 6) (b : BitVec 6) (s0 : State) : Host.Outcome State Fault Refusal :=
  issueOne s0 (opVshr32 h u d a b)

/-- VSAR_8: Arithmetic right shift of 8-bit elements (R270). -/
def opVsar8 (h : Hd) (u : Unit2) (d : BitVec 6) (a : BitVec 6) (b : BitVec 6) : SlotOp :=
  vEl2 h u 2 8 d a b (elSar 8)
/-- The meaning of VSAR_8 (R270). -/
def execVsar8 (h : Hd) (u : Unit2) (d : BitVec 6) (a : BitVec 6) (b : BitVec 6) (s0 : State) : Host.Outcome State Fault Refusal :=
  issueOne s0 (opVsar8 h u d a b)

/-- VSAR_16: Arithmetic right shift of 16-bit elements (R270). -/
def opVsar16 (h : Hd) (u : Unit2) (d : BitVec 6) (a : BitVec 6) (b : BitVec 6) : SlotOp :=
  vEl2 h u 2 16 d a b (elSar 16)
/-- The meaning of VSAR_16 (R270). -/
def execVsar16 (h : Hd) (u : Unit2) (d : BitVec 6) (a : BitVec 6) (b : BitVec 6) (s0 : State) : Host.Outcome State Fault Refusal :=
  issueOne s0 (opVsar16 h u d a b)

/-- VSAR_32: Arithmetic right shift of 32-bit elements (R270). -/
def opVsar32 (h : Hd) (u : Unit2) (d : BitVec 6) (a : BitVec 6) (b : BitVec 6) : SlotOp :=
  vEl2 h u 2 32 d a b (elSar 32)
/-- The meaning of VSAR_32 (R270). -/
def execVsar32 (h : Hd) (u : Unit2) (d : BitVec 6) (a : BitVec 6) (b : BitVec 6) (s0 : State) : Host.Outcome State Fault Refusal :=
  issueOne s0 (opVsar32 h u d a b)

/-- VREDS: Pairwise-tree sum of all elements into lane 0 (R282). -/
def opVreds (h : Hd) (u : Unit2) (d : BitVec 6) (a : BitVec 6) (t : BitVec 4) : SlotOp :=
  vredOp h u .sum d a t
/-- The meaning of VREDS (R282). -/
def execVreds (h : Hd) (u : Unit2) (d : BitVec 6) (a : BitVec 6) (t : BitVec 4) (s0 : State) : Host.Outcome State Fault Refusal :=
  issueOne s0 (opVreds h u d a t)

/-- VREDM: Pairwise-tree maximum into lane 0 (R282). -/
def opVredm (h : Hd) (u : Unit2) (d : BitVec 6) (a : BitVec 6) (t : BitVec 4) : SlotOp :=
  vredOp h u .max d a t
/-- The meaning of VREDM (R282). -/
def execVredm (h : Hd) (u : Unit2) (d : BitVec 6) (a : BitVec 6) (t : BitVec 4) (s0 : State) : Host.Outcome State Fault Refusal :=
  issueOne s0 (opVredm h u d a t)

/-- VREDN: Pairwise-tree minimum into lane 0 (R282). -/
def opVredn (h : Hd) (u : Unit2) (d : BitVec 6) (a : BitVec 6) (t : BitVec 4) : SlotOp :=
  vredOp h u .min d a t
/-- The meaning of VREDN (R282). -/
def execVredn (h : Hd) (u : Unit2) (d : BitVec 6) (a : BitVec 6) (t : BitVec 4) (s0 : State) : Host.Outcome State Fault Refusal :=
  issueOne s0 (opVredn h u d a t)

/-- VABS: Element-wise absolute value (R269). -/
def opVabs (h : Hd) (u : Unit2) (d : BitVec 6) (a : BitVec 6) (t : BitVec 4) : SlotOp :=
  vEl1 h u 2 (fullTy t).width d a (elAbs (fullTy t)) (badAbsTy t)
/-- The meaning of VABS (R269). -/
def execVabs (h : Hd) (u : Unit2) (d : BitVec 6) (a : BitVec 6) (t : BitVec 4) (s0 : State) : Host.Outcome State Fault Refusal :=
  issueOne s0 (opVabs h u d a t)

/-- VNEG: Element-wise negation (R269). -/
def opVneg (h : Hd) (u : Unit2) (d : BitVec 6) (a : BitVec 6) (t : BitVec 4) : SlotOp :=
  vEl1 h u 2 (fullTy t).width d a (elNeg (fullTy t)) (badAbsTy t)
/-- The meaning of VNEG (R269). -/
def execVneg (h : Hd) (u : Unit2) (d : BitVec 6) (a : BitVec 6) (t : BitVec 4) (s0 : State) : Host.Outcome State Fault Refusal :=
  issueOne s0 (opVneg h u d a t)

/-- VSPLAT: Write the low bits of an s register into every element (R272). -/
def opVsplat (h : Hd) (u : Unit2) (d : BitVec 6) (a : BitVec 6) (t : BitVec 4) : SlotOp :=
  vsplatOp h u d a t
/-- The meaning of VSPLAT (R272). -/
def execVsplat (h : Hd) (u : Unit2) (d : BitVec 6) (a : BitVec 6) (t : BitVec 4) (s0 : State) : Host.Outcome State Fault Refusal :=
  issueOne s0 (opVsplat h u d a t)

/-- VSET_8: Write an immediate into every 8-bit element (R272). -/
def opVset8 (h : Hd) (u : Unit2) (d : BitVec 6) (i : BitVec 12) : SlotOp :=
  vsetOp h u 8 d i
/-- The meaning of VSET_8 (R272). -/
def execVset8 (h : Hd) (u : Unit2) (d : BitVec 6) (i : BitVec 12) (s0 : State) : Host.Outcome State Fault Refusal :=
  issueOne s0 (opVset8 h u d i)

/-- VSET_16: Write an immediate into every 16-bit element (R272). -/
def opVset16 (h : Hd) (u : Unit2) (d : BitVec 6) (i : BitVec 12) : SlotOp :=
  vsetOp h u 16 d i
/-- The meaning of VSET_16 (R272). -/
def execVset16 (h : Hd) (u : Unit2) (d : BitVec 6) (i : BitVec 12) (s0 : State) : Host.Outcome State Fault Refusal :=
  issueOne s0 (opVset16 h u d i)

/-- VSET_32: Write an immediate into every 32-bit element (R272). -/
def opVset32 (h : Hd) (u : Unit2) (d : BitVec 6) (i : BitVec 12) : SlotOp :=
  vsetOp h u 32 d i
/-- The meaning of VSET_32 (R272). -/
def execVset32 (h : Hd) (u : Unit2) (d : BitVec 6) (i : BitVec 12) (s0 : State) : Host.Outcome State Fault Refusal :=
  issueOne s0 (opVset32 h u d i)

/-- VAND: Bitwise AND of active lanes (R271). -/
def opVand (h : Hd) (u : Unit2) (d : BitVec 6) (a : BitVec 6) (b : BitVec 6) : SlotOp :=
  vBit h u d a b (fun x y => x &&& y)
/-- The meaning of VAND (R271). -/
def execVand (h : Hd) (u : Unit2) (d : BitVec 6) (a : BitVec 6) (b : BitVec 6) (s0 : State) : Host.Outcome State Fault Refusal :=
  issueOne s0 (opVand h u d a b)

/-- VOR: Bitwise OR of active lanes (R271). -/
def opVor (h : Hd) (u : Unit2) (d : BitVec 6) (a : BitVec 6) (b : BitVec 6) : SlotOp :=
  vBit h u d a b (fun x y => x ||| y)
/-- The meaning of VOR (R271). -/
def execVor (h : Hd) (u : Unit2) (d : BitVec 6) (a : BitVec 6) (b : BitVec 6) (s0 : State) : Host.Outcome State Fault Refusal :=
  issueOne s0 (opVor h u d a b)

/-- VXOR: Bitwise XOR of active lanes (R271). -/
def opVxor (h : Hd) (u : Unit2) (d : BitVec 6) (a : BitVec 6) (b : BitVec 6) : SlotOp :=
  vBit h u d a b (fun x y => x ^^^ y)
/-- The meaning of VXOR (R271). -/
def execVxor (h : Hd) (u : Unit2) (d : BitVec 6) (a : BitVec 6) (b : BitVec 6) (s0 : State) : Host.Outcome State Fault Refusal :=
  issueOne s0 (opVxor h u d a b)

/-- VSEL: Lane-wise select from a into d under mask k (R274). -/
def opVsel (h : Hd) (u : Unit2) (d : BitVec 6) (a : BitVec 6) (k : BitVec 3) : SlotOp :=
  vselOp h u d a k
/-- The meaning of VSEL (R274). -/
def execVsel (h : Hd) (u : Unit2) (d : BitVec 6) (a : BitVec 6) (k : BitVec 3) (s0 : State) : Host.Outcome State Fault Refusal :=
  issueOne s0 (opVsel h u d a k)

/-- VPERM: Byte permute of a by indices in b (R283). -/
def opVperm (h : Hd) (u : Unit2) (d : BitVec 6) (a : BitVec 6) (b : BitVec 6) : SlotOp :=
  vpermOp h u d a b
/-- The meaning of VPERM (R283). -/
def execVperm (h : Hd) (u : Unit2) (d : BitVec 6) (a : BitVec 6) (b : BitVec 6) (s0 : State) : Host.Outcome State Fault Refusal :=
  issueOne s0 (opVperm h u d a b)

/-- VROT: Rotate lanes of a by imm6 (R283). -/
def opVrot (h : Hd) (u : Unit2) (d : BitVec 6) (a : BitVec 6) (i : BitVec 6) : SlotOp :=
  vrotOp h u d a i
/-- The meaning of VROT (R283). -/
def execVrot (h : Hd) (u : Unit2) (d : BitVec 6) (a : BitVec 6) (i : BitVec 6) (s0 : State) : Host.Outcome State Fault Refusal :=
  issueOne s0 (opVrot h u d a i)

/-- XFER: Copy a register from the other vector file (R284). -/
def opXfer (h : Hd) (u : Unit2) (d : BitVec 6) (a : BitVec 6) : SlotOp :=
  xferOp h u d a
/-- The meaning of XFER (R284). -/
def execXfer (h : Hd) (u : Unit2) (d : BitVec 6) (a : BitVec 6) (s0 : State) : Host.Outcome State Fault Refusal :=
  issueOne s0 (opXfer h u d a)

/-- VTEST: Test lanes for any, none and all set, delivering predicates and VCOUNT at t + 2 (R276). -/
def opVtest (h : Hd) (u : Unit2) (p : BitVec 4) (e : BitVec 4) (a : BitVec 6) : SlotOp :=
  vtestOp h u p e a
/-- The meaning of VTEST (R276). -/
def execVtest (h : Hd) (u : Unit2) (p : BitVec 4) (e : BitVec 4) (a : BitVec 6) (s0 : State) : Host.Outcome State Fault Refusal :=
  issueOne s0 (opVtest h u p e a)

/-- VFRAME: Move the slot's frame base by a signed step of 64 registers (R285). -/
def opVframe (h : Hd) (u : Unit2) (s : BitVec 7) : SlotOp :=
  vframeOp h u s
/-- The meaning of VFRAME (R285). -/
def execVframe (h : Hd) (u : Unit2) (s : BitVec 7) (s0 : State) : Host.Outcome State Fault Refusal :=
  issueOne s0 (opVframe h u s)

/-- KOP_AND: kd := ka AND kb (R275). -/
def opKopAnd (h : Hd) (u : Unit2) (d : BitVec 3) (a : BitVec 3) (b : BitVec 3) : SlotOp :=
  kopOp h u d [a, b] (fun l => l.getD 0 0 &&& l.getD 1 0)
/-- The meaning of KOP_AND (R275). -/
def execKopAnd (h : Hd) (u : Unit2) (d : BitVec 3) (a : BitVec 3) (b : BitVec 3) (s0 : State) : Host.Outcome State Fault Refusal :=
  issueOne s0 (opKopAnd h u d a b)

/-- KOP_OR: kd := ka OR kb (R275). -/
def opKopOr (h : Hd) (u : Unit2) (d : BitVec 3) (a : BitVec 3) (b : BitVec 3) : SlotOp :=
  kopOp h u d [a, b] (fun l => l.getD 0 0 ||| l.getD 1 0)
/-- The meaning of KOP_OR (R275). -/
def execKopOr (h : Hd) (u : Unit2) (d : BitVec 3) (a : BitVec 3) (b : BitVec 3) (s0 : State) : Host.Outcome State Fault Refusal :=
  issueOne s0 (opKopOr h u d a b)

/-- KOP_XOR: kd := ka XOR kb (R275). -/
def opKopXor (h : Hd) (u : Unit2) (d : BitVec 3) (a : BitVec 3) (b : BitVec 3) : SlotOp :=
  kopOp h u d [a, b] (fun l => l.getD 0 0 ^^^ l.getD 1 0)
/-- The meaning of KOP_XOR (R275). -/
def execKopXor (h : Hd) (u : Unit2) (d : BitVec 3) (a : BitVec 3) (b : BitVec 3) (s0 : State) : Host.Outcome State Fault Refusal :=
  issueOne s0 (opKopXor h u d a b)

/-- KOP_ANDN: kd := ka AND NOT kb (R275). -/
def opKopAndn (h : Hd) (u : Unit2) (d : BitVec 3) (a : BitVec 3) (b : BitVec 3) : SlotOp :=
  kopOp h u d [a, b] (fun l => l.getD 0 0 &&& ~~~(l.getD 1 0))
/-- The meaning of KOP_ANDN (R275). -/
def execKopAndn (h : Hd) (u : Unit2) (d : BitVec 3) (a : BitVec 3) (b : BitVec 3) (s0 : State) : Host.Outcome State Fault Refusal :=
  issueOne s0 (opKopAndn h u d a b)

/-- KOP_NOT: kd := NOT ka (R275). -/
def opKopNot (h : Hd) (u : Unit2) (d : BitVec 3) (a : BitVec 3) : SlotOp :=
  kopOp h u d [a] (fun l => ~~~(l.getD 0 0))
/-- The meaning of KOP_NOT (R275). -/
def execKopNot (h : Hd) (u : Unit2) (d : BitVec 3) (a : BitVec 3) (s0 : State) : Host.Outcome State Fault Refusal :=
  issueOne s0 (opKopNot h u d a)

/-- KOP_MOV: kd := ka (R275). -/
def opKopMov (h : Hd) (u : Unit2) (d : BitVec 3) (a : BitVec 3) : SlotOp :=
  kopOp h u d [a] (fun l => l.getD 0 0)
/-- The meaning of KOP_MOV (R275). -/
def execKopMov (h : Hd) (u : Unit2) (d : BitVec 3) (a : BitVec 3) (s0 : State) : Host.Outcome State Fault Refusal :=
  issueOne s0 (opKopMov h u d a)

/-- VEXP2: Correctly rounded 2^x of FP32 elements (R281). -/
def opVexp2 (h : Hd) (u : Unit2) (d : BitVec 6) (a : BitVec 6) : SlotOp :=
  vEl1 h u 8 32 d a fExp2
/-- The meaning of VEXP2 (R281). -/
def execVexp2 (h : Hd) (u : Unit2) (d : BitVec 6) (a : BitVec 6) (s0 : State) : Host.Outcome State Fault Refusal :=
  issueOne s0 (opVexp2 h u d a)

/-- VLOG2: Correctly rounded log2 x of FP32 elements (R281). -/
def opVlog2 (h : Hd) (u : Unit2) (d : BitVec 6) (a : BitVec 6) : SlotOp :=
  vEl1 h u 8 32 d a fLog2
/-- The meaning of VLOG2 (R281). -/
def execVlog2 (h : Hd) (u : Unit2) (d : BitVec 6) (a : BitVec 6) (s0 : State) : Host.Outcome State Fault Refusal :=
  issueOne s0 (opVlog2 h u d a)

/-- VRCP: Correctly rounded 1/x of FP32 elements (R281). -/
def opVrcp (h : Hd) (u : Unit2) (d : BitVec 6) (a : BitVec 6) : SlotOp :=
  vEl1 h u 8 32 d a fRcp
/-- The meaning of VRCP (R281). -/
def execVrcp (h : Hd) (u : Unit2) (d : BitVec 6) (a : BitVec 6) (s0 : State) : Host.Outcome State Fault Refusal :=
  issueOne s0 (opVrcp h u d a)

/-- VRSQ: Correctly rounded 1/√x of FP32 elements (R281). -/
def opVrsq (h : Hd) (u : Unit2) (d : BitVec 6) (a : BitVec 6) : SlotOp :=
  vEl1 h u 8 32 d a fRsq
/-- The meaning of VRSQ (R281). -/
def execVrsq (h : Hd) (u : Unit2) (d : BitVec 6) (a : BitVec 6) (s0 : State) : Host.Outcome State Fault Refusal :=
  issueOne s0 (opVrsq h u d a)

/-- VSCL_F16: Scale FP16 elements by powers of two from b (R278). -/
def opVsclF16 (h : Hd) (u : Unit2) (d : BitVec 6) (a : BitVec 6) (b : BitVec 6) : SlotOp :=
  vEl2 h u 4 16 d a b (elScl .f16)
/-- The meaning of VSCL_F16 (R278). -/
def execVsclF16 (h : Hd) (u : Unit2) (d : BitVec 6) (a : BitVec 6) (b : BitVec 6) (s0 : State) : Host.Outcome State Fault Refusal :=
  issueOne s0 (opVsclF16 h u d a b)

/-- VSCL_B16: Scale BF16 elements by powers of two (R278). -/
def opVsclB16 (h : Hd) (u : Unit2) (d : BitVec 6) (a : BitVec 6) (b : BitVec 6) : SlotOp :=
  vEl2 h u 4 16 d a b (elScl .b16)
/-- The meaning of VSCL_B16 (R278). -/
def execVsclB16 (h : Hd) (u : Unit2) (d : BitVec 6) (a : BitVec 6) (b : BitVec 6) (s0 : State) : Host.Outcome State Fault Refusal :=
  issueOne s0 (opVsclB16 h u d a b)

/-- VSCL_F32: Scale FP32 elements by powers of two (R278). -/
def opVsclF32 (h : Hd) (u : Unit2) (d : BitVec 6) (a : BitVec 6) (b : BitVec 6) : SlotOp :=
  vEl2 h u 4 32 d a b (elScl .f32)
/-- The meaning of VSCL_F32 (R278). -/
def execVsclF32 (h : Hd) (u : Unit2) (d : BitVec 6) (a : BitVec 6) (b : BitVec 6) (s0 : State) : Host.Outcome State Fault Refusal :=
  issueOne s0 (opVsclF32 h u d a b)

/-- VCVT_RN: Convert elements between classes, round to nearest (R277). -/
def opVcvtRn (h : Hd) (u : Unit2) (d : BitVec 6) (a : BitVec 6) (dc : BitVec 3) (sc : BitVec 3) : SlotOp :=
  vcvtOp h u 0 d a dc sc
/-- The meaning of VCVT_RN (R277). -/
def execVcvtRn (h : Hd) (u : Unit2) (d : BitVec 6) (a : BitVec 6) (dc : BitVec 3) (sc : BitVec 3) (s0 : State) : Host.Outcome State Fault Refusal :=
  issueOne s0 (opVcvtRn h u d a dc sc)

/-- VCVT_RZ: Convert elements between classes, round toward zero (R277). -/
def opVcvtRz (h : Hd) (u : Unit2) (d : BitVec 6) (a : BitVec 6) (dc : BitVec 3) (sc : BitVec 3) : SlotOp :=
  vcvtOp h u 1 d a dc sc
/-- The meaning of VCVT_RZ (R277). -/
def execVcvtRz (h : Hd) (u : Unit2) (d : BitVec 6) (a : BitVec 6) (dc : BitVec 3) (sc : BitVec 3) (s0 : State) : Host.Outcome State Fault Refusal :=
  issueOne s0 (opVcvtRz h u d a dc sc)

/-- VCVT_RU: Convert elements between classes, round up (R277). -/
def opVcvtRu (h : Hd) (u : Unit2) (d : BitVec 6) (a : BitVec 6) (dc : BitVec 3) (sc : BitVec 3) : SlotOp :=
  vcvtOp h u 2 d a dc sc
/-- The meaning of VCVT_RU (R277). -/
def execVcvtRu (h : Hd) (u : Unit2) (d : BitVec 6) (a : BitVec 6) (dc : BitVec 3) (sc : BitVec 3) (s0 : State) : Host.Outcome State Fault Refusal :=
  issueOne s0 (opVcvtRu h u d a dc sc)

/-- VCVT_RD: Convert elements between classes, round down (R277). -/
def opVcvtRd (h : Hd) (u : Unit2) (d : BitVec 6) (a : BitVec 6) (dc : BitVec 3) (sc : BitVec 3) : SlotOp :=
  vcvtOp h u 3 d a dc sc
/-- The meaning of VCVT_RD (R277). -/
def execVcvtRd (h : Hd) (u : Unit2) (d : BitVec 6) (a : BitVec 6) (dc : BitVec 3) (sc : BitVec 3) (s0 : State) : Host.Outcome State Fault Refusal :=
  issueOne s0 (opVcvtRd h u d a dc sc)

/-- VQMX_RN: Quantise 128 FP32 values into MXINT8 layout, round to nearest (R279). -/
def opVqmxRn (h : Hd) (u : Unit2) (d : BitVec 6) (a : BitVec 6) (b : BitVec 6) : SlotOp :=
  vqmxOp h u 0 d a b
/-- The meaning of VQMX_RN (R279). -/
def execVqmxRn (h : Hd) (u : Unit2) (d : BitVec 6) (a : BitVec 6) (b : BitVec 6) (s0 : State) : Host.Outcome State Fault Refusal :=
  issueOne s0 (opVqmxRn h u d a b)

/-- VQMX_RZ: Quantise to MXINT8, round toward zero (R279). -/
def opVqmxRz (h : Hd) (u : Unit2) (d : BitVec 6) (a : BitVec 6) (b : BitVec 6) : SlotOp :=
  vqmxOp h u 1 d a b
/-- The meaning of VQMX_RZ (R279). -/
def execVqmxRz (h : Hd) (u : Unit2) (d : BitVec 6) (a : BitVec 6) (b : BitVec 6) (s0 : State) : Host.Outcome State Fault Refusal :=
  issueOne s0 (opVqmxRz h u d a b)

/-- VQMX_RU: Quantise to MXINT8, round up (R279). -/
def opVqmxRu (h : Hd) (u : Unit2) (d : BitVec 6) (a : BitVec 6) (b : BitVec 6) : SlotOp :=
  vqmxOp h u 2 d a b
/-- The meaning of VQMX_RU (R279). -/
def execVqmxRu (h : Hd) (u : Unit2) (d : BitVec 6) (a : BitVec 6) (b : BitVec 6) (s0 : State) : Host.Outcome State Fault Refusal :=
  issueOne s0 (opVqmxRu h u d a b)

/-- VQMX_RD: Quantise to MXINT8, round down (R279). -/
def opVqmxRd (h : Hd) (u : Unit2) (d : BitVec 6) (a : BitVec 6) (b : BitVec 6) : SlotOp :=
  vqmxOp h u 3 d a b
/-- The meaning of VQMX_RD (R279). -/
def execVqmxRd (h : Hd) (u : Unit2) (d : BitVec 6) (a : BitVec 6) (b : BitVec 6) (s0 : State) : Host.Outcome State Fault Refusal :=
  issueOne s0 (opVqmxRd h u d a b)

/-- VDQ: Decode two Q4 blocks into 128 FP16 elements (R280). -/
def opVdq (h : Hd) (u : Unit2) (d : BitVec 6) (a : BitVec 6) (b : BitVec 6) : SlotOp :=
  vdqOp h u d a b
/-- The meaning of VDQ (R280). -/
def execVdq (h : Hd) (u : Unit2) (d : BitVec 6) (a : BitVec 6) (b : BitVec 6) (s0 : State) : Host.Outcome State Fault Refusal :=
  issueOne s0 (opVdq h u d a b)

end Sys2Proof.Machine
end

