-- ==== Sys2Proof/Machine/Slots.lean ====
section
/-! DEFINITION. From the words of a bundle to what its slots do (R215, R216, R220 to R225). `slotOpAt` reads a word as
Decode.decodeAt does; Laws.Slots proves that the two agree. -/

namespace Sys2Proof.Machine

/-- What an instruction does in a slot; none for NOP, a task or an event. -/
def slotOp (i : Instr) : Option SlotOp :=
  match i with
  | .nop => none
  | .add h d a b => some (opAdd h d a b)
  | .sub h d a b => some (opSub h d a b)
  | .and h d a b => some (opAnd h d a b)
  | .or h d a b => some (opOr h d a b)
  | .xor h d a b => some (opXor h d a b)
  | .andn h d a b => some (opAndn h d a b)
  | .shl h d a b => some (opShl h d a b)
  | .shr h d a b => some (opShr h d a b)
  | .sar h d a b => some (opSar h d a b)
  | .mul h d a b => some (opMul h d a b)
  | .mulh h d a b => some (opMulh h d a b)
  | .mulhn h d a b => some (opMulhn h d a b)
  | .div h d a b => some (opDiv h d a b)
  | .divn h d a b => some (opDivn h d a b)
  | .rem h d a b => some (opRem h d a b)
  | .remn h d a b => some (opRemn h d a b)
  | .min h d a b => some (opMin h d a b)
  | .max h d a b => some (opMax h d a b)
  | .minn h d a b => some (opMinn h d a b)
  | .maxn h d a b => some (opMaxn h d a b)
  | .addImm h d a i => some (opAddImm h d a i)
  | .andImm h d a i => some (opAndImm h d a i)
  | .orImm h d a i => some (opOrImm h d a i)
  | .xorImm h d a i => some (opXorImm h d a i)
  | .shlImm h d a i => some (opShlImm h d a i)
  | .shrImm h d a i => some (opShrImm h d a i)
  | .sarImm h d a i => some (opSarImm h d a i)
  | .setw0 h d i => some (opSetw0 h d i)
  | .setw1 h d i => some (opSetw1 h d i)
  | .setw2 h d i => some (opSetw2 h d i)
  | .setw3 h d i => some (opSetw3 h d i)
  | .setw4 h d i => some (opSetw4 h d i)
  | .setw5 h d i => some (opSetw5 h d i)
  | .sext h d a z => some (opSext h d a z)
  | .clz h d a => some (opClz h d a)
  | .popc h d a => some (opPopc h d a)
  | .cmpEq h p m a b => some (opCmpEq h p m a b)
  | .cmpNe h p m a b => some (opCmpNe h p m a b)
  | .cmpLt h p m a b => some (opCmpLt h p m a b)
  | .cmpLe h p m a b => some (opCmpLe h p m a b)
  | .cmpLtn h p m a b => some (opCmpLtn h p m a b)
  | .cmpLen h p m a b => some (opCmpLen h p m a b)
  | .cmpEqImm h p m a i => some (opCmpEqImm h p m a i)
  | .cmpNeImm h p m a i => some (opCmpNeImm h p m a i)
  | .cmpLtImm h p m a i => some (opCmpLtImm h p m a i)
  | .cmpLeImm h p m a i => some (opCmpLeImm h p m a i)
  | .cmpLtnImm h p m a i => some (opCmpLtnImm h p m a i)
  | .cmpLenImm h p m a i => some (opCmpLenImm h p m a i)
  | .faddF32 h d a b => some (opFaddF32 h d a b)
  | .faddF16 h d a b => some (opFaddF16 h d a b)
  | .faddB16 h d a b => some (opFaddB16 h d a b)
  | .fsubF32 h d a b => some (opFsubF32 h d a b)
  | .fsubF16 h d a b => some (opFsubF16 h d a b)
  | .fsubB16 h d a b => some (opFsubB16 h d a b)
  | .fmulF32 h d a b => some (opFmulF32 h d a b)
  | .fmulF16 h d a b => some (opFmulF16 h d a b)
  | .fmulB16 h d a b => some (opFmulB16 h d a b)
  | .ffmaF32 h d a b => some (opFfmaF32 h d a b)
  | .ffmaF16 h d a b => some (opFfmaF16 h d a b)
  | .ffmaB16 h d a b => some (opFfmaB16 h d a b)
  | .fminF32 h d a b => some (opFminF32 h d a b)
  | .fminF16 h d a b => some (opFminF16 h d a b)
  | .fminB16 h d a b => some (opFminB16 h d a b)
  | .fmaxF32 h d a b => some (opFmaxF32 h d a b)
  | .fmaxF16 h d a b => some (opFmaxF16 h d a b)
  | .fmaxB16 h d a b => some (opFmaxB16 h d a b)
  | .fcmpEqF32 h p m a b => some (opFcmpEqF32 h p m a b)
  | .fcmpEqF16 h p m a b => some (opFcmpEqF16 h p m a b)
  | .fcmpEqB16 h p m a b => some (opFcmpEqB16 h p m a b)
  | .fcmpLtF32 h p m a b => some (opFcmpLtF32 h p m a b)
  | .fcmpLtF16 h p m a b => some (opFcmpLtF16 h p m a b)
  | .fcmpLtB16 h p m a b => some (opFcmpLtB16 h p m a b)
  | .fcmpLeF32 h p m a b => some (opFcmpLeF32 h p m a b)
  | .fcmpLeF16 h p m a b => some (opFcmpLeF16 h p m a b)
  | .fcmpLeB16 h p m a b => some (opFcmpLeB16 h p m a b)
  | .fcvt h d a r x y => some (opFcvt h d a r x y)
  | .itof h d a r u y => some (opItof h d a r u y)
  | .ftoi h d a r x z => some (opFtoi h d a r x z)
  | .ftoiN h d a r x z => some (opFtoiN h d a r x z)
  | .pand h p a b => some (opPand h p a b)
  | .por h p a b => some (opPor h p a b)
  | .pxor h p a b => some (opPxor h p a b)
  | .pandn h p a b => some (opPandn h p a b)
  | .pmov h p a => some (opPmov h p a)
  | .sel h d a b => some (opSel h d a b)
  | .mova h d f r => some (opMova h d f r)
  | .mfs h d i => some (opMfs h d i)
  | .mts h s i => some (opMts h s i)
  | .vaddI8 h u d a b => some (opVaddI8 h u d a b)
  | .vaddI16 h u d a b => some (opVaddI16 h u d a b)
  | .vaddI32 h u d a b => some (opVaddI32 h u d a b)
  | .vaddF16 h u d a b => some (opVaddF16 h u d a b)
  | .vaddB16 h u d a b => some (opVaddB16 h u d a b)
  | .vaddF32 h u d a b => some (opVaddF32 h u d a b)
  | .vsubI8 h u d a b => some (opVsubI8 h u d a b)
  | .vsubI16 h u d a b => some (opVsubI16 h u d a b)
  | .vsubI32 h u d a b => some (opVsubI32 h u d a b)
  | .vsubF16 h u d a b => some (opVsubF16 h u d a b)
  | .vsubB16 h u d a b => some (opVsubB16 h u d a b)
  | .vsubF32 h u d a b => some (opVsubF32 h u d a b)
  | .vmulI8 h u d a b => some (opVmulI8 h u d a b)
  | .vmulI16 h u d a b => some (opVmulI16 h u d a b)
  | .vmulI32 h u d a b => some (opVmulI32 h u d a b)
  | .vmulF16 h u d a b => some (opVmulF16 h u d a b)
  | .vmulB16 h u d a b => some (opVmulB16 h u d a b)
  | .vmulF32 h u d a b => some (opVmulF32 h u d a b)
  | .vfmaI8 h u d a b => some (opVfmaI8 h u d a b)
  | .vfmaI16 h u d a b => some (opVfmaI16 h u d a b)
  | .vfmaI32 h u d a b => some (opVfmaI32 h u d a b)
  | .vfmaF16 h u d a b => some (opVfmaF16 h u d a b)
  | .vfmaB16 h u d a b => some (opVfmaB16 h u d a b)
  | .vfmaF32 h u d a b => some (opVfmaF32 h u d a b)
  | .vminI8 h u d a b => some (opVminI8 h u d a b)
  | .vminI16 h u d a b => some (opVminI16 h u d a b)
  | .vminI32 h u d a b => some (opVminI32 h u d a b)
  | .vminN8 h u d a b => some (opVminN8 h u d a b)
  | .vminN16 h u d a b => some (opVminN16 h u d a b)
  | .vminN32 h u d a b => some (opVminN32 h u d a b)
  | .vminF16 h u d a b => some (opVminF16 h u d a b)
  | .vminB16 h u d a b => some (opVminB16 h u d a b)
  | .vminF32 h u d a b => some (opVminF32 h u d a b)
  | .vmaxI8 h u d a b => some (opVmaxI8 h u d a b)
  | .vmaxI16 h u d a b => some (opVmaxI16 h u d a b)
  | .vmaxI32 h u d a b => some (opVmaxI32 h u d a b)
  | .vmaxN8 h u d a b => some (opVmaxN8 h u d a b)
  | .vmaxN16 h u d a b => some (opVmaxN16 h u d a b)
  | .vmaxN32 h u d a b => some (opVmaxN32 h u d a b)
  | .vmaxF16 h u d a b => some (opVmaxF16 h u d a b)
  | .vmaxB16 h u d a b => some (opVmaxB16 h u d a b)
  | .vmaxF32 h u d a b => some (opVmaxF32 h u d a b)
  | .vsaddI8 h u d a b => some (opVsaddI8 h u d a b)
  | .vsaddI16 h u d a b => some (opVsaddI16 h u d a b)
  | .vsaddI32 h u d a b => some (opVsaddI32 h u d a b)
  | .vsaddN8 h u d a b => some (opVsaddN8 h u d a b)
  | .vsaddN16 h u d a b => some (opVsaddN16 h u d a b)
  | .vsaddN32 h u d a b => some (opVsaddN32 h u d a b)
  | .vssubI8 h u d a b => some (opVssubI8 h u d a b)
  | .vssubI16 h u d a b => some (opVssubI16 h u d a b)
  | .vssubI32 h u d a b => some (opVssubI32 h u d a b)
  | .vssubN8 h u d a b => some (opVssubN8 h u d a b)
  | .vssubN16 h u d a b => some (opVssubN16 h u d a b)
  | .vssubN32 h u d a b => some (opVssubN32 h u d a b)
  | .vcmpI8 h u d c a b => some (opVcmpI8 h u d c a b)
  | .vcmpI16 h u d c a b => some (opVcmpI16 h u d c a b)
  | .vcmpI32 h u d c a b => some (opVcmpI32 h u d c a b)
  | .vcmpN8 h u d c a b => some (opVcmpN8 h u d c a b)
  | .vcmpN16 h u d c a b => some (opVcmpN16 h u d c a b)
  | .vcmpN32 h u d c a b => some (opVcmpN32 h u d c a b)
  | .vcmpF16 h u d c a b => some (opVcmpF16 h u d c a b)
  | .vcmpB16 h u d c a b => some (opVcmpB16 h u d c a b)
  | .vcmpF32 h u d c a b => some (opVcmpF32 h u d c a b)
  | .vshl8 h u d a b => some (opVshl8 h u d a b)
  | .vshl16 h u d a b => some (opVshl16 h u d a b)
  | .vshl32 h u d a b => some (opVshl32 h u d a b)
  | .vshr8 h u d a b => some (opVshr8 h u d a b)
  | .vshr16 h u d a b => some (opVshr16 h u d a b)
  | .vshr32 h u d a b => some (opVshr32 h u d a b)
  | .vsar8 h u d a b => some (opVsar8 h u d a b)
  | .vsar16 h u d a b => some (opVsar16 h u d a b)
  | .vsar32 h u d a b => some (opVsar32 h u d a b)
  | .vreds h u d a t => some (opVreds h u d a t)
  | .vredm h u d a t => some (opVredm h u d a t)
  | .vredn h u d a t => some (opVredn h u d a t)
  | .vabs h u d a t => some (opVabs h u d a t)
  | .vneg h u d a t => some (opVneg h u d a t)
  | .vsplat h u d a t => some (opVsplat h u d a t)
  | .vset8 h u d i => some (opVset8 h u d i)
  | .vset16 h u d i => some (opVset16 h u d i)
  | .vset32 h u d i => some (opVset32 h u d i)
  | .vand h u d a b => some (opVand h u d a b)
  | .vor h u d a b => some (opVor h u d a b)
  | .vxor h u d a b => some (opVxor h u d a b)
  | .vsel h u d a k => some (opVsel h u d a k)
  | .vperm h u d a b => some (opVperm h u d a b)
  | .vrot h u d a i => some (opVrot h u d a i)
  | .xfer h u d a => some (opXfer h u d a)
  | .vtest h u p e a => some (opVtest h u p e a)
  | .vframe h u s => some (opVframe h u s)
  | .kopAnd h u d a b => some (opKopAnd h u d a b)
  | .kopOr h u d a b => some (opKopOr h u d a b)
  | .kopXor h u d a b => some (opKopXor h u d a b)
  | .kopAndn h u d a b => some (opKopAndn h u d a b)
  | .kopNot h u d a => some (opKopNot h u d a)
  | .kopMov h u d a => some (opKopMov h u d a)
  | .vexp2 h u d a => some (opVexp2 h u d a)
  | .vlog2 h u d a => some (opVlog2 h u d a)
  | .vrcp h u d a => some (opVrcp h u d a)
  | .vrsq h u d a => some (opVrsq h u d a)
  | .vsclF16 h u d a b => some (opVsclF16 h u d a b)
  | .vsclB16 h u d a b => some (opVsclB16 h u d a b)
  | .vsclF32 h u d a b => some (opVsclF32 h u d a b)
  | .vcvtRn h u d a dc sc => some (opVcvtRn h u d a dc sc)
  | .vcvtRz h u d a dc sc => some (opVcvtRz h u d a dc sc)
  | .vcvtRu h u d a dc sc => some (opVcvtRu h u d a dc sc)
  | .vcvtRd h u d a dc sc => some (opVcvtRd h u d a dc sc)
  | .vqmxRn h u d a b => some (opVqmxRn h u d a b)
  | .vqmxRz h u d a b => some (opVqmxRz h u d a b)
  | .vqmxRu h u d a b => some (opVqmxRu h u d a b)
  | .vqmxRd h u d a b => some (opVqmxRd h u d a b)
  | .vdq h u d a b => some (opVdq h u d a b)
  | .ldvX h u d b r i => some (opLdvX h u d b r i)
  | .ldvY h u d b r i => some (opLdvY h u d b r i)
  | .stvX h u d b r i => some (opStvX h u d b r i)
  | .stvY h u d b r i => some (opStvY h u d b r i)
  | .lds h u d b r i => some (opLds h u d b r i)
  | .sts h u d b r i => some (opSts h u d b r i)
  | .copy h u c t hint q => some (opCopy h u c t hint q)
  | .copyo h u c t hint q => some (opCopyo h u c t hint q)
  | .copyn h u c t hint q => some (opCopyn h u c t hint q)
  | .wfill h u c t hint q => some (opWfill h u c t hint q)
  | .trel h u t => some (opTrel h u t)
  | .tstat h u p t => some (opTstat h u p t)
  | .gld h u d hint q z => some (opGld h u d hint q z)
  | .gst h u d hint q z => some (opGst h u d hint q z)
  | .aadd h u d e hint q z => some (opAadd h u d e hint q z)
  | .aswap h u d e hint q z => some (opAswap h u d e hint q z)
  | .acas h u d e hint q z => some (opAcas h u d e hint q z)
  | .amin h u d e hint q z => some (opAmin h u d e hint q z)
  | .amax h u d e hint q z => some (opAmax h u d e hint q z)
  | .aand h u d e hint q z => some (opAand h u d e hint q z)
  | .aor h u d e hint q z => some (opAor h u d e hint q z)
  | .aset h u d s => some (opAset h u d s)
  | .aaddi h u d i => some (opAaddi h u d i)
  | .astr h u d i => some (opAstr h u d i)
  | .cfence h u s => some (opCfence h u s)
  | .pref h u hint q => some (opPref h u hint q)
  | .mcfg h a b o => some (opMcfg h a b o)
  | .mpush h c u => some (opMpush h c u)
  | .mswap h => some (opMswap h)
  | .mshift h v f o t r => some (opMshift h v f o t r)
  | .mdrainF32 h d f t r => some (opMdrainF32 h d f t r)
  | .mdrainF16 h d f t r => some (opMdrainF16 h d f t r)
  | .mdrainB16 h d f t r => some (opMdrainB16 h d f t r)
  | .mclr h t => some (opMclr h t)
  | .mflush h => some (opMflush h)
  | .br h o => some (opBr h o)
  | .brx h s => some (opBrx h s)
  | .call h o => some (opCall h o)
  | .callx h s => some (opCallx h s)
  | .ret h => some (opRet h)
  | .loop h l c => some (opLoop h l c)
  | .loopReg h l s => some (opLoopReg h l s)
  | .stage h e => some (opStage h e)
  | .seg h s => some (opSeg h s)
  | .rdv h => some (opRdv h)
  | .waitc h c l => some (opWaitc h c l)
  | .yield h => some (opYield h)
  | .halt h => some (opHalt h)
  | .sys h i => some (opSys h i)
  | .fbreg h o => some (opFbreg h o)
  | .bkpt h i => some (opBkpt h i)
  | .vgateOn h f m => some (opVgateOn h f m)
  | .vgateRet h f m => some (opVgateRet h f m)
  | .vgateOff h f m => some (opVgateOff h f m)
  | .xmvm h a d s c o => some (opXmvm h a d s c o)
  | .xpush h v f c => some (opXpush h v f c)
  | .xpop h v f => some (opXpop h v f)
  | .xprog h a f v k => some (opXprog h a f v k)
  | .xver h a f v => some (opXver h a f v)
  | .xremap h a k => some (opXremap h a k)
  | .xremapClr h a => some (opXremapClr h a)
  | .xmon h a => some (opXmon h a)
  | .xcalOff h a f v j => some (opXcalOff h a f v j)
  | .xcalGain h a f v j => some (opXcalGain h a f v j)
  | .xcalMon h a => some (opXcalMon h a)
  | .xgate h => some (opXgate h)
  | .xwake h => some (opXwake h)
  | .xstat h d a => some (opXstat h d a)
  | .xldcCode h a f v => some (opXldcCode h a f v)
  | .xldcVer h a f v => some (opXldcVer h a f v)
  | .kern _ _ => none
  | .gang _ _ => none
  | .tcopy _ _ => none
  | .tfill _ _ => none
  | .tdef _ _ => none
  | .tbind _ _ => none
  | .tdrop _ _ => none
  | .tsig _ _ => none
  | .twait _ _ => none
  | .tfence _ _ => none
  | .tset _ _ => none
  | .tadd _ _ => none
  | .tldq _ _ => none
  | .tloop _ _ => none
  | .tjmp _ _ => none
  | .tbrz _ _ => none
  | .tmark _ _ => none
  | .tpri _ _ => none
  | .thalt _ _ => none
  | .powerOn => none
  | .warmReset _ => none
  | .selfTestComplete => none
  | .bootGo _ => none
  | .bootVerifyComplete => none
  | .cmapnWrite _ _ _ => none
  | .controlRegisterWrite _ _ _ => none
  | .hostDeviceAccess _ _ _ => none
  | .hostInterrupt _ _ => none
  | .inboundRequest _ _ => none
  | .diagdataRead _ _ => none
  | .diagdataWrite _ _ _ => none
  | .cecntClear _ _ _ => none
  | .gctlFormatWrite _ _ _ _ => none
  | .retireDataBank _ _ _ _ => none
  | .retireParityBank _ _ _ => none
  | .retirementEffect _ _ => none
  | .rebuild _ _ _ => none
  | .rebuildRowStep _ _ => none
  | .groupDisable _ _ _ => none
  | .parityDrain _ _ => none
  | .bundleDecode _ => none
  | .heldBundleIssue _ => none
  | .contextReady _ _ => none
  | .issueLimitExpiry _ => none
  | .bundleChunkArrival _ _ => none
  | .registerResultLanding _ _ _ => none
  | .domainWakeComplete _ _ => none
  | .beatLanding _ => none
  | .copyAcceptance _ => none
  | .descriptorFetchReturn _ => none
  | .chunkTranslate _ => none
  | .holdAcquisition _ => none
  | .holdIdleExpiry _ => none
  | .parkRetry _ => none
  | .watchTrap _ _ => none
  | .peerChunkCompletion _ _ => none
  | .peerCompletionTimeout _ _ => none
  | .peerFlushComplete _ _ => none
  | .chunkComplete _ _ => none
  | .copyRowWrite _ _ => none
  | .copyRowRead _ _ => none
  | .coherentAccessComplete _ => none
  | .writebackAck _ _ => none
  | .refreshSlot _ => none
  | .waypartWrite _ _ _ => none
  | .windowGrowVisit _ => none
  | .windowShrinkVisit _ => none
  | .commit _ _ => none
  | .timetableSwitch _ => none
  | .swapTailWrite _ _ => none
  | .swapCommand => none
  | .swapMark => none
  | .swapCopyComplete => none
  | .replay _ => none
  | .parkend _ _ => none
  | .invalidateIdentifier _ _ => none
  | .invalidateTileRange _ _ => none
  | .invalidateEverything _ => none
  | .invalidationReport => none
  | .biasFlip _ _ => none
  | .biasFlipMark => none
  | .biasFlipInvert => none
  | .biasFlipEnd _ => none
  | .clockAdvance => none
  | .rolloverRequest _ => none
  | .rolloverStart => none
  | .rolloverEnd => none
  | .coachIssue _ => none
  | .jobPlacement _ => none
  | .jobStart _ => none
  | .gangBundleSend _ => none
  | .rollback _ _ => none
  | .rollbackRestore _ _ => none
  | .preemptionRequest _ _ => none
  | .preemptionHalt _ => none
  | .jobSwapOut _ => none
  | .jobRestore _ => none
  | .coachComplete _ _ => none
  | .coachRetire _ => none
  | .wagonFree _ => none
  | .wagonFill _ _ => none
  | .twaitLoadReturn _ => none
  | .decodeReadReturn _ => none
  | .tfenceComplete _ => none
  | .streamFault _ _ => none
  | .faultDeltaRestore _ => none
  | .frameZeroing => none
  | .frameZeroed _ => none
  | .xbarOpStart _ _ => none
  | .xmvmLanding _ _ => none
  | .xbarOpComplete _ _ => none
  | .autoMonitorRun _ => none
  | .bankWakeComplete _ => none
  | .qtailWrite _ _ _ => none
  | .ringLineReturn _ => none
  | .queueWake _ _ => none
  | .queueRequest _ _ _ => none
  | .queueEnable _ _ => none
  | .queueDisable _ _ => none
  | .streamResume _ _ => none
  | .streamDiscard _ _ => none
  | .eventTake _ => none
  | .eventDone _ => none
  | .firmwarePairMismatch _ => none
  | .mappingDecision => none
  | .mappingComplete _ => none
  | .sliceExpiry _ => none
  | .unmap _ _ => none
  | .unmapSaveComplete _ => none
  | .dispatch _ => none
  | .watchdogStage1 _ => none
  | .watchdogStage2 _ => none
  | .watchdogStage3 _ => none
  | .clusterMoveStart _ _ _ => none
  | .clusterMoveSwapped _ => none
  | .clusterMoveComplete _ => none
  | .trapResume _ _ => none
  | .trapFatal _ _ => none
  | .knownAnswerCheck _ => none
  | .dumpRequest _ _ => none
  | .dumpStart => none
  | .dumpComplete => none
  | .dumpAbort _ => none
  | .dmaskWrite _ _ _ => none
  | .debugHalt _ _ => none
  | .brakeVanEnable _ => none
  | .brakeVanDisable _ => none
  | .brakeVanStop _ => none
  | .brakeVanWrite => none
  | .sample _ => none
  | .loopCounterClear _ _ => none
  | .freeze _ => none
  | .attestationRequest _ => none
  | .attestationComplete => none
  | .keyLoad _ _ => none
  | .keyRevoke _ _ => none
  | .keyRevokeComplete => none
  | .thermalWarning _ _ => none
  | .thermalCritical _ _ => none
  | .thermalShutdown _ _ => none
  | .firmwareCoreAccess _ _ => none
  | .readingBelowTwarn _ _ => none
  | .sidingTrim _ _ _ => none

/-- What an opcode and operand bits of the S class do at issue; Decode.decS gives the instruction (R220 to R224). -/
def opsS (op : Nat) (h : Hd) (x : BitVec 18) : Option SlotOp :=
  if op < 43 then
    if op < 22 then
      if op < 11 then
        if op < 6 then
          if op < 3 then
            if op < 2 then
              some (opAdd h (x.extractLsb' 12 6) (x.extractLsb' 6 6) (x.extractLsb' 0 6))
            else
              some (opSub h (x.extractLsb' 12 6) (x.extractLsb' 6 6) (x.extractLsb' 0 6))
          else
            if op < 4 then
              some (opAnd h (x.extractLsb' 12 6) (x.extractLsb' 6 6) (x.extractLsb' 0 6))
            else
              if op < 5 then
                some (opOr h (x.extractLsb' 12 6) (x.extractLsb' 6 6) (x.extractLsb' 0 6))
              else
                some (opXor h (x.extractLsb' 12 6) (x.extractLsb' 6 6) (x.extractLsb' 0 6))
        else
          if op < 8 then
            if op < 7 then
              some (opAndn h (x.extractLsb' 12 6) (x.extractLsb' 6 6) (x.extractLsb' 0 6))
            else
              some (opShl h (x.extractLsb' 12 6) (x.extractLsb' 6 6) (x.extractLsb' 0 6))
          else
            if op < 9 then
              some (opShr h (x.extractLsb' 12 6) (x.extractLsb' 6 6) (x.extractLsb' 0 6))
            else
              if op < 10 then
                some (opSar h (x.extractLsb' 12 6) (x.extractLsb' 6 6) (x.extractLsb' 0 6))
              else
                some (opMul h (x.extractLsb' 12 6) (x.extractLsb' 6 6) (x.extractLsb' 0 6))
      else
        if op < 16 then
          if op < 13 then
            if op < 12 then
              some (opMulh h (x.extractLsb' 12 6) (x.extractLsb' 6 6) (x.extractLsb' 0 6))
            else
              some (opMulhn h (x.extractLsb' 12 6) (x.extractLsb' 6 6) (x.extractLsb' 0 6))
          else
            if op < 14 then
              some (opDiv h (x.extractLsb' 12 6) (x.extractLsb' 6 6) (x.extractLsb' 0 6))
            else
              if op < 15 then
                some (opDivn h (x.extractLsb' 12 6) (x.extractLsb' 6 6) (x.extractLsb' 0 6))
              else
                some (opRem h (x.extractLsb' 12 6) (x.extractLsb' 6 6) (x.extractLsb' 0 6))
        else
          if op < 19 then
            if op < 17 then
              some (opRemn h (x.extractLsb' 12 6) (x.extractLsb' 6 6) (x.extractLsb' 0 6))
            else
              if op < 18 then
                some (opMin h (x.extractLsb' 12 6) (x.extractLsb' 6 6) (x.extractLsb' 0 6))
              else
                some (opMax h (x.extractLsb' 12 6) (x.extractLsb' 6 6) (x.extractLsb' 0 6))
          else
            if op < 20 then
              some (opMinn h (x.extractLsb' 12 6) (x.extractLsb' 6 6) (x.extractLsb' 0 6))
            else
              if op < 21 then
                some (opMaxn h (x.extractLsb' 12 6) (x.extractLsb' 6 6) (x.extractLsb' 0 6))
              else
                some (opAddImm h (x.extractLsb' 12 6) (x.extractLsb' 6 6) (x.extractLsb' 0 6))
    else
      if op < 32 then
        if op < 27 then
          if op < 24 then
            if op < 23 then
              some (opAndImm h (x.extractLsb' 12 6) (x.extractLsb' 6 6) (x.extractLsb' 0 6))
            else
              some (opOrImm h (x.extractLsb' 12 6) (x.extractLsb' 6 6) (x.extractLsb' 0 6))
          else
            if op < 25 then
              some (opXorImm h (x.extractLsb' 12 6) (x.extractLsb' 6 6) (x.extractLsb' 0 6))
            else
              if op < 26 then
                some (opShlImm h (x.extractLsb' 12 6) (x.extractLsb' 6 6) (x.extractLsb' 0 6))
              else
                some (opShrImm h (x.extractLsb' 12 6) (x.extractLsb' 6 6) (x.extractLsb' 0 6))
        else
          if op < 29 then
            if op < 28 then
              some (opSarImm h (x.extractLsb' 12 6) (x.extractLsb' 6 6) (x.extractLsb' 0 6))
            else
              some (opSetw0 h (x.extractLsb' 12 6) (x.extractLsb' 0 12))
          else
            if op < 30 then
              some (opSetw1 h (x.extractLsb' 12 6) (x.extractLsb' 0 12))
            else
              if op < 31 then
                some (opSetw2 h (x.extractLsb' 12 6) (x.extractLsb' 0 12))
              else
                some (opSetw3 h (x.extractLsb' 12 6) (x.extractLsb' 0 12))
      else
        if op < 37 then
          if op < 34 then
            if op < 33 then
              some (opSetw4 h (x.extractLsb' 12 6) (x.extractLsb' 0 12))
            else
              if x &&& 4080#18 = 0#18 then some (opSetw5 h (x.extractLsb' 12 6) (x.extractLsb' 0 4)) else none
          else
            if op < 35 then
              if x &&& 60#18 = 0#18 then some (opSext h (x.extractLsb' 12 6) (x.extractLsb' 6 6) (x.extractLsb' 0 2)) else none
            else
              if op < 36 then
                if x &&& 63#18 = 0#18 then some (opClz h (x.extractLsb' 12 6) (x.extractLsb' 6 6)) else none
              else
                if x &&& 63#18 = 0#18 then some (opPopc h (x.extractLsb' 12 6) (x.extractLsb' 6 6)) else none
        else
          if op < 40 then
            if op < 38 then
              some (opCmpEq h (x.extractLsb' 14 4) (x.extractLsb' 12 2) (x.extractLsb' 6 6) (x.extractLsb' 0 6))
            else
              if op < 39 then
                some (opCmpNe h (x.extractLsb' 14 4) (x.extractLsb' 12 2) (x.extractLsb' 6 6) (x.extractLsb' 0 6))
              else
                some (opCmpLt h (x.extractLsb' 14 4) (x.extractLsb' 12 2) (x.extractLsb' 6 6) (x.extractLsb' 0 6))
          else
            if op < 41 then
              some (opCmpLe h (x.extractLsb' 14 4) (x.extractLsb' 12 2) (x.extractLsb' 6 6) (x.extractLsb' 0 6))
            else
              if op < 42 then
                some (opCmpLtn h (x.extractLsb' 14 4) (x.extractLsb' 12 2) (x.extractLsb' 6 6) (x.extractLsb' 0 6))
              else
                some (opCmpLen h (x.extractLsb' 14 4) (x.extractLsb' 12 2) (x.extractLsb' 6 6) (x.extractLsb' 0 6))
  else
    if op < 64 then
      if op < 53 then
        if op < 48 then
          if op < 45 then
            if op < 44 then
              some (opCmpEqImm h (x.extractLsb' 14 4) (x.extractLsb' 12 2) (x.extractLsb' 6 6) (x.extractLsb' 0 6))
            else
              some (opCmpNeImm h (x.extractLsb' 14 4) (x.extractLsb' 12 2) (x.extractLsb' 6 6) (x.extractLsb' 0 6))
          else
            if op < 46 then
              some (opCmpLtImm h (x.extractLsb' 14 4) (x.extractLsb' 12 2) (x.extractLsb' 6 6) (x.extractLsb' 0 6))
            else
              if op < 47 then
                some (opCmpLeImm h (x.extractLsb' 14 4) (x.extractLsb' 12 2) (x.extractLsb' 6 6) (x.extractLsb' 0 6))
              else
                some (opCmpLtnImm h (x.extractLsb' 14 4) (x.extractLsb' 12 2) (x.extractLsb' 6 6) (x.extractLsb' 0 6))
        else
          if op < 50 then
            if op < 49 then
              some (opCmpLenImm h (x.extractLsb' 14 4) (x.extractLsb' 12 2) (x.extractLsb' 6 6) (x.extractLsb' 0 6))
            else
              some (opFaddF32 h (x.extractLsb' 12 6) (x.extractLsb' 6 6) (x.extractLsb' 0 6))
          else
            if op < 51 then
              some (opFaddF16 h (x.extractLsb' 12 6) (x.extractLsb' 6 6) (x.extractLsb' 0 6))
            else
              if op < 52 then
                some (opFaddB16 h (x.extractLsb' 12 6) (x.extractLsb' 6 6) (x.extractLsb' 0 6))
              else
                some (opFsubF32 h (x.extractLsb' 12 6) (x.extractLsb' 6 6) (x.extractLsb' 0 6))
      else
        if op < 58 then
          if op < 55 then
            if op < 54 then
              some (opFsubF16 h (x.extractLsb' 12 6) (x.extractLsb' 6 6) (x.extractLsb' 0 6))
            else
              some (opFsubB16 h (x.extractLsb' 12 6) (x.extractLsb' 6 6) (x.extractLsb' 0 6))
          else
            if op < 56 then
              some (opFmulF32 h (x.extractLsb' 12 6) (x.extractLsb' 6 6) (x.extractLsb' 0 6))
            else
              if op < 57 then
                some (opFmulF16 h (x.extractLsb' 12 6) (x.extractLsb' 6 6) (x.extractLsb' 0 6))
              else
                some (opFmulB16 h (x.extractLsb' 12 6) (x.extractLsb' 6 6) (x.extractLsb' 0 6))
        else
          if op < 61 then
            if op < 59 then
              some (opFfmaF32 h (x.extractLsb' 12 6) (x.extractLsb' 6 6) (x.extractLsb' 0 6))
            else
              if op < 60 then
                some (opFfmaF16 h (x.extractLsb' 12 6) (x.extractLsb' 6 6) (x.extractLsb' 0 6))
              else
                some (opFfmaB16 h (x.extractLsb' 12 6) (x.extractLsb' 6 6) (x.extractLsb' 0 6))
          else
            if op < 62 then
              some (opFminF32 h (x.extractLsb' 12 6) (x.extractLsb' 6 6) (x.extractLsb' 0 6))
            else
              if op < 63 then
                some (opFminF16 h (x.extractLsb' 12 6) (x.extractLsb' 6 6) (x.extractLsb' 0 6))
              else
                some (opFminB16 h (x.extractLsb' 12 6) (x.extractLsb' 6 6) (x.extractLsb' 0 6))
    else
      if op < 74 then
        if op < 69 then
          if op < 66 then
            if op < 65 then
              some (opFmaxF32 h (x.extractLsb' 12 6) (x.extractLsb' 6 6) (x.extractLsb' 0 6))
            else
              some (opFmaxF16 h (x.extractLsb' 12 6) (x.extractLsb' 6 6) (x.extractLsb' 0 6))
          else
            if op < 67 then
              some (opFmaxB16 h (x.extractLsb' 12 6) (x.extractLsb' 6 6) (x.extractLsb' 0 6))
            else
              if op < 68 then
                some (opFcmpEqF32 h (x.extractLsb' 14 4) (x.extractLsb' 12 2) (x.extractLsb' 6 6) (x.extractLsb' 0 6))
              else
                some (opFcmpEqF16 h (x.extractLsb' 14 4) (x.extractLsb' 12 2) (x.extractLsb' 6 6) (x.extractLsb' 0 6))
        else
          if op < 71 then
            if op < 70 then
              some (opFcmpEqB16 h (x.extractLsb' 14 4) (x.extractLsb' 12 2) (x.extractLsb' 6 6) (x.extractLsb' 0 6))
            else
              some (opFcmpLtF32 h (x.extractLsb' 14 4) (x.extractLsb' 12 2) (x.extractLsb' 6 6) (x.extractLsb' 0 6))
          else
            if op < 72 then
              some (opFcmpLtF16 h (x.extractLsb' 14 4) (x.extractLsb' 12 2) (x.extractLsb' 6 6) (x.extractLsb' 0 6))
            else
              if op < 73 then
                some (opFcmpLtB16 h (x.extractLsb' 14 4) (x.extractLsb' 12 2) (x.extractLsb' 6 6) (x.extractLsb' 0 6))
              else
                some (opFcmpLeF32 h (x.extractLsb' 14 4) (x.extractLsb' 12 2) (x.extractLsb' 6 6) (x.extractLsb' 0 6))
      else
        if op < 79 then
          if op < 76 then
            if op < 75 then
              some (opFcmpLeF16 h (x.extractLsb' 14 4) (x.extractLsb' 12 2) (x.extractLsb' 6 6) (x.extractLsb' 0 6))
            else
              some (opFcmpLeB16 h (x.extractLsb' 14 4) (x.extractLsb' 12 2) (x.extractLsb' 6 6) (x.extractLsb' 0 6))
          else
            if op < 77 then
              some (opFcvt h (x.extractLsb' 12 6) (x.extractLsb' 6 6) (x.extractLsb' 4 2) (x.extractLsb' 2 2) (x.extractLsb' 0 2))
            else
              if op < 78 then
                if x &&& 4#18 = 0#18 then some (opItof h (x.extractLsb' 12 6) (x.extractLsb' 6 6) (x.extractLsb' 4 2) (x.extractLsb' 3 1) (x.extractLsb' 0 2)) else none
              else
                some (opFtoi h (x.extractLsb' 12 6) (x.extractLsb' 6 6) (x.extractLsb' 4 2) (x.extractLsb' 2 2) (x.extractLsb' 0 2))
        else
          if op < 82 then
            if op < 80 then
              some (opFtoiN h (x.extractLsb' 12 6) (x.extractLsb' 6 6) (x.extractLsb' 4 2) (x.extractLsb' 2 2) (x.extractLsb' 0 2))
            else
              if op < 81 then
                if x &&& 12528#18 = 0#18 then some (opPand h (x.extractLsb' 14 4) (x.extractLsb' 8 4) (x.extractLsb' 0 4)) else if x &&& 12528#18 = 16#18 then some (opPor h (x.extractLsb' 14 4) (x.extractLsb' 8 4) (x.extractLsb' 0 4)) else if x &&& 12528#18 = 32#18 then some (opPxor h (x.extractLsb' 14 4) (x.extractLsb' 8 4) (x.extractLsb' 0 4)) else if x &&& 12528#18 = 48#18 then some (opPandn h (x.extractLsb' 14 4) (x.extractLsb' 8 4) (x.extractLsb' 0 4)) else if x &&& 12543#18 = 64#18 then some (opPmov h (x.extractLsb' 14 4) (x.extractLsb' 8 4)) else none
              else
                some (opSel h (x.extractLsb' 12 6) (x.extractLsb' 6 6) (x.extractLsb' 0 6))
          else
            if op < 83 then
              if x &&& 4064#18 = 0#18 then some (opMova h (x.extractLsb' 12 6) (x.extractLsb' 4 1) (x.extractLsb' 0 4)) else none
            else
              if op < 84 then
                some (opMfs h (x.extractLsb' 12 6) (x.extractLsb' 0 12))
              else
                some (opMts h (x.extractLsb' 12 6) (x.extractLsb' 0 12))

/-- What an opcode and operand bits of the V class do at issue; Decode.decV gives the instruction (R220 to R224). -/
def opsV (op : Nat) (h : Hd) (u : Unit2) (x : BitVec 18) : Option SlotOp :=
  if op < 138 then
    if op < 111 then
      if op < 98 then
        if op < 91 then
          if op < 88 then
            if op < 86 then
              some (opVaddI8 h u (x.extractLsb' 12 6) (x.extractLsb' 6 6) (x.extractLsb' 0 6))
            else
              if op < 87 then
                some (opVaddI16 h u (x.extractLsb' 12 6) (x.extractLsb' 6 6) (x.extractLsb' 0 6))
              else
                some (opVaddI32 h u (x.extractLsb' 12 6) (x.extractLsb' 6 6) (x.extractLsb' 0 6))
          else
            if op < 89 then
              some (opVaddF16 h u (x.extractLsb' 12 6) (x.extractLsb' 6 6) (x.extractLsb' 0 6))
            else
              if op < 90 then
                some (opVaddB16 h u (x.extractLsb' 12 6) (x.extractLsb' 6 6) (x.extractLsb' 0 6))
              else
                some (opVaddF32 h u (x.extractLsb' 12 6) (x.extractLsb' 6 6) (x.extractLsb' 0 6))
        else
          if op < 94 then
            if op < 92 then
              some (opVsubI8 h u (x.extractLsb' 12 6) (x.extractLsb' 6 6) (x.extractLsb' 0 6))
            else
              if op < 93 then
                some (opVsubI16 h u (x.extractLsb' 12 6) (x.extractLsb' 6 6) (x.extractLsb' 0 6))
              else
                some (opVsubI32 h u (x.extractLsb' 12 6) (x.extractLsb' 6 6) (x.extractLsb' 0 6))
          else
            if op < 96 then
              if op < 95 then
                some (opVsubF16 h u (x.extractLsb' 12 6) (x.extractLsb' 6 6) (x.extractLsb' 0 6))
              else
                some (opVsubB16 h u (x.extractLsb' 12 6) (x.extractLsb' 6 6) (x.extractLsb' 0 6))
            else
              if op < 97 then
                some (opVsubF32 h u (x.extractLsb' 12 6) (x.extractLsb' 6 6) (x.extractLsb' 0 6))
              else
                some (opVmulI8 h u (x.extractLsb' 12 6) (x.extractLsb' 6 6) (x.extractLsb' 0 6))
      else
        if op < 104 then
          if op < 101 then
            if op < 99 then
              some (opVmulI16 h u (x.extractLsb' 12 6) (x.extractLsb' 6 6) (x.extractLsb' 0 6))
            else
              if op < 100 then
                some (opVmulI32 h u (x.extractLsb' 12 6) (x.extractLsb' 6 6) (x.extractLsb' 0 6))
              else
                some (opVmulF16 h u (x.extractLsb' 12 6) (x.extractLsb' 6 6) (x.extractLsb' 0 6))
          else
            if op < 102 then
              some (opVmulB16 h u (x.extractLsb' 12 6) (x.extractLsb' 6 6) (x.extractLsb' 0 6))
            else
              if op < 103 then
                some (opVmulF32 h u (x.extractLsb' 12 6) (x.extractLsb' 6 6) (x.extractLsb' 0 6))
              else
                some (opVfmaI8 h u (x.extractLsb' 12 6) (x.extractLsb' 6 6) (x.extractLsb' 0 6))
        else
          if op < 107 then
            if op < 105 then
              some (opVfmaI16 h u (x.extractLsb' 12 6) (x.extractLsb' 6 6) (x.extractLsb' 0 6))
            else
              if op < 106 then
                some (opVfmaI32 h u (x.extractLsb' 12 6) (x.extractLsb' 6 6) (x.extractLsb' 0 6))
              else
                some (opVfmaF16 h u (x.extractLsb' 12 6) (x.extractLsb' 6 6) (x.extractLsb' 0 6))
          else
            if op < 109 then
              if op < 108 then
                some (opVfmaB16 h u (x.extractLsb' 12 6) (x.extractLsb' 6 6) (x.extractLsb' 0 6))
              else
                some (opVfmaF32 h u (x.extractLsb' 12 6) (x.extractLsb' 6 6) (x.extractLsb' 0 6))
            else
              if op < 110 then
                some (opVminI8 h u (x.extractLsb' 12 6) (x.extractLsb' 6 6) (x.extractLsb' 0 6))
              else
                some (opVminI16 h u (x.extractLsb' 12 6) (x.extractLsb' 6 6) (x.extractLsb' 0 6))
    else
      if op < 124 then
        if op < 117 then
          if op < 114 then
            if op < 112 then
              some (opVminI32 h u (x.extractLsb' 12 6) (x.extractLsb' 6 6) (x.extractLsb' 0 6))
            else
              if op < 113 then
                some (opVminN8 h u (x.extractLsb' 12 6) (x.extractLsb' 6 6) (x.extractLsb' 0 6))
              else
                some (opVminN16 h u (x.extractLsb' 12 6) (x.extractLsb' 6 6) (x.extractLsb' 0 6))
          else
            if op < 115 then
              some (opVminN32 h u (x.extractLsb' 12 6) (x.extractLsb' 6 6) (x.extractLsb' 0 6))
            else
              if op < 116 then
                some (opVminF16 h u (x.extractLsb' 12 6) (x.extractLsb' 6 6) (x.extractLsb' 0 6))
              else
                some (opVminB16 h u (x.extractLsb' 12 6) (x.extractLsb' 6 6) (x.extractLsb' 0 6))
        else
          if op < 120 then
            if op < 118 then
              some (opVminF32 h u (x.extractLsb' 12 6) (x.extractLsb' 6 6) (x.extractLsb' 0 6))
            else
              if op < 119 then
                some (opVmaxI8 h u (x.extractLsb' 12 6) (x.extractLsb' 6 6) (x.extractLsb' 0 6))
              else
                some (opVmaxI16 h u (x.extractLsb' 12 6) (x.extractLsb' 6 6) (x.extractLsb' 0 6))
          else
            if op < 122 then
              if op < 121 then
                some (opVmaxI32 h u (x.extractLsb' 12 6) (x.extractLsb' 6 6) (x.extractLsb' 0 6))
              else
                some (opVmaxN8 h u (x.extractLsb' 12 6) (x.extractLsb' 6 6) (x.extractLsb' 0 6))
            else
              if op < 123 then
                some (opVmaxN16 h u (x.extractLsb' 12 6) (x.extractLsb' 6 6) (x.extractLsb' 0 6))
              else
                some (opVmaxN32 h u (x.extractLsb' 12 6) (x.extractLsb' 6 6) (x.extractLsb' 0 6))
      else
        if op < 131 then
          if op < 127 then
            if op < 125 then
              some (opVmaxF16 h u (x.extractLsb' 12 6) (x.extractLsb' 6 6) (x.extractLsb' 0 6))
            else
              if op < 126 then
                some (opVmaxB16 h u (x.extractLsb' 12 6) (x.extractLsb' 6 6) (x.extractLsb' 0 6))
              else
                some (opVmaxF32 h u (x.extractLsb' 12 6) (x.extractLsb' 6 6) (x.extractLsb' 0 6))
          else
            if op < 129 then
              if op < 128 then
                some (opVsaddI8 h u (x.extractLsb' 12 6) (x.extractLsb' 6 6) (x.extractLsb' 0 6))
              else
                some (opVsaddI16 h u (x.extractLsb' 12 6) (x.extractLsb' 6 6) (x.extractLsb' 0 6))
            else
              if op < 130 then
                some (opVsaddI32 h u (x.extractLsb' 12 6) (x.extractLsb' 6 6) (x.extractLsb' 0 6))
              else
                some (opVsaddN8 h u (x.extractLsb' 12 6) (x.extractLsb' 6 6) (x.extractLsb' 0 6))
        else
          if op < 134 then
            if op < 132 then
              some (opVsaddN16 h u (x.extractLsb' 12 6) (x.extractLsb' 6 6) (x.extractLsb' 0 6))
            else
              if op < 133 then
                some (opVsaddN32 h u (x.extractLsb' 12 6) (x.extractLsb' 6 6) (x.extractLsb' 0 6))
              else
                some (opVssubI8 h u (x.extractLsb' 12 6) (x.extractLsb' 6 6) (x.extractLsb' 0 6))
          else
            if op < 136 then
              if op < 135 then
                some (opVssubI16 h u (x.extractLsb' 12 6) (x.extractLsb' 6 6) (x.extractLsb' 0 6))
              else
                some (opVssubI32 h u (x.extractLsb' 12 6) (x.extractLsb' 6 6) (x.extractLsb' 0 6))
            else
              if op < 137 then
                some (opVssubN8 h u (x.extractLsb' 12 6) (x.extractLsb' 6 6) (x.extractLsb' 0 6))
              else
                some (opVssubN16 h u (x.extractLsb' 12 6) (x.extractLsb' 6 6) (x.extractLsb' 0 6))
  else
    if op < 165 then
      if op < 151 then
        if op < 144 then
          if op < 141 then
            if op < 139 then
              some (opVssubN32 h u (x.extractLsb' 12 6) (x.extractLsb' 6 6) (x.extractLsb' 0 6))
            else
              if op < 140 then
                some (opVcmpI8 h u (x.extractLsb' 15 3) (x.extractLsb' 12 3) (x.extractLsb' 6 6) (x.extractLsb' 0 6))
              else
                some (opVcmpI16 h u (x.extractLsb' 15 3) (x.extractLsb' 12 3) (x.extractLsb' 6 6) (x.extractLsb' 0 6))
          else
            if op < 142 then
              some (opVcmpI32 h u (x.extractLsb' 15 3) (x.extractLsb' 12 3) (x.extractLsb' 6 6) (x.extractLsb' 0 6))
            else
              if op < 143 then
                some (opVcmpN8 h u (x.extractLsb' 15 3) (x.extractLsb' 12 3) (x.extractLsb' 6 6) (x.extractLsb' 0 6))
              else
                some (opVcmpN16 h u (x.extractLsb' 15 3) (x.extractLsb' 12 3) (x.extractLsb' 6 6) (x.extractLsb' 0 6))
        else
          if op < 147 then
            if op < 145 then
              some (opVcmpN32 h u (x.extractLsb' 15 3) (x.extractLsb' 12 3) (x.extractLsb' 6 6) (x.extractLsb' 0 6))
            else
              if op < 146 then
                some (opVcmpF16 h u (x.extractLsb' 15 3) (x.extractLsb' 12 3) (x.extractLsb' 6 6) (x.extractLsb' 0 6))
              else
                some (opVcmpB16 h u (x.extractLsb' 15 3) (x.extractLsb' 12 3) (x.extractLsb' 6 6) (x.extractLsb' 0 6))
          else
            if op < 149 then
              if op < 148 then
                some (opVcmpF32 h u (x.extractLsb' 15 3) (x.extractLsb' 12 3) (x.extractLsb' 6 6) (x.extractLsb' 0 6))
              else
                some (opVshl8 h u (x.extractLsb' 12 6) (x.extractLsb' 6 6) (x.extractLsb' 0 6))
            else
              if op < 150 then
                some (opVshl16 h u (x.extractLsb' 12 6) (x.extractLsb' 6 6) (x.extractLsb' 0 6))
              else
                some (opVshl32 h u (x.extractLsb' 12 6) (x.extractLsb' 6 6) (x.extractLsb' 0 6))
      else
        if op < 158 then
          if op < 154 then
            if op < 152 then
              some (opVshr8 h u (x.extractLsb' 12 6) (x.extractLsb' 6 6) (x.extractLsb' 0 6))
            else
              if op < 153 then
                some (opVshr16 h u (x.extractLsb' 12 6) (x.extractLsb' 6 6) (x.extractLsb' 0 6))
              else
                some (opVshr32 h u (x.extractLsb' 12 6) (x.extractLsb' 6 6) (x.extractLsb' 0 6))
          else
            if op < 156 then
              if op < 155 then
                some (opVsar8 h u (x.extractLsb' 12 6) (x.extractLsb' 6 6) (x.extractLsb' 0 6))
              else
                some (opVsar16 h u (x.extractLsb' 12 6) (x.extractLsb' 6 6) (x.extractLsb' 0 6))
            else
              if op < 157 then
                some (opVsar32 h u (x.extractLsb' 12 6) (x.extractLsb' 6 6) (x.extractLsb' 0 6))
              else
                if x &&& 48#18 = 0#18 then some (opVreds h u (x.extractLsb' 12 6) (x.extractLsb' 6 6) (x.extractLsb' 0 4)) else none
        else
          if op < 161 then
            if op < 159 then
              if x &&& 48#18 = 0#18 then some (opVredm h u (x.extractLsb' 12 6) (x.extractLsb' 6 6) (x.extractLsb' 0 4)) else none
            else
              if op < 160 then
                if x &&& 48#18 = 0#18 then some (opVredn h u (x.extractLsb' 12 6) (x.extractLsb' 6 6) (x.extractLsb' 0 4)) else none
              else
                if x &&& 48#18 = 0#18 then some (opVabs h u (x.extractLsb' 12 6) (x.extractLsb' 6 6) (x.extractLsb' 0 4)) else none
          else
            if op < 163 then
              if op < 162 then
                if x &&& 48#18 = 0#18 then some (opVneg h u (x.extractLsb' 12 6) (x.extractLsb' 6 6) (x.extractLsb' 0 4)) else none
              else
                if x &&& 48#18 = 0#18 then some (opVsplat h u (x.extractLsb' 12 6) (x.extractLsb' 6 6) (x.extractLsb' 0 4)) else none
            else
              if op < 164 then
                some (opVset8 h u (x.extractLsb' 12 6) (x.extractLsb' 0 12))
              else
                some (opVset16 h u (x.extractLsb' 12 6) (x.extractLsb' 0 12))
    else
      if op < 178 then
        if op < 171 then
          if op < 168 then
            if op < 166 then
              some (opVset32 h u (x.extractLsb' 12 6) (x.extractLsb' 0 12))
            else
              if op < 167 then
                some (opVand h u (x.extractLsb' 12 6) (x.extractLsb' 6 6) (x.extractLsb' 0 6))
              else
                some (opVor h u (x.extractLsb' 12 6) (x.extractLsb' 6 6) (x.extractLsb' 0 6))
          else
            if op < 169 then
              some (opVxor h u (x.extractLsb' 12 6) (x.extractLsb' 6 6) (x.extractLsb' 0 6))
            else
              if op < 170 then
                if x &&& 56#18 = 0#18 then some (opVsel h u (x.extractLsb' 12 6) (x.extractLsb' 6 6) (x.extractLsb' 0 3)) else none
              else
                some (opVperm h u (x.extractLsb' 12 6) (x.extractLsb' 6 6) (x.extractLsb' 0 6))
        else
          if op < 174 then
            if op < 172 then
              some (opVrot h u (x.extractLsb' 12 6) (x.extractLsb' 6 6) (x.extractLsb' 0 6))
            else
              if op < 173 then
                if x &&& 63#18 = 0#18 then some (opXfer h u (x.extractLsb' 12 6) (x.extractLsb' 6 6)) else none
              else
                if x &&& 960#18 = 0#18 then some (opVtest h u (x.extractLsb' 14 4) (x.extractLsb' 10 4) (x.extractLsb' 0 6)) else none
          else
            if op < 176 then
              if op < 175 then
                if x &&& 262016#18 = 0#18 then some (opVframe h u (x.extractLsb' 0 7)) else none
              else
                if x &&& 233016#18 = 0#18 then some (opKopAnd h u (x.extractLsb' 12 3) (x.extractLsb' 6 3) (x.extractLsb' 0 3)) else if x &&& 233016#18 = 32768#18 then some (opKopOr h u (x.extractLsb' 12 3) (x.extractLsb' 6 3) (x.extractLsb' 0 3)) else if x &&& 233016#18 = 65536#18 then some (opKopXor h u (x.extractLsb' 12 3) (x.extractLsb' 6 3) (x.extractLsb' 0 3)) else if x &&& 233016#18 = 98304#18 then some (opKopAndn h u (x.extractLsb' 12 3) (x.extractLsb' 6 3) (x.extractLsb' 0 3)) else if x &&& 233023#18 = 131072#18 then some (opKopNot h u (x.extractLsb' 12 3) (x.extractLsb' 6 3)) else if x &&& 233023#18 = 163840#18 then some (opKopMov h u (x.extractLsb' 12 3) (x.extractLsb' 6 3)) else none
            else
              if op < 177 then
                if x &&& 63#18 = 0#18 then some (opVexp2 h u (x.extractLsb' 12 6) (x.extractLsb' 6 6)) else none
              else
                if x &&& 63#18 = 0#18 then some (opVlog2 h u (x.extractLsb' 12 6) (x.extractLsb' 6 6)) else none
      else
        if op < 185 then
          if op < 181 then
            if op < 179 then
              if x &&& 63#18 = 0#18 then some (opVrcp h u (x.extractLsb' 12 6) (x.extractLsb' 6 6)) else none
            else
              if op < 180 then
                if x &&& 63#18 = 0#18 then some (opVrsq h u (x.extractLsb' 12 6) (x.extractLsb' 6 6)) else none
              else
                some (opVsclF16 h u (x.extractLsb' 12 6) (x.extractLsb' 6 6) (x.extractLsb' 0 6))
          else
            if op < 183 then
              if op < 182 then
                some (opVsclB16 h u (x.extractLsb' 12 6) (x.extractLsb' 6 6) (x.extractLsb' 0 6))
              else
                some (opVsclF32 h u (x.extractLsb' 12 6) (x.extractLsb' 6 6) (x.extractLsb' 0 6))
            else
              if op < 184 then
                some (opVcvtRn h u (x.extractLsb' 12 6) (x.extractLsb' 6 6) (x.extractLsb' 3 3) (x.extractLsb' 0 3))
              else
                some (opVcvtRz h u (x.extractLsb' 12 6) (x.extractLsb' 6 6) (x.extractLsb' 3 3) (x.extractLsb' 0 3))
        else
          if op < 188 then
            if op < 186 then
              some (opVcvtRu h u (x.extractLsb' 12 6) (x.extractLsb' 6 6) (x.extractLsb' 3 3) (x.extractLsb' 0 3))
            else
              if op < 187 then
                some (opVcvtRd h u (x.extractLsb' 12 6) (x.extractLsb' 6 6) (x.extractLsb' 3 3) (x.extractLsb' 0 3))
              else
                some (opVqmxRn h u (x.extractLsb' 12 6) (x.extractLsb' 6 6) (x.extractLsb' 0 6))
          else
            if op < 190 then
              if op < 189 then
                some (opVqmxRz h u (x.extractLsb' 12 6) (x.extractLsb' 6 6) (x.extractLsb' 0 6))
              else
                some (opVqmxRu h u (x.extractLsb' 12 6) (x.extractLsb' 6 6) (x.extractLsb' 0 6))
            else
              if op < 191 then
                some (opVqmxRd h u (x.extractLsb' 12 6) (x.extractLsb' 6 6) (x.extractLsb' 0 6))
              else
                some (opVdq h u (x.extractLsb' 12 6) (x.extractLsb' 6 6) (x.extractLsb' 0 6))

/-- What an opcode and operand bits of the C class do at issue; Decode.decC gives the instruction (R220 to R224). -/
def opsC (op : Nat) (h : Hd) (u : Unit2) (x : BitVec 18) : Option SlotOp :=
  if op < 205 then
    if op < 198 then
      if op < 195 then
        if op < 193 then
          some (opLdvX h u (x.extractLsb' 12 6) (x.extractLsb' 7 5) (x.extractLsb' 3 4) (x.extractLsb' 0 3))
        else
          if op < 194 then
            some (opLdvY h u (x.extractLsb' 12 6) (x.extractLsb' 7 5) (x.extractLsb' 3 4) (x.extractLsb' 0 3))
          else
            some (opStvX h u (x.extractLsb' 12 6) (x.extractLsb' 7 5) (x.extractLsb' 3 4) (x.extractLsb' 0 3))
      else
        if op < 196 then
          some (opStvY h u (x.extractLsb' 12 6) (x.extractLsb' 7 5) (x.extractLsb' 3 4) (x.extractLsb' 0 3))
        else
          if op < 197 then
            some (opLds h u (x.extractLsb' 12 6) (x.extractLsb' 7 5) (x.extractLsb' 3 4) (x.extractLsb' 0 3))
          else
            some (opSts h u (x.extractLsb' 12 6) (x.extractLsb' 7 5) (x.extractLsb' 3 4) (x.extractLsb' 0 3))
    else
      if op < 201 then
        if op < 199 then
          if x &&& 3#18 = 0#18 then some (opCopy h u (x.extractLsb' 14 4) (x.extractLsb' 6 8) (x.extractLsb' 4 2) (x.extractLsb' 2 2)) else none
        else
          if op < 200 then
            if x &&& 3#18 = 0#18 then some (opCopyo h u (x.extractLsb' 14 4) (x.extractLsb' 6 8) (x.extractLsb' 4 2) (x.extractLsb' 2 2)) else none
          else
            if x &&& 3#18 = 0#18 then some (opCopyn h u (x.extractLsb' 14 4) (x.extractLsb' 6 8) (x.extractLsb' 4 2) (x.extractLsb' 2 2)) else none
      else
        if op < 203 then
          if op < 202 then
            if x &&& 12291#18 = 0#18 then some (opWfill h u (x.extractLsb' 14 4) (x.extractLsb' 6 6) (x.extractLsb' 4 2) (x.extractLsb' 2 2)) else none
          else
            if x &&& 245823#18 = 0#18 then some (opTrel h u (x.extractLsb' 6 8)) else none
        else
          if op < 204 then
            if x &&& 63#18 = 0#18 then some (opTstat h u (x.extractLsb' 14 4) (x.extractLsb' 6 8)) else none
          else
            if x &&& 16320#18 = 0#18 then some (opGld h u (x.extractLsb' 14 4) (x.extractLsb' 4 2) (x.extractLsb' 2 2) (x.extractLsb' 0 2)) else none
  else
    if op < 211 then
      if op < 208 then
        if op < 206 then
          if x &&& 16320#18 = 0#18 then some (opGst h u (x.extractLsb' 14 4) (x.extractLsb' 4 2) (x.extractLsb' 2 2) (x.extractLsb' 0 2)) else none
        else
          if op < 207 then
            if x &&& 962#18 = 2#18 then some (opAadd h u (x.extractLsb' 14 4) (x.extractLsb' 10 4) (x.extractLsb' 4 2) (x.extractLsb' 2 2) (x.extractLsb' 0 1)) else none
          else
            if x &&& 962#18 = 2#18 then some (opAswap h u (x.extractLsb' 14 4) (x.extractLsb' 10 4) (x.extractLsb' 4 2) (x.extractLsb' 2 2) (x.extractLsb' 0 1)) else none
      else
        if op < 209 then
          if x &&& 962#18 = 2#18 then some (opAcas h u (x.extractLsb' 14 4) (x.extractLsb' 10 4) (x.extractLsb' 4 2) (x.extractLsb' 2 2) (x.extractLsb' 0 1)) else none
        else
          if op < 210 then
            if x &&& 962#18 = 2#18 then some (opAmin h u (x.extractLsb' 14 4) (x.extractLsb' 10 4) (x.extractLsb' 4 2) (x.extractLsb' 2 2) (x.extractLsb' 0 1)) else none
          else
            if x &&& 962#18 = 2#18 then some (opAmax h u (x.extractLsb' 14 4) (x.extractLsb' 10 4) (x.extractLsb' 4 2) (x.extractLsb' 2 2) (x.extractLsb' 0 1)) else none
    else
      if op < 214 then
        if op < 212 then
          if x &&& 962#18 = 2#18 then some (opAand h u (x.extractLsb' 14 4) (x.extractLsb' 10 4) (x.extractLsb' 4 2) (x.extractLsb' 2 2) (x.extractLsb' 0 1)) else none
        else
          if op < 213 then
            if x &&& 962#18 = 2#18 then some (opAor h u (x.extractLsb' 14 4) (x.extractLsb' 10 4) (x.extractLsb' 4 2) (x.extractLsb' 2 2) (x.extractLsb' 0 1)) else none
          else
            if x &&& 16320#18 = 0#18 then some (opAset h u (x.extractLsb' 14 4) (x.extractLsb' 0 6)) else none
      else
        if op < 216 then
          if op < 215 then
            if x &&& 12288#18 = 0#18 then some (opAaddi h u (x.extractLsb' 14 4) (x.extractLsb' 0 12)) else none
          else
            if x &&& 12288#18 = 0#18 then some (opAstr h u (x.extractLsb' 14 4) (x.extractLsb' 0 12)) else none
        else
          if op < 217 then
            if x &&& 262140#18 = 0#18 then some (opCfence h u (x.extractLsb' 0 2)) else none
          else
            if x &&& 262083#18 = 0#18 then some (opPref h u (x.extractLsb' 4 2) (x.extractLsb' 2 2)) else none

/-- What an opcode and operand bits of the M class do at issue; Decode.decM gives the instruction (R220 to R224). -/
def opsM (op : Nat) (h : Hd) (x : BitVec 18) : Option SlotOp :=
  if op < 222 then
    if op < 220 then
      if op < 219 then
        if x &&& 255#18 = 0#18 then some (opMcfg h (x.extractLsb' 14 4) (x.extractLsb' 10 4) (x.extractLsb' 8 2)) else none
      else
        some (opMpush h (x.extractLsb' 12 6) (x.extractLsb' 0 12))
    else
      if op < 221 then
        if x &&& 262143#18 = 0#18 then some (opMswap h) else none
      else
        some (opMshift h (x.extractLsb' 12 6) (x.extractLsb' 11 1) (x.extractLsb' 9 2) (x.extractLsb' 7 2) (x.extractLsb' 0 7))
  else
    if op < 224 then
      if op < 223 then
        if x &&& 1536#18 = 0#18 then some (opMdrainF32 h (x.extractLsb' 12 6) (x.extractLsb' 11 1) (x.extractLsb' 7 2) (x.extractLsb' 0 7)) else none
      else
        if x &&& 1536#18 = 0#18 then some (opMdrainF16 h (x.extractLsb' 12 6) (x.extractLsb' 11 1) (x.extractLsb' 7 2) (x.extractLsb' 0 7)) else none
    else
      if op < 225 then
        if x &&& 1536#18 = 0#18 then some (opMdrainB16 h (x.extractLsb' 12 6) (x.extractLsb' 11 1) (x.extractLsb' 7 2) (x.extractLsb' 0 7)) else none
      else
        if op < 226 then
          if x &&& 261759#18 = 0#18 then some (opMclr h (x.extractLsb' 7 2)) else none
        else
          if x &&& 262143#18 = 0#18 then some (opMflush h) else none

/-- What an opcode and operand bits of the B class do at issue; Decode.decB gives the instruction (R220 to R224). -/
def opsB (op : Nat) (h : Hd) (x : BitVec 18) : Option SlotOp :=
  if op < 235 then
    if op < 231 then
      if op < 229 then
        if op < 228 then
          some (opBr h (x.extractLsb' 0 18))
        else
          if x &&& 262080#18 = 0#18 then some (opBrx h (x.extractLsb' 0 6)) else none
      else
        if op < 230 then
          some (opCall h (x.extractLsb' 0 18))
        else
          if x &&& 262080#18 = 0#18 then some (opCallx h (x.extractLsb' 0 6)) else none
    else
      if op < 233 then
        if op < 232 then
          if x &&& 262143#18 = 0#18 then some (opRet h) else none
        else
          if x &&& 131072#18 = 131072#18 then some (opLoop h (x.extractLsb' 11 6) (x.extractLsb' 0 11)) else if x &&& 133056#18 = 0#18 then some (opLoopReg h (x.extractLsb' 11 6) (x.extractLsb' 0 6)) else none
      else
        if op < 234 then
          if x &&& 262136#18 = 0#18 then some (opStage h (x.extractLsb' 0 3)) else none
        else
          if x &&& 262080#18 = 0#18 then some (opSeg h (x.extractLsb' 0 6)) else none
  else
    if op < 239 then
      if op < 237 then
        if op < 236 then
          if x &&& 262143#18 = 0#18 then some (opRdv h) else none
        else
          some (opWaitc h (x.extractLsb' 14 4) (x.extractLsb' 0 14))
      else
        if op < 238 then
          if x &&& 262143#18 = 0#18 then some (opYield h) else none
        else
          if x &&& 262143#18 = 0#18 then some (opHalt h) else none
    else
      if op < 241 then
        if op < 240 then
          if x &&& 258048#18 = 0#18 then some (opSys h (x.extractLsb' 0 12)) else none
        else
          some (opFbreg h (x.extractLsb' 0 18))
      else
        if op < 242 then
          if x &&& 258048#18 = 0#18 then some (opBkpt h (x.extractLsb' 0 12)) else none
        else
          if x &&& 130816#18 = 0#18 then some (opVgateOn h (x.extractLsb' 17 1) (x.extractLsb' 0 8)) else if x &&& 130816#18 = 32768#18 then some (opVgateRet h (x.extractLsb' 17 1) (x.extractLsb' 0 8)) else if x &&& 130816#18 = 65536#18 then some (opVgateOff h (x.extractLsb' 17 1) (x.extractLsb' 0 8)) else none

/-- What an opcode and operand bits of the A class do at issue; Decode.decA gives the instruction (R220 to R224). -/
def opsA (op : Nat) (h : Hd) (x : BitVec 18) : Option SlotOp :=
  if op < 249 then
    if op < 246 then
      if op < 244 then
        if x &&& 1#18 = 0#18 then some (opXmvm h (x.extractLsb' 12 6) (x.extractLsb' 10 2) (x.extractLsb' 7 3) (x.extractLsb' 3 4) (x.extractLsb' 1 2)) else none
      else
        if op < 245 then
          if x &&& 1023#18 = 0#18 then some (opXpush h (x.extractLsb' 12 6) (x.extractLsb' 11 1) (x.extractLsb' 10 1)) else none
        else
          if x &&& 2047#18 = 0#18 then some (opXpop h (x.extractLsb' 12 6) (x.extractLsb' 11 1)) else none
    else
      if op < 247 then
        if x &&& 16#18 = 0#18 then some (opXprog h (x.extractLsb' 12 6) (x.extractLsb' 11 1) (x.extractLsb' 5 6) (x.extractLsb' 0 4)) else none
      else
        if op < 248 then
          if x &&& 31#18 = 0#18 then some (opXver h (x.extractLsb' 12 6) (x.extractLsb' 11 1) (x.extractLsb' 5 6)) else none
        else
          if x &&& 4095#18 = 31#18 then some (opXremapClr h (x.extractLsb' 12 6)) else if x &&& 4064#18 = 0#18 then some (opXremap h (x.extractLsb' 12 6) (x.extractLsb' 0 5)) else none
  else
    if op < 252 then
      if op < 250 then
        if x &&& 4095#18 = 0#18 then some (opXmon h (x.extractLsb' 12 6)) else none
      else
        if op < 251 then
          if x &&& 24#18 = 0#18 then some (opXcalOff h (x.extractLsb' 12 6) (x.extractLsb' 11 1) (x.extractLsb' 5 6) (x.extractLsb' 0 3)) else if x &&& 24#18 = 8#18 then some (opXcalGain h (x.extractLsb' 12 6) (x.extractLsb' 11 1) (x.extractLsb' 5 6) (x.extractLsb' 0 3)) else if x &&& 4095#18 = 16#18 then some (opXcalMon h (x.extractLsb' 12 6)) else none
        else
          if x &&& 262143#18 = 0#18 then some (opXgate h) else none
    else
      if op < 253 then
        if x &&& 262143#18 = 0#18 then some (opXwake h) else none
      else
        if op < 254 then
          if x &&& 63#18 = 0#18 then some (opXstat h (x.extractLsb' 12 6) (x.extractLsb' 6 6)) else none
        else
          if x &&& 31#18 = 0#18 then some (opXldcCode h (x.extractLsb' 12 6) (x.extractLsb' 11 1) (x.extractLsb' 5 6)) else if x &&& 31#18 = 1#18 then some (opXldcVer h (x.extractLsb' 12 6) (x.extractLsb' 11 1) (x.extractLsb' 5 6)) else none

/-- What a word does in a slot position; none for a word that its position does not decode (R220, R225). -/
def slotOpAt (pos : Nat) (w : BitVec 32) : Option SlotOp :=
  let op := (w.extractLsb' 18 8).toNat
  let x := w.extractLsb' 0 18
  let h := headOf w
  match pos with
  | 0 => if 0x01 ≤ op ∧ op ≤ 0x54 then opsS op h x else none
  | 1 => if 0x55 ≤ op ∧ op ≤ 0xBF then opsV op h .zero x else none
  | 2 => if 0x55 ≤ op ∧ op ≤ 0xBF then opsV op h .one x else none
  | 3 => if 0xDA ≤ op ∧ op ≤ 0xE2 then opsM op h x else none
  | 4 => if 0xC0 ≤ op ∧ op ≤ 0xD9 then opsC op h .zero x else none
  | 5 => if 0xC0 ≤ op ∧ op ≤ 0xD9 then opsC op h .one x else none
  | 6 => if 0xE3 ≤ op ∧ op ≤ 0xF2 then opsB op h x else none
  | 7 => if 0xF3 ≤ op ∧ op ≤ 0xFE then opsA op h x else none
  | _ => none

end Sys2Proof.Machine
end

