-- ==== Sys2Proof/Machine/Bundle.lean ====
section
/-! DEFINITION. Bundles: fetch, decode, issue, holds and protected pairs, and the events of the issue slot (R149 to R151, R162 to
R165, R202 to R214, R228, R253, R255, R371, R376 to R378, R385, R386, R433, R435). -/

namespace Sys2Proof.Machine

/-! ## Fetch (R253, R435) -/

/-- The eight words of a bundle of a code tensor. -/
def bundleWords (s : State) (k : CodeOf) (pc : BitVec 32) : List (BitVec 32) :=
  let w := codeNat s k (32 * pc.toNat) 32
  (List.range 8).map (fun i => BitVec.ofNat 32 (w / 2 ^ (32 * i)))

/-- What the slots of a bundle do, in position order. A NOP, and a slot that DONEMASK marks, does nothing; a word that its
position does not decode has a reserved value (R225). -/
def slotsFrom (done : BitVec 8) : Nat → List (BitVec 32) → List SlotOp
  | _, [] => []
  | p, w :: l =>
    let rest := slotsFrom done (p + 1) l
    if w = 0 || done.getLsbD p then rest
    else (slotOpAt p w).getD { pos := p, h := headOf w, bad := true } :: rest

/-- The slot operations of the bundle at which a context stands. -/
def opsAt (s : State) (c x : Nat) : List SlotOp :=
  let v := getCtx s c x
  slotsFrom v.r.donemask 0 (bundleWords s (codeOfP v.j) v.r.pc)

/-- Whether a core's bundle cache holds the chunk of a bundle. -/
def cacheHas (k : Core) (tid : Nat) (pc : BitVec 32) : Bool := k.bcache.contains (tid, pc.toNat / 8)

/-- Whether a context is moved by its gang's sequencer and not by its core alone (R152, R163). -/
def broadcast (s : State) (v : Ctx) : Bool :=
  !v.g.solo && (match v.j.job with
    | some j => (getJob s j).gang
    | none => false)

/-- The core whose bundle cache serves a context: of a gang that moves together, that of the rank-0 member (R435). -/
def fetchCore (s : State) (c x : Nat) : Nat := if broadcast s (getCtx s c x) then (membersOf s c x).headD c else c

/-- Whether the fetch of the chunk of a bundle is under way for a context of a core. -/
def fetching (k : Core) (x tid : Nat) (pc : BitVec 32) : Bool := k.bfetch.any (fun f => f.1 = x && f.2.1 = tid && f.2.2.1 = pc.toNat / 8)

/-- Start the fetch of the chunk of a bundle for a context. -/
def startFetch (s : State) (c x : Nat) (pc : BitVec 32) : State :=
  let v := getCtx s c x
  let o := fetchCore s c x
  if fetching (getCore s o) x v.j.code.toNat pc then s
  else
    let (k, s) := readCode s (codeOfP v.j) (some (clusterOf o)) (256 * (pc.toNat / 8)) 256
    modCore s o (fun q => { q with bfetch := q.bfetch ++ [(x, v.j.code.toNat, pc.toNat / 8, k)] })

/-- BUNDLE_CHUNK_ARRIVAL: the chunk enters the bundle cache, the least recent of 512 leaving, and its lines stay in the slice as their
cache class says (R70, R435). -/
def execBundleChunkArrival (core ctx : Nat) (s : State) : Host.Outcome State Fault Refusal :=
  match (getCore s core).bfetch.find? (fun f => f.1 = ctx && arrived s f.2.2.2) with
  | some (_, tid, ch, k) =>
    let s := touchCode (dropTicket s k) (codeOfP (getCtx s core ctx).j) (some (clusterOf core)) (256 * ch) 256
    .next (modCore s core (fun q => { q with
      bfetch := q.bfetch.filter (fun f => !(f.1 = ctx && f.2.2.2 = k))
      bcache := ((tid, ch) :: q.bcache.filter (fun e => e ≠ (tid, ch))).take 512 }))
  | none => .next s

/-! ## Counters of loops and stalls (R386) -/

/-- Add 1 to the counters named, saturating. -/
def bumpCounters (ix : List Nat) (l : List Nat) : List Nat :=
  (List.range 26).map (fun i => let n := l.getD i 0; if ix.contains i then min (2 ^ 32 - 1) (n + 1) else n)

/-- Count a cycle of a context in the records of its active levels, or in record 6; the odd core of a protected pair counts what its
partner does. -/
def countCycle (s : State) (c x : Nat) (ix : List Nat) : State :=
  let v := getCtx s c x
  let n := (activeLoops v.r).length
  let recs := if n = 0 then [6] else List.range n
  let as_ := if evenOfPair c v then [agentOf c x, agentOf (c + 1) x] else [agentOf c x]
  { s with d := { s.d with lpc := as_.foldl (fun m a => recs.foldl (fun m i => smPut m (a * 7 + i) (bumpCounters (0 :: ix) (smGet [] m (a * 7 + i)))) m) s.d.lpc } }

/-- The stall counter of a wait's cause. -/
def stallOf (cause : Nat) : Nat :=
  if cause = 0 then 0 else if cause = 1 ∨ cause = 5 then 1
  else if 8 ≤ cause ∧ cause ≤ 12 ∨ cause = 15 then 3
  else if cause = 100 ∨ cause = 102 then 5 else 2
/-- The stall counter of a hold's stage. -/
def holdStall (stage : Nat) : Nat := if stage = 0 then 4 else if stage = 1 then 5 else 6

/-- Note a decode for the sampler (R385). -/
def noteDecode (s : State) (c x : Nat) (issued : Bool) (slot stall : Nat) : State :=
  let pc := (getCtx s c x).r.pc
  modCore s c (fun k => { k with lastDec := some (s.t.now, x, pc, issued, slot, stall) })

/-- A decode that does not issue: counted and noted. -/
def stalled (s : State) (c x slot stall : Nat) : State := noteDecode (countCycle s c x [18 + stall]) c x false slot stall

/-! ## Issue (R203, R208, R250, R255) -/

/-- VTEST deliveries due in this cycle come before its other predicate writes (R208). -/
def deliverTests (s : State) (c x : Nat) : State :=
  let v := getCtx s c x
  let due (l : Landing) : Bool := l.req.isNone && l.due ≤ s.t.now && (match l.dst with
    | .vtest .. => true
    | _ => false)
  let s := (v.landings.filter due).foldl (fun s l => modCore s c (fun k => putDst k x l.dst l.val)) s
  modCtx s c x (fun v => { v with landings := v.landings.map (fun l => if due l then { l with dst := .squashed } else l) })

/-- The close of an iteration at the last bundle of the innermost level (R208, R255). -/
def loopClose (r : Regs) : Regs :=
  match r.loops with
  | [] => r
  | l :: ls =>
    let rem := l.rem - 1
    let preds : BitVec 16 := if l.stage then
        (r.preds &&& 0x00FF) ||| ((r.preds <<< 1) &&& 0xFE00) ||| (if rem > l.epi.toNat then 0x0100 else 0)
      else r.preds
    if rem > 0 then { r with preds, loops := { l with rem } :: ls, redirect := some (0, l.start) }
    else { r with preds, loops := ls, redirect := some (0, l.fin + 1) }

/-- Whether the bundle closes an iteration: it stands at the end of the innermost level, and the close was not committed before an
acceptance trap, which leaves its target behind (R255, R368). -/
def closes (r : Regs) : Bool :=
  let done := match r.redirect with
    | some (0, _) => true
    | _ => false
  !done && (match activeLoops r with
    | l :: _ => l.fin = r.pc
    | [] => false)

/-- One bit of the CRC of R371: the ECMA-182 polynomial, no reflection. -/
def crcBit (r : BitVec 64) (b : Bool) : BitVec 64 := if r.getLsbD 63 != b then (r <<< 1) ^^^ 0x42F0E1EBA9EA3693 else r <<< 1
/-- `n` bytes of a number, least significant byte first and each byte from its most significant bit on. -/
def crcNat (r : BitVec 64) (v : Nat) : Nat → BitVec 64
  | 0 => r
  | n + 1 => crcNat ((List.range 8).foldl (fun r i => crcBit r (v.testBit (7 - i))) r) (v / 256) n

/-- One committed write: its file, index and value, with the value's bytes. -/
structure SigWrite where
  file : Nat
  index : Nat
  value : Nat
  bytes : Nat
  deriving DecidableEq, Repr

/-- The signature of a list of writes (R371): one byte for the file, eight for the index, then the value (that layout is the model's
choice, in the assumption log). -/
def crcOf (l : List SigWrite) : BitVec 64 := l.foldl (fun r w => crcNat (crcNat (crcNat r w.file 1) w.index 8) w.value w.bytes) 0

/-- Results that a bundle has put on their way. -/
def newLandings (before after : Ctx) : List Landing := after.landings.filter (fun l => !before.landings.any (fun m => m.id = l.id))

/-- What a register write of a bundle contributes: the value written, or on its way; one that a path still decides comes to both cores
from the even one and is left out (R165, R371). -/
def regWrite (k : Core) (before after : Ctx) (w : Rd) : List SigWrite :=
  let on (d : Dst) (file index bytes val : Nat) : List SigWrite :=
    match (newLandings before after).find? (fun l => l.dst = d) with
    | some l => if l.req.isSome then [] else [{ file, index, value := l.val.toNat, bytes }]
    | none => [{ file, index, value := val, bytes }]
  match w with
  | .s n => on (.s n) 0 n 8 (readS after.r n).toNat
  | .k f n => on (.k f n) 1 (kIdx f n) 8 (readK after.r f n).toNat
  | .a f n => on (.a f n) 2 (aIdx f n) 8 (readA after.r f n).toNat
  | .v f n => let g := vAbs before.r f n; on (.v f g) (if f then 4 else 3) g 256 (readV k f g).toNat

/-- The committed writes of a bundle in slot order: registers, scratchpad rows and coherent stores, and the predicates last (R371).
`e` is what the slots saw at decode, `k` the core after the bundle. -/
def sigWrites (e : Env) (k : Core) (ops : List SlotOp) : List SigWrite :=
  let live := ops.filter (fun o => guardOf o.h e.r)
  live.flatMap (fun o =>
    o.writes.flatMap (regWrite k e.ctx (ctxOf k e.x))
    ++ ((accOf e.r o).toList.filter (·.write)).map (fun a => { file := 6, index := a.bank * 512 + a.row, value := (readSeen k a.bank a.row).1.toNat, bytes := 256 })
    ++ (o.stored e).map (fun v => { file := 7, index := o.pos, value := v, bytes := 8 }))
  ++ [{ file := 5, index := 0, value := (ctxOf k e.x).r.preds.toNat, bytes := 2 }]

/-- Rows that a bundle writes. -/
def rowsWritten (r : Regs) (ops : List SlotOp) : List (Nat × Nat) :=
  (((ops.filter (fun o => guardOf o.h r)).filterMap (accOf r)).filter (·.write)).map (fun a => (a.bank, a.row))

/-- What a core of a pair has done, for its partner (R165, R371). -/
def commitOf (e : Env) (ops : List SlotOp) (k : Core) : Commit :=
  { at_ := e.p.t.now, done := e.r.donemask, pre := e.r, post := (ctxOf k e.x).r, news := newLandings e.ctx (ctxOf k e.x)
    wr := rowsWritten e.r ops, sig := crcOf (sigWrites e k ops) }

/-! ## Errors in what a bundle reads (R370) -/

/-- Uncorrectable errors in vector registers and matrix sources that a bundle reads: sub-cause of class 17, and place. -/
def unsoundReads (e : Env) (ops : List SlotOp) : List (Nat × Nat) :=
  (ops.filter (fun o => guardOf o.h e.r)).flatMap (fun o =>
    (o.reads.filterMap (fun d => match d with
      | .v f n => if smGet false e.core.vf.vBad (vIdx f (vAbs e.r f n)) then some (1, vIdx f (vAbs e.r f n)) else none
      | _ => none)) ++ (o.unsound e).toList)

/-- A context consumes an error; in a protected pair both cores roll back (R370). -/
def consumeOn (s : State) (c x cls cause data : Nat) : State :=
  let s := consumeUE s c x cls cause data
  if (getCtx s c x).j.prot then
    modCtx s (if c % 2 = 0 then c + 1 else c - 1) x (fun w => { w with g := { w.g with rbPending := some (w.g.rbPending.getD (cls, cause)) } })
  else s

/-- A bundle consumes the errors that it reads, at its issue. -/
def consumeReads (e : Env) (ops : List SlotOp) (s : State) : State :=
  (unsoundReads e ops).foldl (fun s u => consumeOn s e.c e.x 17 u.1 (Config.eventData 7 [u.1, u.2]).toNat) s

/-- The known-answer checks due on a bundle (R372): that of the M slot (`false`) where it leaves M empty, that of the V slots (`true`) where
it leaves V0 or V1 empty. -/
def katsDue (s : State) (c : Nat) (words : List (BitVec 32)) : List Bool :=
  let k := getCore s c
  if bitN (creg s (0x230000 + 8 * clusterOf c)).toNat 0 = false then []
  else (if k.katDue ≤ s.t.now ∧ words.getD 3 0 = 0 then [false] else [])
    ++ (if k.katDueV ≤ s.t.now ∧ (words.getD 1 0 = 0 ∨ words.getD 2 0 = 0) then [true] else [])

/-- Put the checks that are due into a bundle that issues; the next ones are due a period later (R372). -/
def injectKats (s : State) (c : Nat) (job : Option Nat) (words : List (BitVec 32)) : State :=
  let l := katsDue s c words
  if l = [] then s
  else
    let next := s.t.now + cfield s (0x230000 + 8 * clusterOf c) 31 16
    schedule (modCore s c (fun k => { k with
      katDue := if l.contains false then next else k.katDue, katDueV := if l.contains true then next else k.katDueV
      kats := k.kats ++ l.map (fun v => (v, job)) })) s.t.now (.knownAnswerCheck c)

/-- What issuing clears, and the VTEST deliveries of the cycle, before the slots have their effects (R208, R369, R377). -/
def beforeIssue (s : State) (c x : Nat) : State :=
  deliverTests (modCtx s c x (fun v => { v with
    resumed := false, heldUntil := none, heldStage := 0, heldGrps := [], nissued := v.nissued + 1, r := { settlePops v.r with donemask := 0 } })) c x

/-- What follows the effects of the slots: the loop close, the flow of control, a pair's commit, the counters, the checks of the
bundle and the end of a step. `s` is the state at decode, `s2` the state with the effects. -/
def afterIssue (s : State) (c x : Nat) (ops : List SlotOp) (words : List (BitVec 32)) (s2 : State) : State :=
  let v := getCtx s c x
  let e := envOf s c x ops []
  let gone := (getCtx s2 c x).status = .free ∨ (getCtx s2 c x).status = .ended
  let s3 := if closes v.r ∧ ¬ gone ∧ (getCtx s2 c x).r.donemask = 0 then modRegs s2 c x loopClose else s2
  let s4 := if gone then s3
    else if (getCtx s3 c x).status = .trapped then s3
    else if acceptPending s3 c x then leaveSlot s3 c x (.blocked 103 0 0)
    else finishFlow s3 c x
  let s5 := if v.j.prot ∧ c % 2 = 0 ∧ ¬ gone then
      modCtx s4 c x (fun w => { w with commits := w.commits ++ [commitOf e ops (getCore s3 c)] })
    else s4
  let s6 := modCore (consumeReads e ops s5) c (fun k => { k with consec := if otherReady s c x then k.consec + 1 else 0 })
  let pos := List.range 8
  let fills := pos.map (fun p => if words.getD p 0 ≠ 0 then 2 + p else 10 + p)
  let s7 := { s6 with d := { s6.d with lpc := (countCycle s c x (1 :: fills)).d.lpc } }
  let s8 := modCore s7 c (fun k => { k with lastDec := some (s.t.now, x, v.r.pc, true, 0, 0) })
  endStep (injectKats s8 c v.j.job words) c x

/-- A bundle issues: the effects of its slots, the loop close, the flow of control. -/
def issueBundle (s : State) (c x : Nat) (ops : List SlotOp) (rc : List Nat) (words : List (BitVec 32)) : State :=
  afterIssue s c x ops words (effects s c x ops rc (beforeIssue s c x))

/-- The comparator that fires on a bundle, lowest first (R376): its number and slot. -/
def comparator (s : State) (c x : Nat) (words : List (BitVec 32)) : Option (Nat × Nat) :=
  let v := getCtx s c x
  if v.resumed then none
  else (List.range 16).findSome? (fun k =>
    let b := (creg s (0x400100 + 8 * k)).toNat
    let slot := bitsN b 50 48
    let w := words.getD slot 0
    if bitN b 51 && bitsN b 15 0 = v.j.code.toNat && bitsN b 47 16 = v.r.pc.toNat && w ≠ 0 && !v.r.donemask.getLsbD slot
        && (!bitN b 52 || guardOf (headOf w) v.r) then some (k, slot) else none)

/-- The first slot, in position order, that holds a bundle at a stage (R385). -/
def holdSlot (s : State) (c x : Nat) (ops : List SlotOp) (stage st : Nat) : Nat :=
  if st = 2 then ((ops.find? (·.heavy)).map (·.pos)).getD 255
  else ((List.range 8).find? (fun p => match judgeBack s c x (ops.filter (fun o => o.pos ≤ p)) stage with
    | .hold _ k => k = st
    | _ => false)).getD 255

/-- The end of decode once steps 1 to 5 of R433 have passed but for the throttle: the throttle's bubble, a breakpoint, or
issue. `j` is what the slots came to. -/
def issueOrStop (s : State) (c x : Nat) (ops : List SlotOp) (words : List (BitVec 32)) (j : Judge) : State :=
  let k := getCore s c
  let bubble := ops.any (·.heavy) && k.phi < k.thrl.toNat
  let s := modCore s c (fun k => { k with phi := (k.phi + 1) % 8 })
  if bubble then stalled (holdBundle s c x 1 2 ops) c x (holdSlot s c x ops 2 2) 6
  else match j with
    | .trap cls cause slot detail => takeTrap s c x cls cause slot detail (getCtx s c x).r.pc
    | .go rc => match comparator s c x words with
      | some (n, slot) => takeTrap s c x 13 0 slot (0x1000 + n) (getCtx s c x).r.pc
      | none => issueBundle s c x ops rc words
    | _ => s

/-- The decode of a bundle whose words have been fetched (R433): `ops` is what its slots do. -/
def decodeOps (s : State) (c x stage : Nat) (ops : List SlotOp) (words : List (BitVec 32)) : State :=
  match judge s c x ops stage with
  | .hold n st => stalled (holdBundle s c x n st ops) c x (holdSlot s c x ops stage st) (holdStall st)
  | .block cause slot detail => blockCtx (stalled s c x slot (stallOf cause)) c x cause slot detail
  | .trap 13 cause slot detail => issueOrStop s c x ops words (.trap 13 cause slot detail)
  | .trap cls cause slot detail => takeTrap s c x cls cause slot detail (getCtx s c x).r.pc
  | .go rc => issueOrStop s c x ops words (.go rc)

/-- The decode of the bundle at which a context stands (R253, R433, R435). -/
def decodeBundle (s : State) (c x stage : Nat) : State :=
  let v := getCtx s c x
  if !codeHas s (codeOfP v.j) (32 * v.r.pc.toNat) 32 then takeTrap s c x 1 3 255 0 v.r.pc
  else if !cacheHas (getCore s (fetchCore s c x)) v.j.code.toNat v.r.pc then blockCtx (stalled (startFetch s c x v.r.pc) c x 255 2) c x 105 255 0
  else
    let words := bundleWords s (codeOfP v.j) v.r.pc
    decodeOps s c x stage (slotsFrom v.r.donemask 0 words) words

/-! ## The odd core of a protected pair (R164, R165) -/

/-- The odd core issues the bundle that its partner issued two cycles before, and the two are compared (R165, R371). -/
def followBundle (s : State) (c x : Nat) (m : Commit) : State :=
  let flow (r : Regs) : Regs := { r with
    pc := m.pre.pc, redirect := m.pre.redirect, redirectPops := m.pre.redirectPops, loops := m.pre.loops, pend := m.pre.pend
    rstack := m.pre.rstack, donemask := m.done, fbTarget := m.pre.fbTarget }
  let s := modRegs s c x flow
  let v := getCtx s c x
  let ops := opsAt s c x
  let rc := reconOn (getCore s c) ((ops.filter (fun o => guardOf o.h v.r)).filterMap (accOf v.r))
  let s1 := effects s c x ops rc (beforeIssue s c x)
  let s2 := if closes v.r then modRegs s1 c x loopClose else s1
  let s3 := consumeReads (envOf s c x ops rc) ops (finishFlow s2 c x)
  let bad := decide (m.sig ≠ (commitOf (envOf s c x ops rc) ops (getCore s2 c)).sig)
  let s4 := modCtx (modCore s3 c (fun k => { k with nextIssue := max k.nextIssue (s.t.now + 1) })) (c - 1) x (fun w => { w with commits := w.commits.drop 1 })
  let s4 := injectKats s4 c v.j.job (bundleWords s (codeOfP v.j) v.r.pc)
  if bad then
    let pair := (c - 1) / 2
    let s5 := [c - 1, c].foldl (fun s k => modCtx s k x (fun w => { w with g := { w.g with rbPending := some (19, 0) } })) (withdrawFrom s4 (c - 1) x m.at_)
    { s5 with w := { s5.w with lscnt := smPut s5.w.lscnt pair (min 7 (smGet 0 s5.w.lscnt pair + 1)) } }
  else s4

/-- What an odd core owes its partner in this cycle, in which it has issued nothing else. -/
def followDue (s : State) (c : Nat) : Option (Nat × Commit) :=
  if c % 2 = 0 || (getCore s c).lastDec.any (fun d => d.1 = s.t.now && d.2.2.2.1) then none
  else (List.range 4).findSome? (fun x => match (getCtx s (c - 1) x).commits with
    | m :: _ => if m.at_ + 2 ≤ s.t.now then some (x, m) else none
    | [] => none)

/-! ## The issue slot (R149 to R151) -/

/-- Whether a context belongs to a gang job (R151, R153). -/
def ofGang (s : State) (v : Ctx) : Bool := match v.j.job with
  | some j => (getJob s j).gang
  | none => false

/-- Whether a context's job lets it issue new bundles: it is not asked to halt, and no rollback waits (R160, R360). -/
def mayRun (s : State) (v : Ctx) : Bool :=
  !v.g.rollingBack && (match v.j.job with
    | some j => decide ((getJob s j).st = .running) && !(getJob s j).killed
    | none => true)

/-- BUNDLE_DECODE: the running context of a core decodes its bundle; the odd core of a pair issues what its partner did. -/
def execBundleDecode (core : Nat) (s : State) : Host.Outcome State Fault Refusal :=
  match followDue s core with
  | some (x, m) => .next (followBundle s core x m)
  | none => match (getCore s core).running with
    | none => .next s
    | some x =>
      let v := getCtx s core x
      if v.status ≠ .running ∨ v.heldUntil.isSome = true ∨ s.t.now < (getCore s core).nextIssue ∨ broadcast s v = true ∨ mayRun s v = false then .next s
      else .next (decodeBundle s core x 0)

/-- A member of a gang issues the bundle that its sequencer has sent it (R152): that it could was judged when it was sent. -/
def issueCast (s : State) (c x : Nat) : State :=
  let s := modCtx s c x (fun v => { v with cast := v.cast.drop 1 })
  let v := getCtx s c x
  let words := bundleWords s (codeOfP v.j) v.r.pc
  let ops := slotsFrom v.r.donemask 0 words
  let rc := reconOn (getCore s c) ((ops.filter (fun o => guardOf o.h v.r)).filterMap (accOf v.r))
  issueBundle (modCore s c (fun k => { k with phi := (k.phi + 1) % 8 })) c x ops rc words

/-- The trap that a member owes once it has issued what it had been sent (R154, R155). -/
def settleStop (s : State) (c x : Nat) : State :=
  let v := getCtx s c x
  match v.cast, v.stopWith with
  | [], some t => stopWithTrap (modCtx s c x (fun v => { v with stopWith := none })) c x t.cls t.cause t.slot t.detail t.origin v.r.pc 0
  | _, _ => s

/-- HELD_BUNDLE_ISSUE: a member of a gang issues what it was sent, in its cycle (R152); or the hold of a core's bundle has passed, and
it is judged again from there (R46, R211, R228). -/
def execHeldBundleIssue (core : Nat) (s : State) : Host.Outcome State Fault Refusal :=
  match (getCore s core).running with
  | none => .next s
  | some x =>
    let v := getCtx s core x
    match v.cast, v.heldUntil with
    | b :: _, _ => if b.at_ ≤ s.t.now then .next (settleStop (issueCast s core x) core x) else .next s
    | [], some u =>
      if u ≤ s.t.now ∧ mayRun s v = true ∧ (followDue s core).isNone = true ∧ (getCore s core).nextIssue ≤ s.t.now then
        .next (decodeBundle (modCtx s core x (fun v => { v with heldUntil := none })) core x v.heldStage)
      else .next s
    | [], none => .next s

/-- Whether what blocks a context itself has cleared (R150). -/
def clearedAlone (s : State) (c x cause slot detail : Nat) : Bool :=
  let v := getCtx s c x
  if cause = 103 then !acceptPending s c x
  else if cause = 105 then
    let k := getCore s (fetchCore s c x)
    cacheHas k v.j.code.toNat v.r.pc || !fetching k x v.j.code.toNat v.r.pc
  else match judge s c x (opsAt s c x) v.heldStage with
    | .block k p d => !(k = cause && p = slot && d = detail)
    | _ => true

/-- The members that a gang's sequencer moves now: those with the broadcast that have not ended and have passed the fewest barriers. -/
def castMembers (s : State) (j : Job) : List Nat :=
  let ms := j.members.filter (fun m => !(getCtx s m j.ctx).g.solo && (getCtx s m j.ctx).status ≠ .ended)
  let n := ms.foldl (fun n m => min n (getCtx s m j.ctx).rdvCount) (2 ^ 64)
  ms.filter (fun m => (getCtx s m j.ctx).rdvCount = n)

/-- Whether what blocks a context has cleared; a member of a gang that waits for another does so until that one may go on (R153), and
at a barrier until the last one has reached it (R162). -/
def cleared (s : State) (c x cause slot detail : Nat) : Bool :=
  if cause = 106 then
    (match (getCtx s c x).j.job with
      | some id => decide ((getJob s id).nextSend ≤ s.t.now + 1) && (castMembers s (getJob s id)).all (fun m => match (getCtx s m x).status with
        | .blocked k p d => k = 106 || clearedAlone s m x k p d
        | _ => true)
      | none => true)
  else clearedAlone s c x cause slot detail

/-- CONTEXT_READY: a context is ready once what blocked it has cleared (R150). A member that replayed alone to HALT rejoins the
broadcast with it (R163). -/
def execContextReady (core ctx : Nat) (s : State) : Host.Outcome State Fault Refusal :=
  match (getCtx s core ctx).status with
  | .blocked cause slot detail =>
    if cleared s core ctx cause slot detail then
      .next (modCtx s core ctx (fun v => { v with status := .ready, g := { v.g with solo := v.g.solo && decide (cause ≠ 104) } }))
    else .next s
  | _ => .next s

/-- The selector: the first ready context in round-robin order after the one that left (R150); a ready gang context goes first
(R153), but not the one that has just left the slot, when another is ready (R151). -/
def selectCtx (s : State) (core : Nat) : State :=
  let k := getCore s core
  if k.running.isSome ∨ s.t.now < k.nextIssue then s
  else
    let order := (List.range 4).map (fun i => (k.lastCtx + 1 + i) % 4)
    let ready (x : Nat) : Bool := let v := ctxOf k x; v.status = .ready && !oddOfPair core v && mayRun s v
    match (order.filter ready).find? (fun x => ofGang s (ctxOf k x) && !(x = k.lastCtx && s.t.now = k.nextIssue)) with
    | some x => modCore (modCtx s core x (fun v => { v with status := .running })) core (fun k => { k with running := some x, consec := 0 })
    | none => match order.find? ready with
      | some x => modCore (modCtx s core x (fun v => { v with status := .running })) core (fun k => { k with running := some x, consec := 0 })
      | none => s

/-- The running context gives up the slot and stays ready; one cycle passes (R151). -/
def yieldSlot (s : State) (core : Nat) : State :=
  match (getCore s core).running with
  | some x =>
    let s := modCtx s core x (fun v => { v with status := .ready, heldUntil := none, heldStage := 0 })
    modCore s core (fun k => { k with running := none, lastCtx := x, nextIssue := s.t.now + 1, consec := 0 })
  | none => s

/-- ISSUE_LIMIT_EXPIRY: 4,096 consecutive cycles while another context was ready, or a gang context ready beside a running
context of no gang (R151, R153); a context that a gang has just left the slot to issues first. -/
def execIssueLimitExpiry (core : Nat) (s : State) : Host.Outcome State Fault Refusal :=
  let k := getCore s core
  match k.running with
  | none => .next s
  | some x =>
    let ready (y : Nat) : Bool := y ≠ x && (ctxOf k y).status = .ready && !oddOfPair core (ctxOf k y) && mayRun s (ctxOf k y)
    let limit := k.consec ≥ 4096 && (List.range 4).any ready
    let gang := !ofGang s (ctxOf k x) && (List.range 4).any (fun y => ready y && ofGang s (ctxOf k y) && !(y = k.lastCtx && s.t.now = k.nextIssue))
    if (limit || gang) && (ctxOf k x).cast.isEmpty then
      let s := yieldSlot s core
      .next (if gang && !limit then modCore s core (fun k => { k with lastCtx := ((List.range 4).find? (fun y => ready y && ofGang s (ctxOf k y))).getD 0 + 3 }) else s)
    else .next s

/-! ## Results, domains, watches -/

/-- REGISTER_RESULT_LANDING: a result reaches its register (R203, R205, R307, R370). -/
def execRegisterResultLanding (core ctx id : Nat) (s : State) : Host.Outcome State Fault Refusal :=
  let v := getCtx s core ctx
  match v.landings.find? (fun l => l.id = id) with
  | none => .next s
  | some l =>
    if l.req.isSome ∨ s.t.now < l.due then .next s
    else
      let s := modCore s core (fun k =>
        let k := putDst k ctx l.dst l.val
        let w := ctxOf k ctx
        putCtx k ctx { w with landings := w.landings.filter (fun m => m.id ≠ id)
                              r := { raise w.r l.flags with olcnt := w.r.olcnt - (if l.load then 1 else 0) } })
      .next (match l.ue with
        | none => s
        | some (cls, cause, loc) => consumeOn s core ctx cls cause (ueData cls cause loc))

/-- DOMAIN_WAKE_COMPLETE: the domain is on; of one that was off, the registers read zero (R214). -/
def execDomainWakeComplete (core dom : Nat) (s : State) : Host.Outcome State Fault Refusal :=
  match domPower (getCore s core) dom with
  | .waking due fresh =>
    if due ≤ s.t.now then
      .next (modCore s core (fun k =>
        let k := if fresh then freshDomain k dom else k
        { k with vf := { k.vf with domains := smDel k.vf.domains dom } }))
    else .next s
  | _ => .next s

/-- WATCH_TRAP: the trap owed for a watch hit, at a bundle boundary (R97). The record names the access's bundle and slot; the
context goes on at its next bundle. -/
def execWatchTrap (core ctx : Nat) (s : State) : Host.Outcome State Fault Refusal :=
  let v := getCtx s core ctx
  match v.watchPending with
  | none => .next s
  | some (g, slot, b) =>
    if v.cast.isEmpty && (match v.status with
        | .ready => true
        | .running => true
        | .blocked k _ _ => decide (k ≠ 103)
        | _ => false) then
      let pc := v.r.pc
      let s := takeTrap (modCtx s core ctx (fun v => { v with watchPending := none })) core ctx 14 0 slot g b
      .next (modRegs s core ctx (fun r => { r with pc }))
    else .next s

/-- SAMPLE: the bundle that a core decodes in this cycle (R385). -/
def execSample (core : Nat) (s : State) : Host.Outcome State Fault Refusal :=
  match (getCore s core).lastDec with
  | some (t, x, pc, issued, slot, stall) =>
    if t = s.t.now then
      let v := getCtx s core x
      .next (bvRecord s 9 (queueOf s v)
        (agentOf core x + (if issued then 0 else min slot 7) * 2 ^ 9 + (if issued then 2 ^ 12 else 0) + (if issued then 0 else stall) * 2 ^ 13 + pc.toNat * 2 ^ 16))
    else .next s
  | none => .next s

/-! ## Gangs (R152) -/

/-- The skew of a rank (R152, R193). -/
def skewOf (hdr : BitVec 512) (rank : Nat) : Nat := bitsN hdr.toNat (8 * 24 + 4 * rank + 3) (8 * 24 + 4 * rank)

end Sys2Proof.Machine
end

