-- ==== Sys2Proof/Machine/Manage.lean ====
section
/-! DEFINITION. What firmware does to memories and mappings: diagnostic access, retirement, rebuild and drains of the
scratchpad; WAYPART, COMMIT, CMAPN and rollover writes; the swap engine and the bias flip (R12, R51 to R61, R73, R80 to R83,
R96, R98, R106). -/

namespace Sys2Proof.Machine

/-! ## Scratchpad diagnosis (R51, R55 to R61) -/

/-- The offset of a core position's scratchpad registers (R60). -/
def spBase (core : Nat) : Nat := 0x1000000 + 0x40000 * core
/-- Bank and row that DIAGSEL names. -/
def diagSel (s : State) (core : Nat) : Nat × Nat := let v := (creg s (spBase core + 0x100)).toNat; (bitsN v 5 0, bitsN v 16 8)

/-- Whether a job holds the group of the bank that DIAGSEL names (R61). -/
def diagHeld (s : State) (core : Nat) : Bool := (getGrp (getCore s core) (grpOf (diagSel s core).1)).held.isSome

/-- A row as its cells hold it: where an error stands in it, which bits are wrong is open (R40, R60). -/
def rawRowOf (s : State) (core b r : Nat) : Wide × State :=
  let k := getCore s core
  if badRow k b r || softRow k b r then let (n, s) := draw s; (Config.rawRow n (rowOf k b r), s) else (rowOf k b r, s)

/-- DIAGDATA_READ: the selected row without correction, to the firmware complex and to secure application cores (R60, R61, R393). -/
def execDiagdataRead (w : Writer) (core : Nat) (s : State) : Host.Outcome State Fault Refusal :=
  let (b, r) := diagSel s core
  if ¬ (w = .firmware ∨ w = .app true) ∨ core ≥ 80 ∨ diagHeld s core = true then .next (respond s .error)
  else
    let (v, s) := rawRowOf s core b r
    .next (respond (modCore s core (fun k => busyParity k s.t.now (grpOf b))) (.value v))

/-- DIAGDATA_WRITE: the selected row with fresh check bits; parity is not updated (R60, R61). -/
def execDiagdataWrite (w : Writer) (core : Nat) (v : Wide) (s : State) : Host.Outcome State Fault Refusal :=
  let (b, r) := diagSel s core
  if w ≠ .firmware ∨ core ≥ 80 ∨ diagHeld s core = true then .next (respond s .error)
  else .next (respond (modCore s core (fun k => putRow (busyParity k s.t.now (grpOf b)) b r v)) .ok)

/-- CECNT_CLEAR: any write clears the counter (R60). -/
def execCecntClear (w : Writer) (core bank : Nat) (s : State) : Host.Outcome State Fault Refusal :=
  if w ≠ .firmware ∨ core ≥ 80 ∨ bank ≥ 40 then .next (respond s .error)
  else .next (respond (modCore s core (fun k => { k with sp := { k.sp with cecnt := smDel k.sp.cecnt bank } })) .ok)

/-- Whether a GCTL value may be written to a group as it stands (R55, R58 to R61). -/
def gctlOk (v : Group) (n : Nat) : Bool :=
  let fmt := bitsN n 3 0
  let reten := bitN n 4
  let retb : BitVec 2 := BitVec.ofNat 2 (bitsN n 6 5)
  let pret := bitN n 7
  let rebuild := bitN n 8
  let dis := bitN n 9
  n < 2 ^ 10 && fmtOk fmt
  && !(v.held.isSome && fmt ≠ v.fmt.toNat)
  && (!reten || (match v.retWritten with
      | some b => b = retb
      | none => !v.pretWritten && !v.plost && !pret))
  && (!pret || v.retWritten.isNone)
  && (!rebuild || (!v.held.isSome && !v.pretWritten && !pret && v.retWritten.isNone && !reten && v.rebuild.isNone))
  && (!dis || !v.held.isSome || v.dis)

/-- A write of GCTLg (R60): refused whole, or taken whole. -/
def writeGctl (w : Writer) (core g n : Nat) (s : State) : State :=
  let v := getGrp (getCore s core) g
  if w ≠ .firmware ∨ core ≥ 80 ∨ g ≥ 8 ∨ gctlOk v n = false then respond s .error
  else respond (modCore s core (fun k => modGrp k g (fun v => { v with
    fmt := BitVec.ofNat 4 n
    retWritten := if bitN n 4 then some (BitVec.ofNat 2 (bitsN n 6 5)) else v.retWritten
    pretWritten := v.pretWritten || bitN n 7
    rebuild := if bitN n 8 then some 0 else v.rebuild
    dis := v.dis || bitN n 9 }))) .ok

/-- The format in force, which a write of another field repeats. -/
def fmtNow (s : State) (core g : Nat) : Nat := (getGrp (getCore s core) g).fmt.toNat

/-- GCTL_FORMAT_WRITE (R61, R62). -/
def execGctlFormatWrite (w : Writer) (core grp : Nat) (fmt : BitVec 4) (s : State) : Host.Outcome State Fault Refusal :=
  .next (writeGctl w core grp fmt.toNat s)
/-- RETIRE_DATA_BANK (R55). -/
def execRetireDataBank (w : Writer) (core grp : Nat) (retb : BitVec 2) (s : State) : Host.Outcome State Fault Refusal :=
  .next (writeGctl w core grp (fmtNow s core grp + 2 ^ 4 + retb.toNat * 2 ^ 5) s)
/-- RETIRE_PARITY_BANK (R55). -/
def execRetireParityBank (w : Writer) (core grp : Nat) (s : State) : Host.Outcome State Fault Refusal :=
  .next (writeGctl w core grp (fmtNow s core grp + 2 ^ 7) s)
/-- REBUILD: of a group's parity (R58). -/
def execRebuild (w : Writer) (core grp : Nat) (s : State) : Host.Outcome State Fault Refusal :=
  .next (writeGctl w core grp (fmtNow s core grp + 2 ^ 8) s)
/-- GROUP_DISABLE (R59). -/
def execGroupDisable (w : Writer) (core grp : Nat) (s : State) : Host.Outcome State Fault Refusal :=
  .next (writeGctl w core grp (fmtNow s core grp + 2 ^ 9) s)

/-- RETIREMENT_EFFECT: an accepted retirement takes effect once the group's queue is empty (R55). A rebuild that runs ends there: the
retired bank is never read again (R56; the model's choice, in the assumption log). -/
def execRetirementEffect (core grp : Nat) (s : State) : Host.Outcome State Fault Refusal :=
  let v := getGrp (getCore s core) grp
  if v.queue = [] then
    .next (modCore s core (fun k => modGrp k grp (fun v => { v with ret := v.retWritten, pret := v.pretWritten, rebuild := none })))
  else .next s

/-- REBUILD_ROW_STEP: one row of parity recomputed; after the last PLOST is clear (R58), and PLROW with it (the model's choice, in the
assumption log). -/
def execRebuildRowStep (core grp : Nat) (s : State) : Host.Outcome State Fault Refusal :=
  match (getGrp (getCore s core) grp).rebuild with
  | none => .next s
  | some r =>
    .next (modCore s core (fun k =>
      let k := (List.range 4).foldl (fun k i => countCE k (4 * grp + i) r) k
      let k := putRow (busyParity k s.t.now grp) (32 + grp) r (xorOthers k grp 64 r)
      modGrp k grp (fun v => if r + 1 ≥ 512 then { v with rebuild := none, plost := false, plrow := 0 } else { v with rebuild := some (r + 1) })))

/-- PARITY_DRAIN: the head entry of a group's queue goes into its parity row while the parity bank is idle (R51, R58). -/
def execParityDrain (core grp : Nat) (s : State) : Host.Outcome State Fault Refusal :=
  let k := getCore s core
  let v := getGrp k grp
  match v.queue with
  | [] => .next s
  | e :: q =>
    if v.busyAt = some s.t.now ∨ s.t.now ≤ e.at_ then .next s
    else
      let lost := badRow k (32 + grp) e.row
      let s := modCore s core (fun k =>
        let k := putRow (countCE k (32 + grp) e.row) (32 + grp) e.row (rowOf k (32 + grp) e.row ^^^ e.delta)
        modGrp k grp (fun v => { v with queue := q, plost := v.plost || lost, plrow := if lost then e.row else v.plrow }))
      .next (if lost then bvStopOnEvent (postEvent s 7 none 0 (Config.eventData 7 [32 + grp, e.row]).toNat) 3 else s)

/-! ## Clusters and clocks (R12, R73, R80, R106) -/

/-- CMAPN_WRITE (R11, R12). -/
def execCmapnWrite (w : Writer) (cl : Nat) (v : BitVec 32) (s : State) : Host.Outcome State Fault Refusal :=
  let fs := (List.range 8).map (fun i => bitsN v.toNat (4 * i + 3) (4 * i))
  if w ≠ .firmware ∨ cl ≥ 10 ∨ fs.any (· > 8) = true ∨ ¬ fs.Nodup then .next (respond s .error)
  else .next (respond (modCl s cl (fun c => { c with cmapn := v })) .ok)

/-- WAYPART_WRITE: through the cluster block (R19, R73). -/
def execWaypartWrite (w : Writer) (cl : Nat) (v : Word) (s : State) : Host.Outcome State Fault Refusal :=
  let c := getCl s cl
  if w ≠ .firmware ∨ cl ≥ 10 ∨ waypartOk v.toNat = false ∨ c.sweep.isSome = true then .next (respond s .error)
  else .next (respond (if v.toNat = c.present then s else setCl s cl { c with wayNew := some v.toNat }) .ok)

/-- The first cycle after a cycle whose count is a multiple of 64. -/
def nextPeriod (now : Nat) : Nat := now + 64 - now % 64
/-- The lines that a flip to the host takes from the slices. -/
def flipLine (f : Flip) (t : LineTag) : Bool := t.line / 128 = f.frame
/-- The cluster slices write back and invalidate lines of a flipping frame, as fast as their write-back buffers take them (R71, R98). -/
def flushFlip (s : State) (f : Flip) : State :=
  (List.range 10).foldl (fun s n => if unflushed (getCl s n) (flipLine f) then modCl s n (fun c => flushWhere c s.t.now (flipLine f)) else s) s

/-- COMMIT: of a cluster's timetables, or (block 10) of the pseudo-channels' (R80). -/
def execCommit (w : Writer) (blk : Nat) (s : State) : Host.Outcome State Fault Refusal :=
  if w ≠ .firmware ∨ blk > 10 then .next (respond s .error)
  else
    let b := nextPeriod s.t.now
    let s := if blk < 10 then modCl s blk (fun c => { c with commitAt := some (c.commitAt.getD b) })
      else { s with x := { s.x with hbmCommit := some (s.x.hbmCommit.getD b) } }
    .next (respond (schedule s (b - 1) (.timetableSwitch blk)) .ok)

/-- ROLLOVER_REQUEST: a write of ROLL (R106). -/
def execRolloverRequest (w : Writer) (s : State) : Host.Outcome State Fault Refusal :=
  if w ≠ .firmware then .next (respond s .error)
  else if s.c.rollReq.isSome ∨ s.c.rollEnd.isSome then .next (respond s .ok)
  else .next (respond { s with c := { s.c with rollReq := some (nextPeriod s.t.now) } } .ok)

/-! ## The swap engine (R82, R83, R96) -/

/-- Entries of the swap ring. -/
def swSize (s : State) : Nat := 2 ^ cfield s 0x310000 63 56
/-- The address of the command at an index. -/
def swAddr (s : State) (i : Nat) : Nat := bitsN (creg s 0x310000).toNat 51 5 * 32 + 32 * i

/-- SWAP_TAIL_WRITE (R82). -/
def execSwapTailWrite (w : Writer) (v : BitVec 12) (s : State) : Host.Outcome State Fault Refusal :=
  if w ≠ .firmware ∨ v.toNat ≥ swSize s then .next (respond s .error)
  else .next (respond { s with x := { s.x with swTail := v.toNat } } .ok)

/-- Whether a frame stands in HBM or in a present window part. -/
def frameHere (s : State) (f : Nat) : Bool :=
  let a := f * frameBytes
  match regionOf a with
  | .hbm => true
  | .window => decide ((windowOf a).2 < 0x100000 * (getCl s (windowOf a).1).present)
  | _ => false

/-- The status with which the command at the head ends, and the head's advance. -/
def swapEnds (s : State) (code : Nat) : State :=
  let s := partWrite s (swAddr s s.x.swHead + 24) code 1
  { s with x := { s.x with swHead := (s.x.swHead + 1) % swSize s, swap := none } }

/-- The entries of a command, in ascending address order. -/
def SwapJob.entries (j : SwapJob) : List Nat := if j.exchange then (if j.entB < j.entA then [j.entB, j.entA] else [j.entA, j.entB]) else [j.entA]

/-- The code of the first failing check of step 1, none when all pass. -/
def swapCheck (s : State) (op : Nat) (j : SwapJob) : Option Nat :=
  let bad (a : Nat) : Bool := let e := readEntry s a; entPeer e || !entP e || !frameHere s (entFrame e)
  if op ≠ 1 ∧ op ≠ 2 then some 2
  else if j.entries.any bad then some 2
  else if j.exchange && entOwner (readEntry s j.entA) ≠ entOwner (readEntry s j.entB) then some 5
  else if j.exchange then none
  else
    let a := j.newF * frameBytes
    match regionOf a with
    | .hbm => none
    | .window => if frameHere s j.newF then none else some 4
    | _ => some 2

/-- SWAP_COMMAND: the engine takes the next command of its ring and checks it (R83 step 1). -/
def execSwapCommand (s : State) : Host.Outcome State Fault Refusal :=
  if s.x.swap.isSome ∨ s.x.swHead = s.x.swTail then .next s
  else
    let a := swAddr s s.x.swHead
    let word (i : Nat) : Nat := leNat (fun x => (newestByte s x).toNat) (a + 8 * i) 8
    let op := word 0 % 4
    let j : SwapJob := { exchange := op = 2, entA := bitsN (word 1) 51 4 * 16, entB := bitsN (word 2) 51 4 * 16, newF := bitsN (word 2) 37 0 }
    match swapCheck s op j with
    | some c => .next (swapEnds s c)
    | none =>
      .next (dropIdle { s with x := { s.x with swap := some j, drains := s.x.drains ++ [j.entries.headD 0] } })

/-- The frames that a command exchanges or copies: from, to, owner, key of each tile. -/
def swapMoves (s : State) (j : SwapJob) : List (Nat × Nat × Nat × Nat) :=
  let e (a : Nat) : BitVec 128 := readEntry s a
  if j.exchange then
    [(entFrame (e j.entA), entFrame (e j.entB), entOwner (e j.entA), entKey (e j.entA)),
     (entFrame (e j.entB), entFrame (e j.entA), entOwner (e j.entB), entKey (e j.entB))]
  else [(entFrame (e j.entA), j.newF, entOwner (e j.entA), entKey (e j.entA))]

/-- SWAP_MARK: the next entry of the command, once no unit holds it, is marked migrating; after the last one the copy starts
(R83 step 2, R96). `due` is the path of the copy. -/
def execSwapMark (s : State) : Host.Outcome State Fault Refusal :=
  match s.x.swap with
  | none => .next s
  | some j =>
    if j.marked then .next s
    else match j.entries.find? (fun a => entMig (readEntry s a) ≠ 1) with
      | none => .next s
      | some a =>
        let s := dropIdle s
        let e := readEntry s a
        if entMig e ≠ 0 ∨ entRd e ≠ 0 then .next s
        else
          let s := setMig s a 1
          let s := { s with x := { s.x with drains := s.x.drains.erase a } }
          match j.entries.find? (fun b => entMig (readEntry s b) ≠ 1) with
          | some b => .next (dropIdle { s with x := { s.x with drains := s.x.drains ++ [b] } })
          | none =>
            let ms := swapMoves s j
            let lines := ms.flatMap (fun m => (List.range 128).flatMap (fun i => [m.1 * frameBytes + 128 * i, m.2.1 * frameBytes + 128 * i]))
            let part := (ms.headD (0, 0, 0, 0)).2.2.1
            let (k, s) := startPath s part none s.t.now none lines
            .next { s with x := { s.x with swap := some { j with marked := true, due := k } } }

/-- A move of a tile: the frames from and to, the owner and the key (as `swapMoves` lists them). -/
abbrev Moved := Nat × Nat × Nat × Nat

/-- Where a cell of a moving frame comes to stand, and how it reads under the tile's key there. -/
def movedCell (s : State) (m : Moved) (b : Host.Cell) : Host.Cell :=
  (m.2.1 * frameBytes + b.1 % frameBytes, underKey s (matAt s b.1 m.2.2.2) b.1 b.2)

/-- Cells after tiles have moved: those of the frames that move, at their new places; of other cells those that none overwrites. -/
def movedCells (s : State) (ms : List Moved) (bs : List Host.Cell) : List Host.Cell :=
  bs.flatMap (fun b => (ms.filter (fun m => b.1 / frameBytes = m.1)).map (fun m => movedCell s m b)
    ++ (if ms.any (fun m => b.1 / frameBytes = m.1 || b.1 / frameBytes = m.2.1) then [] else [b]))

/-- Tiles stand in other frames: their bytes, the versions of them that are not yet published, and their stamps go with them; leased
copies of the frames end (R83, R118). -/
def moveFrames (s : State) (ms : List Moved) : State :=
  let cells := ms.flatMap (fun m => (List.range frameBytes).map (fun i =>
    movedCell s m (m.1 * frameBytes + i, rdByte s.c.mem (m.1 * frameBytes + i))))
  let lines := ms.flatMap (fun m => (List.range 128).map (fun i => (m, m.1 * 128 + i, m.2.1 * 128 + i)))
  let near (n : Nat) : Bool := ms.any (fun m => n / 128 = m.1 || n / 128 = m.2.1)
  { s with c := { s.c with
    mem := cells.foldl (fun m b => wrByte m b.1 b.2) s.c.mem
    versions := s.c.versions.map (fun v => { v with bytes := movedCells s ms v.bytes })
    stamps := lines.foldl (fun t l => smPut t l.2.2 (stampOf s l.2.1)) s.c.stamps
    leases := s.c.leases.filter (fun l => !near l.line)
    lineKeys := lines.foldl (fun t l => let m := matAt s (l.2.2 * 128) l.1.2.2.2; if m = 0 then smDel t l.2.2 else smPut t l.2.2 m) s.c.lineKeys
    poison := lines.foldl (fun t l => smDel t l.2.2) s.c.poison } }

/-- The target frame of a failed move: each of its bytes is a fresh free value under the tile's key (R83). -/
def spoilFrame (s : State) (m : Moved) : State :=
  let (k, s) := draw s
  let lines := (List.range 128).map (fun i => m.2.1 * 128 + i)
  let mat := matAt s (m.2.1 * frameBytes) m.2.2.2
  let s := storeAll s ((List.range frameBytes).map (fun i => (m.2.1 * frameBytes + i, Config.undefinedByte (k * frameBytes + i))))
  { s with c := { s.c with
    leases := s.c.leases.filter (fun l => l.line / 128 ≠ m.2.1)
    lineKeys := lines.foldl (fun t l => if mat = 0 then smDel t l else smPut t l mat) s.c.lineKeys
    poison := lines.foldl smDel s.c.poison } }

/-- An image of `n` bytes is written: the manual gives what its sections hold and not their layout, so each byte is a fresh free value;
the state keeps what the image holds (R358, R360). -/
def imageWrite (s : State) (a n : Nat) : State :=
  let (k, s) := draw s
  let inside (line : Nat) : Bool := a / 128 ≤ line && line ≤ (a + n - 1) / 128
  let s := storeAll s ((List.range n).map (fun i => (a + i, Config.imageByte k i)))
  { s with c := { s.c with
    lineKeys := s.c.lineKeys.filter (fun p => !inside p.1), poison := s.c.poison.filter (fun p => !inside p.1)
    leases := s.c.leases.filter (fun l => !inside l.line) } }

/-- SWAP_COPY_COMPLETE: the tiles stand in their new frames, or the command failed (R83 steps 3 to 5). -/
def execSwapCopyComplete (s : State) : Host.Outcome State Fault Refusal :=
  match s.x.swap with
  | none => .next s
  | some j =>
    if !j.marked || !arrived s j.due then .next s
    else
      let s := dropTicket s j.due
      let ms := swapMoves s j
      let unmark (s : State) : State := j.entries.foldl (fun s a => setMig s a 0) s
      let ue := ms.any (fun m => (List.range 128).any (fun i => smGet false s.c.poison (m.1 * 128 + i)))
      let gone := ms.any (fun m => !frameHere s m.1 || !frameHere s m.2.1)
      if ue || gone then
        let s := if ue then bvStopOnEvent (postEvent s 7 none 0 ((ms.headD (0, 0, 0, 0)).1 * 128)) 3 else s
        let s := ms.foldl (fun s m => if frameHere s m.2.1 then spoilFrame s m else s) s
        .next (swapEnds (unmark s) (if ue then 3 else 4))
      else
        let s := moveFrames s ms
        let setFrame (s : State) (a f : Nat) : State :=
          let e := (readEntry s a).toNat
          partWrite s a (e % 2 ^ 22 + f * 2 ^ 22 + bitsN e 63 60 * 2 ^ 60) 8
        let s := match ms with
          | [a, b] => setFrame (setFrame s j.entA a.2.1) j.entB b.2.1
          | a :: _ => setFrame s j.entA a.2.1
          | [] => s
        .next (swapEnds (unmark s) 1)

/-! ## The bias flip (R98) -/

/-- BIAS_FLIP: a write of BFCMD starts a flip of the frame that an entry maps (R98 steps 1 and 2). -/
def execBiasFlip (w : Writer) (entry : Nat) (s : State) : Host.Outcome State Fault Refusal :=
  if w ≠ .firmware ∨ s.x.flip.isSome ∨ entry % 16 ≠ 0 then .next (respond s .error)
  else
    let e := readEntry s entry
    let f := entFrame e
    let bit := smGet false s.x.bias f
    if entPeer e = true ∨ entP e = false ∨ regionOf (f * frameBytes) ≠ .hbm ∨ entBias e ≠ bit then
      .next (respond { s with x := { s.x with flipFail := 2 } } .ok)
    else
      let fl : Flip := { entry, frame := f, toHost := !bit, phase := 1 }
      .next (respond (dropIdle { s with x := { s.x with flipFail := 0, flip := some fl, drains := s.x.drains ++ [entry] } }) .ok)

/-- BIAS_FLIP_MARK: no unit holds the entry; it is marked, and the losing side drains (R98 steps 2 and 3). -/
def execBiasFlipMark (s : State) : Host.Outcome State Fault Refusal :=
  match s.x.flip with
  | none => .next s
  | some f =>
    let s := dropIdle s
    let e := readEntry s f.entry
    if f.phase ≠ 1 ∨ entMig e ≠ 0 ∨ entRd e ≠ 0 then .next s
    else
      let s := setMig s f.entry 2
      let (k, s) := draw s
      let due := if f.toHost then s.t.now else s.t.now + Config.hostDrainCycles k
      let s := { s with x := { s.x with drains := s.x.drains.erase f.entry, flip := some { f with phase := 2, due } } }
      .next (if f.toHost then flushFlip s f else s)

/-- BIAS_FLIP_INVERT: the losing side has drained; the frame's bit turns and firmware is told (R98 step 4, R353). -/
def execBiasFlipInvert (s : State) : Host.Outcome State Fault Refusal :=
  match s.x.flip with
  | none => .next s
  | some f =>
    let flushed := (List.range 10).all (fun n => !unflushed (getCl s n) (flipLine f) && (getCl s n).wb.all (fun e => e.line / 128 ≠ f.frame))
    if f.phase ≠ 2 ∨ s.t.now < f.due then .next s
    else if f.toHost && !flushed then .next (flushFlip s f)
    else
      let s := { s with x := { s.x with bias := cmPut false s.x.bias f.frame f.toHost, flip := some { f with phase := 3 } } }
      .next (postEvent s 10 none 0 f.entry)

/-- BIAS_FLIP_END: a write of BFEND (R98 step 5). -/
def execBiasFlipEnd (w : Writer) (s : State) : Host.Outcome State Fault Refusal :=
  match s.x.flip with
  | some f =>
    if w ≠ .firmware ∨ f.phase ≠ 3 then .next (respond s .error)
    else .next (respond (setMig { s with x := { s.x with flip := none } } f.entry 0) .ok)
  | none => .next (respond s .error)

end Sys2Proof.Machine
end

