-- ==== Sys2Proof/Machine/Gang.lean ====
section
/-! DEFINITION. The cluster sequencer of a gang: what its members will be able to issue when a bundle reaches them, their common
decisions, and the sending of bundles (R152 to R155, R162, R163). -/

namespace Sys2Proof.Machine

/-! ## What a member will find (R153) -/

/-- The state that a step leaves; every step of the machine's own leaves one. -/
def stateAfter (s : State) : Host.Outcome State Fault Refusal → State
  | .next t => t
  | _ => s

/-- Apply a step for each element of a list. -/
def stepsOver {α : Type} (l : List α) (f : α → State → Host.Outcome State Fault Refusal) (s : State) : State :=
  l.foldl (fun s a => stateAfter s (f a s)) s

/-- What a core's own engines do in a cycle: parity drains, crossbar operations, beats, results, accesses that come back and domains
that wake. -/
def ownEngines (s : State) (c x : Nat) : State :=
  let s := stepsOver ((List.range 8).filter (fun g => (getGrp (getCore s c) g).queue ≠ [])) (fun g => execParityDrain c g) s
  let s := stepsOver ((getCore s c).xb.xq.filter (fun o => o.start.isNone)) (fun o => execXbarOpStart c o.id) s
  let s := if (getCore s c).mx.beats.any (fun b => b.due ≤ s.t.now) then stateAfter s (execBeatLanding c s) else s
  let s := stepsOver ((getCore s c).xb.xq.filter (fun o => o.start.isSome)) (fun o => match o.kind with
    | .xmvm => execXmvmLanding c o.id
    | _ => execXbarOpComplete c o.id) s
  let s := stepsOver ((getCtx s c x).landings.filter (fun l => l.req.isNone && l.due ≤ s.t.now)) (fun l => execRegisterResultLanding c x l.id) s
  let s := stepsOver (reqsOf s (fun r => r.core = c && r.ctx = x && r.fe.isNone && accessBack s r)) execCoherentAccessComplete s
  stepsOver ((getCore s c).vf.domains.map (·.1)) (fun d => execDomainWakeComplete c d) s

/-- A member's own work of one cycle after the sequencer's turn in it, up to the sequencer's turn in the next. -/
def ownCycle (s : State) (c x : Nat) : State :=
  let s := match (getCtx s c x).cast with
    | b :: _ => if b.at_ ≤ s.t.now then issueCast s c x else s
    | [] => s
  let s := ownEngines s c x
  selectCtx { s with t := { s.t with now := s.t.now + 1 } } c

/-- The state as a member will find it after some cycles of its own work. What others do meanwhile is not foreseen (the model's
choice, in the assumption log). -/
def forecast (s : State) (c x : Nat) : Nat → State
  | 0 => s
  | n + 1 => forecast (ownCycle s c x) c x n

/-! ## Decisions (R154) -/

/-- What a member's bundle decides (R154): whether a B operation issues, with which counts, and where control goes; the guards of the
other slots do not count. -/
def decision (s : State) (c x : Nat) (ops : List SlotOp) : List Nat × Option (Nat × BitVec 32) × BitVec 32 × List LoopLvl × Option (BitVec 3) :=
  let v := getCtx s c x
  let live := ops.filter (fun o => guardOf o.h v.r && o.flow ≠ .none && o.flow ≠ .fallback)
  let e := envOf s c x ops []
  let part := ops.filter (fun o => o.flow ≠ .none && o.flow ≠ .sync)
  let s1 := effects s c x part [] (modRegs s c x settlePops)
  let s2 := if closes v.r then modRegs s1 c x loopClose else s1
  let r := (getCtx (finishFlow s2 c x) c x).r
  (live.map (fun o => if o.flow = .sync then 1 else o.key e), r.redirect, r.pc, r.loops, r.pend)

/-- While one member of a gang waits, the others wait with it and leave their cores to their siblings, once they have issued what they
were sent (R153). Where it waits at a barrier or HALT, they have arrived there too (R162, R163). -/
def waitWithGang (s : State) (x : Nat) (ms : List Nat) : State :=
  ms.foldl (fun s m =>
    let v := getCtx s m x
    let there := ms.any (fun k => let w := getCtx s k x; w.rdvAt = some v.r.pc && w.rdvCount = v.rdvCount)
    if v.status = .running ∧ v.cast = [] then
      let s := modCtx s m x (fun v => { v with rdvAt := if there then some v.r.pc else v.rdvAt })
      leaveSlot (stalled s m x 255 (stallOf 106)) m x (.blocked 106 255 0)
    else s) s

/-- A gang-divergence trap on every member (R154). -/
def diverge (s : State) (ms : List Nat) (x : Nat) : State :=
  match ms with
  | [] => s
  | m :: _ =>
    let t : StopTrap := { cls := 8, cause := 0, slot := 255, detail := 0, origin := 0 }
    let s := (siblings s m x).foldl (fun s k => stopLater s k x t (getCtx s k x).r.pc 0) s
    let v := getCtx s m x
    let s := stopLater s m x t v.r.pc 0
    let s := bvRecord s 7 (queueOf s v) (agentOf m x + 8 * 2 ^ 16 + v.r.pc.toNat * 2 ^ 32 + 7 * 2 ^ 64)
    postEvent (bvStopOnEvent s 1) 11 (queueOf s v) v.j.part (Config.eventData 11 [agentOf m x, 8, 0]).toNat

/-! ## Sending (R152, R153) -/

/-- A member with the bundle as it will find it: core, skew, state then, and what the slots do. -/
structure Seat where
  core : Nat
  skew : Nat
  at_ : State
  ops : List SlotOp

/-- A member's part in a decode: the trap it raises, as core, class, sub-cause, slot and detail. -/
def trapsOf (l : List (Nat × Judge)) : List (Nat × Nat × Nat × Nat × Nat) :=
  l.filterMap (fun p => match p.2 with
    | .trap cls cause slot detail => some (p.1, cls, cause, slot, detail)
    | _ => none)
/-- The members that block. -/
def blocksOf (l : List (Nat × Judge)) : List (Nat × Nat × Nat × Nat) :=
  l.filterMap (fun p => match p.2 with
    | .block cause slot detail => some (p.1, cause, slot, detail)
    | _ => none)

/-- Whether a member's bundle posts a system event. -/
def seatPosts (x : Nat) (t : Seat) : Bool := t.ops.any (fun o => o.posts && guardOf o.h (getCtx t.at_ t.core x).r)

/-- Steps 1 to 4 of R433 for every member; system events need a place each, beside those of bundles on their way (R263). -/
def judgeFronts (s : State) (x : Nat) (ts : List Seat) : List (Nat × Judge) :=
  let owed := (ts.map (fun t => ((getCtx s t.core x).cast.filter (·.posts)).length)).foldl (· + ·) 0
  let free := if s.w.backlog = [] then 1024 - s.w.events.length else 0
  (ts.foldl (fun (a : List (Nat × Judge) × Nat) t => match judgeFront t.at_ t.core x t.ops with
    | some j => (a.1 ++ [(t.core, j)], a.2)
    | none =>
      if seatPosts x t then (if a.2 < free then a.1 else a.1 ++ [(t.core, .block 101 6 0)], a.2 + 1) else a) ([], owed)).1

/-- Members block; those that have nothing left to issue leave their cores, and the others of the gang with them (R153). -/
def blockMembers (s : State) (id x : Nat) (ms : List Nat) (l : List (Nat × Nat × Nat × Nat)) : State :=
  let now := l.filter (fun b => (getCtx s b.1 x).cast = [])
  let s := modJob s id (fun j => { j with castStage := 0 })
  let s := l.foldl (fun s b => stalled s b.1 x b.2.2.1 (stallOf b.2.1)) s
  let s := now.foldl (fun s b => blockCtx s b.1 x b.2.1 b.2.2.1 b.2.2.2) s
  if now = [] then s else waitWithGang s x ms

/-- The whole gang is held for a member's sake: parity groups stay as they were judged (R46, R47, R211). -/
def holdGang (s : State) (id x n stage : Nat) (ts : List Seat) : State :=
  let s := modJob s id (fun j => { j with nextSend := s.t.now + n, castStage := max stage j.castStage })
  ts.foldl (fun s t => modCore (modCtx s t.core x (fun v => { v with heldGrps := heldGroups t.at_ t.core x t.ops })) t.core (fun k => { k with consec := 0 })) s

/-- The bundle leaves the sequencer: each member issues it after its skew. Where it stops a member of itself, at a barrier, a yield, an
end or the acceptance of a copy, the next leaves only after every member has issued it. -/
def sendBundle (s : State) (id : Nat) (j : Job) (ts : List Seat) (words : List (BitVec 32)) : State :=
  let x := j.ctx
  let after (t : Seat) : State := issueBundle t.at_ t.core x t.ops [] words
  let count (s : State) (t : Seat) : Nat := (getCtx s t.core x).rdvCount
  let bar := ts.any (fun t => decide (count (after t) t ≠ count t.at_ t))
  let stops := bar || ts.any (fun t => decide ((getCtx (after t) t.core x).status ≠ .running))
  let last := ts.foldl (fun n t => max n t.skew) 0
  let s := modJob s id (fun j => { j with nextSend := s.t.now + 1 + (if stops then last else 0), castStage := 0, atBarrier := bar })
  ts.foldl (fun s t => modCtx s t.core x (fun v => { v with
    heldGrps := [], cast := v.cast ++ [{ at_ := s.t.now + t.skew, grps := heldGroups t.at_ t.core x t.ops, posts := seatPosts x t }] })) s

/-- The sequencer's decode of a gang's bundle on the members that it moves, each as it will stand when the bundle reaches it. -/
def castBundle (s : State) (id : Nat) (j : Job) (ts : List Seat) (words : List (BitVec 32)) : State :=
  let x := j.ctx
  let ms := ts.map (·.core)
  let trapAll (l : List (Nat × Nat × Nat × Nat × Nat)) (s : State) : State := match l with
    | (m, cls, cause, slot, detail) :: own => takeTrap s m x cls cause slot detail (getCtx s m x).r.pc 0 own
    | [] => s
  let fronts := judgeFronts s x ts
  if trapsOf fronts ≠ [] then trapAll (trapsOf fronts) s
  else if fronts ≠ [] then blockMembers s id x ms (blocksOf fronts)
  else if (ts.map (fun t => decision t.at_ t.core x t.ops)).eraseDups.length > 1 then diverge s ms x
  else
    let backs := ts.map (fun t => (t.core, judgeBack t.at_ t.core x t.ops j.castStage))
    let traps := trapsOf backs
    let hold := backs.foldl (fun (h : Nat × Nat) p => match p.2 with
      | .hold n st => (max h.1 n, max h.2 st)
      | _ => h) (0, 0)
    let bubbles := ts.filter (fun t => t.ops.any (·.heavy) && (getCore t.at_ t.core).phi < (getCore t.at_ t.core).thrl.toNat)
    if traps.any (fun p => p.2.1 ≠ 13) then trapAll (traps.filter (fun p => p.2.1 ≠ 13)) s
    else if blocksOf backs ≠ [] then blockMembers s id x ms (blocksOf backs)
    else if hold.1 > 0 then
      (ts.zip backs).foldl (fun s p => match p.2.2 with
        | .hold _ st => stalled s p.1.core x (holdSlot p.1.at_ p.1.core x p.1.ops j.castStage st) (holdStall st)
        | _ => s) (holdGang s id x hold.1 hold.2 ts)
    else if bubbles ≠ [] then
      bubbles.foldl (fun s t => stalled (modCore s t.core (fun k => { k with phi := (k.phi + 1) % 8 })) t.core x (holdSlot t.at_ t.core x t.ops 2 2) 6)
        (holdGang s id x 1 2 ts)
    else
      let fired := traps ++ ts.filterMap (fun t => (comparator t.at_ t.core x words).map (fun q => (t.core, 13, 0, q.2, 0x1000 + q.1)))
      if fired ≠ [] then trapAll fired s
      else sendBundle s id j ts words

/-- Whether a member can be sent a bundle: it will stand ready to issue on its core, and nothing is about to stop it. -/
def canTake (s : State) (x : Nat) (m : Nat) (f : State) : Bool :=
  let k := getCore f m
  let v := getCtx f m x
  let w := getCtx s m x
  k.running = some x && v.status = .running && v.cast = [] && k.nextIssue ≤ f.t.now && mayRun f v && (followDue f m).isNone
  && w.watchPending.isNone && w.stopWith.isNone && !(decide ((getCore s m).consec ≥ 4096) && otherReady s m x)

/-- GANG_BUNDLE_SEND: the cluster sequencer sends the next bundle at the earliest cycle at which every member it moves can issue it
after its skew (R153). -/
def execGangBundleSend (job : Nat) (s : State) : Host.Outcome State Fault Refusal :=
  let j := getJob s job
  let x := j.ctx
  let ms := castMembers s j
  let waits (m : Nat) : Bool := match (getCtx s m x).status with
    | .blocked k _ _ => decide (k ≠ 106)
    | _ => false
  if !j.gang || ms = [] || j.members.any (fun m => decide ((getCtx s m x).status = .trapped)) then .next s
  else if ms.any waits || (j.atBarrier && s.t.now < j.nextSend) then .next (waitWithGang s x ms)
  else if s.t.now < j.nextSend then .next s
  else
    let skew (m : Nat) : Nat := skewOf j.hdr (getCtx s m x).j.rank
    let at_ (m : Nat) : State := forecast s m x (skew m)
    if !ms.all (fun m => canTake s x m (at_ m)) then .next s
    else
      let m0 := ms.headD 0
      let v := getCtx (at_ m0) m0 x
      let code := codeOfP v.j
      if !codeHas s code (32 * v.r.pc.toNat) 32 then .next (takeTrap s m0 x 1 3 255 0 v.r.pc)
      else if !cacheHas (getCore s (fetchCore s m0 x)) v.j.code.toNat v.r.pc then
        .next (blockMembers (startFetch s m0 x v.r.pc) job x ms [(m0, 105, 255, 0)])
      else
        let words := bundleWords s code v.r.pc
        .next (castBundle s job j (ms.map (fun m => { core := m, skew := skew m, at_ := at_ m, ops := slotsFrom (getCtx (at_ m) m x).r.donemask 0 words })) words)

end Sys2Proof.Machine
end

