-- ==== Sys2Proof/Machine/Wagon.lean ====
section
/-! DEFINITION. Wagons, their frames and the sidings, the front-end copy engines, and the unmapping of a stream (R184 to R187,
R358). -/

namespace Sys2Proof.Machine

/-! ## Queue registers -/

/-- The partition's PCFG register (R363). -/
def pcfg (s : State) (p : Nat) : Nat := (creg s (0x108000 + 0x40 * p)).toNat
/-- PCEIL, PENG, PWLIM and PKEY. -/
def pceil (s : State) (p : Nat) : Nat := bitsN (pcfg s p) 7 5
def peng (s : State) (p : Nat) : Nat := bitsN (pcfg s p) 4 0
def pwlim (s : State) (p : Nat) : Nat := bitsN (pcfg s p) 21 8
def pkey (s : State) (p : Nat) : Nat := bitsN (pcfg s p) 27 22
/-- The code tensor of a queue (R172). -/
def codeTid (s : State) (n : Nat) : Nat := cfield s (queueReg n 0x20) 15 0
/-- The world of a queue's stream. -/
def Queue.secure (q : Queue) : Bool := !q.ns
/-- The code tensor of a queue, as its stream reads it. -/
def codeOfQ (s : State) (n : Nat) : CodeOf := { tid := codeTid s n, part := (getQ s n).part, secure := (getQ s n).secure }

/-! ## Front-end copy engines (R174, R186) -/

/-- Whether a front-end copy engine is free. -/
def feFree (s : State) (e : Nat) : Bool :=
  match s.x.reqs.find? (fun p => p.2.fe = some e && p.2.kind ≠ ReqKind.tsig && p.2.kind ≠ ReqKind.twait && p.2.kind ≠ ReqKind.tldq
      && p.2.st ≠ ReqSt.done) with
  | some _ => false
  | none => match s.f.fes.find? (fun p => p.1 = e) with
    | some (_, .zero _ _ _) => false
    | _ => true

/-- The lowest free engine. -/
def freeFe (s : State) : Option Nat := (List.range 8).find? (feFree s)
/-- An engine for a copy or fill of a coach: frames that wait to be zeroed take theirs first (R186). -/
def spareFe (s : State) : Option Nat := if s.f.zeroing.length < ((List.range 8).filter (feFree s)).length then freeFe s else none

/-! ## Frame sidings (R186) -/

/-- The siding of frames of a class for a partition: 0 to 15 its HBM frames, 16 + n the window frames of cluster n. -/
def sidingOf (part : Nat) : Option Nat → Nat
  | none => part
  | some n => 16 + n

/-- The partition through whose slots a siding's frames are zeroed. -/
def sidingPart (s : State) (sd : Nat) : Nat := if sd < 16 then sd else (getCl s (sd - 16)).owner.toNat

def siding (s : State) (sd : Nat) : List Nat := smGet [] s.f.sidings sd
def setSiding (s : State) (sd : Nat) (l : List Nat) : State := { s with f := { s.f with sidings := smPut s.f.sidings sd l } }

/-- Send frames for zeroing; each then enters its siding. -/
def zeroFrames (s : State) (l : List (Nat × Nat)) : State := { s with f := { s.f with zeroing := s.f.zeroing ++ l } }

/-- Take `n` frames from a siding, and what it lacks from the reserve where that may serve (R186). -/
def takeFrames (s : State) (q : Nat) (sd n : Nat) (alone : Bool) : Option (List Nat × State) :=
  let l := siding s sd
  if n ≤ l.length then some (l.take n, setSiding s sd (l.drop n))
  else if !alone then none
  else
    let s1 := setSiding s sd []
    let hbm := (getQ s q).part.toNat
    let m := n - l.length
    let l2 := if sd < 16 then [] else siding s hbm
    let k2 := min m l2.length
    let s2 := if sd < 16 then s1 else setSiding s1 hbm (l2.drop k2)
    let r := (getQ s q).resF
    if r.length < m - k2 then none
    else some (l ++ l2.take k2 ++ r.take (m - k2), modQ s2 q (fun v => { v with resF := v.resF.drop (m - k2) }))

/-- Wagons that a partition holds. -/
def wagonsHeld (s : State) (p : Nat) : Nat := (s.f.wagonPart.filter (fun e => e.2 = p)).length

/-- Take a wagon from the siding within the partition's limit, or from the reserve (R186). -/
def takeWagon (s : State) (q : Nat) (alone : Bool) : Option (Nat × State) :=
  let p := (getQ s q).part.toNat
  match s.f.wagons with
  | w :: l =>
    if wagonsHeld s p < pwlim s p then some (w, { s with f := { s.f with wagons := l } })
    else if alone then reserve s q else none
  | [] => if alone then reserve s q else none
where
  reserve (s : State) (q : Nat) : Option (Nat × State) :=
    match (getQ s q).resW with
    | w :: l => some (w, modQ s q (fun v => { v with resW := l }))
    | [] => none

/-- What firmware takes out of a siding: a frame, or from siding 26 a wagon; none where it is not there (R186). -/
def trimmed (s : State) (sd n : Nat) : Option State :=
  if sd = 26 then
    if s.f.wagons.contains n then some { s with f := { s.f with wagons := s.f.wagons.filter (· ≠ n) } } else none
  else if (siding s sd).contains n then some (setSiding s sd ((siding s sd).filter (· ≠ n)))
  else none

/-- Whether a wagon is anywhere: on the siding, in a reserve or bound. -/
def wagonKnown (s : State) (w : Nat) : Bool :=
  s.f.wagons.contains w || s.f.wagonPart.any (fun p => p.1 = w) || s.f.queues.any (fun q => q.2.resW.contains w)

/-- What firmware loads: a frame, which is zeroed first, or a wagon of the 8,192; none where it may not (R186). -/
def loaded (s : State) (sd n : Nat) : Option State :=
  if sd = 26 then
    if n < 8192 && !wagonKnown s n then some { s with f := { s.f with wagons := s.f.wagons ++ [n] } } else none
  else if frameThere then some (zeroFrames s [(n, sd)])
  else none
where
  frameThere : Bool :=
    if sd < 16 then regionOf (n * frameBytes) = .hbm
    else regionOf (n * frameBytes) = .window && (windowOf (n * frameBytes)).1 = sd - 16
      && decide ((windowOf (n * frameBytes)).2 < 0x100000 * (getCl s (sd - 16)).present)

/-- SIDING_TRIM: firmware takes a frame or a wagon out of a siding; 32 and a siding's number load it instead (R186). -/
def execSidingTrim (w : Writer) (sd : Nat) (frame : Nat) (s : State) : Host.Outcome State Fault Refusal :=
  if w ≠ .firmware then .next (respond s .error)
  else match (if sd < 32 then trimmed s sd frame else loaded s (sd - 32) frame) with
    | some t => .next (respond t .ok)
    | none => .next (respond s .error)

/-- FRAME_ZEROING: the next frame takes the next free copy engine, ahead of other work (R186). -/
def execFrameZeroing (s : State) : Host.Outcome State Fault Refusal :=
  match s.f.zeroing, freeFe s with
  | (f, sd) :: l, some e =>
    let (k, s) := startPath s (sidingPart s sd) none s.t.now none ((List.range 128).map (fun i => f * frameBytes + 128 * i))
    .next { s with f := { s.f with zeroing := l, fes := smPut s.f.fes e (.zero f sd k) } }
  | _, _ => .next s

/-- FRAME_ZEROED: the last chunk write is acknowledged and the frame enters its siding (R186). -/
def execFrameZeroed (fe : Nat) (s : State) : Host.Outcome State Fault Refusal :=
  match s.f.fes.find? (fun p => p.1 = fe) with
  | some (_, .zero f sd k) =>
    if arrived s k then
      let s := dropTicket s k
      let s := clearMemory s (f * frameBytes) frameBytes
      let mat := keyMat s (pkey s (sidingPart s sd))
      let s := { s with c := { s.c with lineKeys := (List.range 128).foldl (fun m i => cmPut 0 m (f * 128 + i) mat) s.c.lineKeys } }
      let s := { s with f := { s.f with fes := smDel s.f.fes fe } }
      .next (setSiding s sd (siding s sd ++ [f]))
    else .next s
  | _ => .next s

/-! ## Wagons (R185, R187) -/

def wagonTid (w : Nat) : Nat := 0xE000 + w
/-- The tile table of a wagon. -/
def wagonTable (s : State) (w : Nat) : Nat := dtBase s + 0x400000 + 1024 * w

/-- Replace the bits `hi` to `lo` of a number. -/
def putBits (n hi lo v : Nat) : Nat :=
  let w := hi - lo + 1
  n - bitsN n hi lo * 2 ^ lo + v % 2 ^ w * 2 ^ lo

/-- The descriptor of a new wagon from its template. -/
def wagonDesc (s : State) (q : Queue) (w : Nat) (img : BitVec 512) : Nat :=
  let n := (descOf img).tileCount
  let d := putBits (putBits (putBits img.toNat 0 0 1) 29 26 q.part.toNat) 30 30 (if q.ns then 1 else 0)
  putBits (putBits d 383 320 (wagonTable s w)) 447 384 n

/-- A tile entry of a new wagon. -/
def wagonEntry (s : State) (part frame : Nat) : Nat :=
  1 + 2 + 3 * 2 ^ 3 + pkey s part * 2 ^ 6 + part * 2 ^ 12 + frame * 2 ^ 22

/-- Fill a new wagon for a stream with the frames given, taken by coach `num`. -/
def makeWagon (s : State) (qn w num : Nat) (img : BitVec 512) (frames : List Nat) : State :=
  let q := getQ s qn
  let s := partWrite s (dtBase s + 64 * wagonTid w) (wagonDesc s q w img) 64
  let s := (frames.zip (List.range frames.length)).foldl (fun s p =>
    partWrite s (wagonTable s w + 16 * p.2) (wagonEntry s q.part.toNat p.1) 16) s
  { s with f := { s.f with wagonPart := smPut s.f.wagonPart w q.part.toNat, wagonMaker := smPut s.f.wagonMaker w num
                           readers := smPut s.f.readers w 0 } }

/-- The frames of a wagon, with the siding that each returns to. -/
def wagonFrames (s : State) (w : Nat) : List (Nat × Nat) :=
  let n := (descOf (descImage s (wagonTid w))).nt
  let p := smGet 0 s.f.wagonPart w
  (List.range n).map (fun i =>
    let f := entFrame (readEntry s (wagonTable s w + 16 * i))
    (f, if regionOf (f * frameBytes) = .window then 16 + (windowOf (f * frameBytes)).1 else p))

/-- Drop every idle use of a wagon in the layout units (R95). -/
def dropWagonUse (s : State) (w : Nat) : State :=
  let s := { s with x := { s.x with lunits := smMap (fun _ (u : LUnit) =>
    { u with descs := u.descs.filter (fun d => d.tid ≠ wagonTid w || inFlight u d.tid) }) s.x.lunits } }
  s.x.lunits.foldl (fun s p => (getUnit s p.1).tiles.foldl (fun s e =>
    if e.tid = wagonTid w ∧ e.inflight = 0 then dropTile s p.1 e else s) s) s

/-- Whether no layout unit uses a wagon. -/
def wagonIdle (s : State) (w : Nat) : Bool := s.x.lunits.all (fun p => p.2.tiles.all (fun e => e.tid ≠ wagonTid w))

/-- A wagon returns to its siding, its frames go to be zeroed. -/
def freeWagon (s : State) (w : Nat) : State :=
  let fs := wagonFrames s w
  zeroFrames { s with f := { s.f with
    wagons := s.f.wagons ++ [w], wagonPart := smDel s.f.wagonPart w, wagonMaker := smDel s.f.wagonMaker w
    readers := smDel s.f.readers w, released := s.f.released.filter (· ≠ w) } } fs

/-- WAGON_FREE: a released wagon that no coach reads is invalidated and freed (R187). -/
def execWagonFree (wagon : Nat) (s : State) : Host.Outcome State Fault Refusal :=
  if s.f.released.contains wagon ∧ smGet 0 s.f.readers wagon = 0 then
    let s := dropWagonUse s wagon
    .next (if wagonIdle s wagon then freeWagon s wagon else s)
  else .next s

/-- Count readers of a list of wagons up or down. -/
def countReaders (s : State) (ws : List Nat) (f : Nat → Nat) : State :=
  ws.foldl (fun s w => { s with f := { s.f with readers := smPut s.f.readers w (f (smGet 0 s.f.readers w)) } }) s

/-- Wagons whose releaser has retired (R187). -/
def releaseWagons (s : State) (ws : List Nat) : State := { s with f := { s.f with released := s.f.released ++ ws } }

/-- Every name of a stream is released (R183, R365). -/
def releaseNames (s : State) (qn : Nat) : State :=
  let ws := (getQ s qn).names.filterMap (fun p => match p.2 with
    | .wagon _ _ w => some w
    | _ => none)
  modQ (releaseWagons s ws) qn (fun q => { q with names := [] })

/-! ## Streams in their queues (R356, R358) -/

/-- Whether a queue is runnable (R356). -/
def runnable (q : Queue) : Bool :=
  q.en && q.st ≠ .faulted && q.st ≠ .ended && (q.coaches ≠ [] || q.tailb ≠ q.taddr || q.wake)

/-- Step 1 of an unmapping: fetch stops; the save takes 8,194 cycles and the last step one more (R358). -/
def startUnmap (s : State) (qn : Nat) : State :=
  match (getQ s qn).eng with
  | some e =>
    if (getQ s qn).unmapDue.isSome then s
    else
      let s := modQ s qn (fun q => { q with unmapDue := some (s.t.now + 8195), sliceEnd := none })
      schedule (schedule (schedule s (s.t.now + 1) (.unmapSaveComplete e)) (s.t.now + 8194) (.unmapSaveComplete e)) (s.t.now + 8195) (.unmapSaveComplete e)
  | none => s

/-- Whether a stream is mapped and neither loading nor unmapping. -/
def Queue.live (q : Queue) : Bool := q.eng.isSome && q.st = .mapped && q.loadDue.isNone && q.unmapDue.isNone

/-! ## Records of coaches (R382) -/

/-- A DECODE, ISSUE, COMPLETE, RETIRE or FAULT record. -/
def bvCoach (s : State) (qn kind : Nat) (c : Coach) (cause : Nat := 0) : State :=
  bvRecord s kind (some qn) (c.num % 2 ^ 32 + c.taddr * 2 ^ 32 + c.opc * 2 ^ 48 + cause * 2 ^ 56)

def getCoach (s : State) (qn num : Nat) : Option Coach := (getQ s qn).coaches.find? (fun c => c.num = num)
def modCoach (s : State) (qn num : Nat) (f : Coach → Coach) : State :=
  modQ s qn (fun q => { q with coaches := q.coaches.map (fun c => if c.num = num then f c else c) })

/-- A fault is reported for a coach: CAUSE, OPIDX, DETAIL, JOB and BADDR of R195. A second one is not taken. -/
def reportFault (s : State) (qn num cause opidx detail member baddr : Nat) : State :=
  modCoach s qn num (fun c => { c with fault := some (c.fault.getD (cause, opidx, detail, member, baddr)), faultAt := if c.fault.isSome then c.faultAt else timebase s })

/-- The fault of a job's coach; `m` is the core position of the member at fault. -/
def faultJob (s : State) (job m cause detail baddr : Nat) : State :=
  let j := getJob s job
  reportFault s j.queue j.coach cause 255 detail (m + j.ctx * 128 + (getCtx s m j.ctx).j.rank * 512) baddr

end Sys2Proof.Machine
end

