-- ==== Sys2Proof/Machine/Stream.lean ====
section
/-! DEFINITION. Task streams: the task buffer, the decode of each task, renaming, boxes and edges (R167 to R190). -/

namespace Sys2Proof.Machine

/-! ## The task buffer (R167, R169) -/

/-- A little-endian number of `n` bytes of a task buffer. -/
def bufNat (q : Queue) (a n : Nat) : Nat := leNat (fun i => (smGet 0 q.buf (i % 65536)).toNat) a n

/-- The operand words of `n` operands from offset `o`, with the offset after them; none while they run past `avail`. -/
def bufWords (q : Queue) (a avail : Nat) : Nat → Nat → Option (List (BitVec 128) × Nat)
  | 0, o => some ([], o)
  | n + 1, o =>
    if avail < o + 16 then none
    else
      let w := BitVec.ofNat 128 (bufNat q (a + o) 16)
      if nboxOf w > 2 then
        if avail < o + 32 then none
        else (bufWords q a avail n (o + 32)).map (fun r => (w :: BitVec.ofNat 128 (bufNat q (a + o + 16) 16) :: r.1, r.2))
      else (bufWords q a avail n (o + 16)).map (fun r => (w :: r.1, r.2))

/-- The task at a stream's next address: its header and what it decodes to; none while it has not come whole. -/
def nextTask (q : Queue) : Option (BitVec 64 × Option Instr) :=
  let avail := (q.tailb + 65536 - q.taddr) % 65536
  if avail < 8 then none
  else
    let w := BitVec.ofNat 64 (bufNat q q.taddr 8)
    (bufWords q q.taddr avail (w.extractLsb' 13 4).toNat 8).map (fun r => (w, decodeTask w r.1))

/-- The operand word that makes an illegal task illegal: the first that breaks a limit of its opcode where the header breaks none;
255 for none (R170, R195). -/
def badOperand (w : BitVec 64) (ws : List (BitVec 128)) : Nat :=
  let opc := (w.extractLsb' 0 8).toNat
  let ok (ops : List Operand) : Bool := ((taskOf opc (hdrOf w) ops).map wellFormed).getD false
  let good (k : Nat) : Operand :=
    { ref := 0, kind := false, qo := false, qr := 0, boxes := []
      mode := if opc ≤ 2 ∨ opc = 0x21 ∨ opc = 0x32 ∨ (opc = 3 ∧ k = 0) then 1 else 2 }
  let canon := (List.range (w.extractLsb' 13 4).toNat).map good
  let rec go : List Nat → List (BitVec 128) → Nat
    | [], _ => 255
    | k :: l, v => match operandsOf 1 v with
      | some [o] => if ok (canon.set k o) then go l (v.drop (opWords 1 v)) else k
      | _ => k
  if ok canon then go (List.range canon.length) ws else 255

/-- The operand word of an illegal task at a stream's next address. -/
def illegalOperand (q : Queue) : Nat :=
  let avail := (q.tailb + 65536 - q.taddr) % 65536
  let w := BitVec.ofNat 64 (bufNat q q.taddr 8)
  ((bufWords q q.taddr avail (w.extractLsb' 13 4).toNat 8).map (fun r => badOperand w r.1)).getD 255

/-- The length of a task in bytes. -/
def taskBytes (ops : List Operand) : Nat := 8 + 16 * ops.foldl (fun n o => n + (if o.boxes.length > 2 then 2 else 1)) 0

/-! ## Decode (R170, R189, R190) -/

/-- Whether a stream may decode a task in this cycle. -/
def canDecode (q : Queue) : Bool := q.live && q.stop.isNone && q.coaches.length < 256

/-- A coach for the task at the stream's next address. -/
def coachFor (s : State) (n : Nat) (task : Option Instr) (opc : Nat) : Coach :=
  let q := getQ s n
  { num := q.count % 2 ^ 32, taddr := q.taddr, task, opc, at_ := timebase s }

/-- The coach of a decoded task enters the window; the next task stands at `next`. -/
def pushCoach (s : State) (n : Nat) (c : Coach) (next : Nat) : State :=
  let s := bvCoach s n 1 c
  let s := if c.st = .completed then bvCoach s n 3 c else s
  modQ s n (fun q => { q with coaches := q.coaches ++ [c], count := q.count + 1, taddr := next % 65536, stop := none })

/-- A task faults at decode: its coach reports the fault and decode stops (R194, R197). -/
def faultDecode (s : State) (n : Nat) (task : Option Instr) (opc cause opidx : Nat) : State :=
  let c := { coachFor s n task opc with fault := some (cause, opidx, 0, 0xFFFF, 0), faultAt := timebase s }
  modQ (pushCoach s n c (getQ s n).taddr) n (fun q => { q with stop := some .fault })

/-- A fault of a task at decode. -/
def taskFault (s : State) (n : Nat) (i : Instr) (cause opidx : Nat) : State :=
  faultDecode s n (some i) (((taskParts i).map (fun p => p.1.toNat)).getD 0) cause opidx

/-- The coach of a task. -/
def taskCoach (s : State) (n : Nat) (i : Instr) : Coach := coachFor s n (some i) (((taskParts i).map (fun p => p.1.toNat)).getD 0)

/-- The address after a task. -/
def afterTask (q : Queue) (ops : List Operand) : Nat := q.taddr + taskBytes ops

/-- Read descriptors before the task decodes (R190); each is given with its operand number and the fault where the partition
has no slot on its path. -/
def startReads (s : State) (n : Nat) (i : Instr) (cause : Nat) (tids : List (Nat × Nat)) : State :=
  let p := (getQ s n).part.toNat
  let addr (t : Nat) : Nat := dtBase s + 64 * t
  match tids.find? (fun t => !lineReach s p none (addr t.2)) with
  | some (k, _) => taskFault s n i cause k
  | none =>
    let (k, s) := startPath s p none s.t.now none (tids.map (fun t => addr t.2))
    modQ s n (fun q => { q with stop := some (.read k i) })

/-- A task decodes in the stream in focus. -/
def decodeTaskStep (s : State) (f : State → Nat → State) : Host.Outcome State Fault Refusal :=
  let n := s.t.fqueue
  if (getQ s n).eng.isNone then .fault .noStream
  else if !canDecode (getQ s n) then .next s
  else .next (f s n)

/-! ## Operands (R169, R170, R187) -/

def nameOf (q : Queue) (n : Nat) : NameEnt := smGet .none q.names n

/-- The identifier of a raw operand, by number or by a bound name. -/
def rawTid (q : Queue) (o : Operand) : Option Nat :=
  if o.kind then some o.ref.toNat
  else match nameOf q o.ref.toNat with
    | .raw t => some t
    | _ => none

/-- The task register added to an operand's boxes. -/
def boxOffset (q : Queue) (o : Operand) : Nat := if o.qo then (smGet 0 q.q o.qr.toNat).toNat else 0

/-- The boxes of an operand after the offset with their grid ranges, or none where one fails (R170). -/
def boxesOf (d : Desc) (off : Nat) (o : Operand) : Option (List (Nat × Nat) × List (List (Nat × Nat))) :=
  let bs := o.boxes.map (fun b => (b.first.toNat + off, b.last.toNat + off))
  let gs := bs.map (fun b => (d.grid b.1).zip (d.grid b.2))
  let ok (b : Nat × Nat) : Bool := b.1 < d.tileCount && b.2 < d.tileCount && b.1 < 2 ^ 24 && b.2 < 2 ^ 24
  if bs.all ok && gs.all (fun g => g.all (fun r => r.1 ≤ r.2)) then some (bs, gs) else none

/-- Whether two sets of boxes of one tensor overlap; no box stands for the whole tensor (R188). -/
def overlap (a b : List (List (Nat × Nat))) : Bool :=
  a = [] || b = [] || a.any (fun x => b.any (fun y => (x.zip y).all (fun p => p.1.1 ≤ p.2.2 && p.2.1 ≤ p.1.2)))

/-- The tiles of an operand in ascending order. -/
def tilesOf (d : Desc) (g : List (List (Nat × Nat))) : List Nat :=
  (List.range d.tileCount).filter (fun t => g = [] || g.any (fun x => (x.zip (d.grid t)).all (fun p => p.1.1 ≤ p.2 && p.2 ≤ p.1.2)))

/-- What a task's operands come to: the operands, the names that take a new wagon in order, and the first wagon operand whose
boxes fail. -/
structure Renamed where
  ops : List ROp := []
  need : List (Nat × BitVec 512 × Option Nat) := []
  bad : Option Nat := none

/-- Rename the operands in order (R187). A failure is a cause with its operand. A new wagon's identifier is filled in later:
`wagon` holds the place of its name in `need`. -/
def renameFrom (s : State) (q : Queue) : Nat → List Operand → Renamed → Except (Nat × Nat) Renamed
  | _, [], r => .ok r
  | k, o :: l, r =>
    let name := o.ref.toNat
    let fresh (img : BitVec 512) (cls : Option Nat) (from_ : Option Nat) : Except (Nat × Nat) Renamed :=
      let need := if r.need.any (fun e => e.1 = name) then r.need else r.need ++ [(name, img, cls)]
      let place := (need.findIdx? (fun e => e.1 = name)).getD 0
      let b := boxesOf (descOf img) (boxOffset q o) o
      renameFrom s q (k + 1) l { r with
        need, bad := if b.isNone then some (r.bad.getD k) else r.bad
        ops := r.ops ++ [{ tid := 0, mode := o.mode, raw := false, boxes := (b.map (·.1)).getD [], grid := (b.map (·.2)).getD []
                           fillFrom := from_, wagon := some place }] }
    let raw (t : Nat) : Except (Nat × Nat) Renamed :=
      let d := descOf (descImage s t)
      if !d.ok q.part q.secure then .error (6, k)
      else match boxesOf d (boxOffset q o) o with
        | none => .error (6, k)
        | some (bs, gs) => renameFrom s q (k + 1) l { r with ops := r.ops ++ [{ tid := t, mode := o.mode, raw := true, boxes := bs, grid := gs }] }
    if o.kind then raw o.ref.toNat
    else match nameOf q name with
      | .none => .error (2, k)
      | .raw t => raw t
      | .template img cls => if o.mode = 2 then fresh img cls none else .error (2, k)
      | .wagon img cls w =>
        if o.mode = 1 then
          let b := boxesOf (descOf img) (boxOffset q o) o
          renameFrom s q (k + 1) l { r with
            bad := if b.isNone then some (r.bad.getD k) else r.bad
            ops := r.ops ++ [{ tid := wagonTid w, mode := 1, raw := false, boxes := (b.map (·.1)).getD [], grid := (b.map (·.2)).getD [] }] }
        else fresh img cls (if o.mode = 3 then some w else none)

/-- Take the wagons and frames that a task needs: their numbers, or none while the sidings lack them (R186, R190). -/
def takeAll (s : State) (qn num : Nat) (alone : Bool) : List (Nat × BitVec 512 × Option Nat) → Option (List Nat × State)
  | [] => some ([], s)
  | (_, img, cls) :: l =>
    match takeWagon s qn alone with
    | none => none
    | some (w, s) => match takeFrames s qn (sidingOf (getQ s qn).part.toNat cls) (descOf img).tileCount alone with
      | none => none
      | some (fs, s) => (takeAll (makeWagon s qn w num img fs) qn num alone l).map (fun r => (w :: r.1, r.2))

/-- The wagon that a read, or the fill of a read-write, reads. -/
def ROp.readsWagon (o : ROp) : Option Nat :=
  match o.fillFrom with
  | some w => some w
  | none => if !o.raw && o.mode = 1 then some (o.tid - 0xE000) else none

/-- Numbers of the older coaches on which operands depend: the makers of the wagons they read, and coaches of the window that
write a raw region they overlap (R188 cases 1 and 3). -/
def edgesOf (s : State) (q : Queue) (ops : List ROp) : List Nat :=
  let one := (ops.filterMap ROp.readsWagon).filterMap (fun w => (s.f.wagonMaker.find? (fun p => p.1 = w)).map (·.2))
  let three := (q.coaches.filter (fun x => x.ops.any (fun a => a.raw && a.mode.getLsbD 1
    && ops.any (fun b => b.raw && b.mode = 1 && a.tid = b.tid && overlap a.grid b.grid)))).map (·.num)
  (one ++ three).eraseDups

/-- The content of s1 to s8 (R173). -/
def sregsOf (ops : List ROp) : List Word :=
  ops.map (fun o => BitVec.ofNat 64 (o.tid + ((o.boxes.head?.map (·.1)).getD 0) * 2 ^ 16))

/-- Decode of a placed task that names tensors: KERN, GANG, TCOPY, TFILL (R187, R188). None while the sidings lack what it
needs. -/
def decodePlaced (s : State) (n : Nat) (i : Instr) (t : TaskHdr) (ops : List Operand) : Option State :=
  let q := getQ s n
  match renameFrom s q 0 ops {} with
  | .error (cause, k) => some (taskFault s n i cause k)
  | .ok r =>
    let frames := r.need.foldl (fun m e => m + (descOf e.2.1).tileCount) 0
    if r.need.length > 16 ∨ frames > 64 then some (taskFault s n i 4 255)
    else
      let num := q.count % 2 ^ 32
      match takeAll s n num (q.coaches = []) r.need with
      | none => none
      | some (ws, s) =>
        let ops1 := r.ops.map (fun o => match o.wagon with
          | some k => { o with tid := wagonTid (ws.getD k 0), wagon := ws[k]? }
          | none => o)
        -- one fill for each new wagon, whatever number of operands name it
        let ops2 := (ops1.zip (List.range ops1.length)).map (fun p =>
          if (ops1.take p.2).any (fun o => o.tid = p.1.tid && o.fillFrom = p.1.fillFrom) then { p.1 with fillFrom := none } else p.1)
        let reads := (ops2.filterMap ROp.readsWagon).eraseDups
        let olds := r.need.filterMap (fun e => match nameOf q e.1 with
          | .wagon _ _ w => some w
          | _ => none)
        let c := { coachFor s n (some i) (((taskParts i).map (fun p => p.1.toNat)).getD 0) with
          ops := ops2
          edges := edgesOf s q ops2
          edgesAll := t.fb || ops2.any (fun o => o.raw && o.mode.getLsbD 1)
          deltas := r.need.map (fun e => Delta.name e.1 (nameOf q e.1))
          takes := ws, reads, frees := olds, sregs := sregsOf ops2, badOp := r.bad }
        let s := countReaders s reads (· + 1)
        let s := modQ s n (fun q => { q with names := (r.need.zip ws).foldl (fun m p => smPut m p.1.1 (.wagon p.1.2.1 p.1.2.2 p.2)) q.names })
        some (pushCoach s n c (afterTask q ops))

/-- The raw operands of a task with their numbers. -/
def rawOps (q : Queue) (ops : List Operand) : List (Nat × Nat) :=
  ((List.range ops.length).zip ops).filterMap (fun p => (rawTid q p.2).map (fun t => (p.1, t)))

/-- A placed task decodes at once, or once its raw operands' descriptors have come. -/
def placedTask (i : Instr) (t : TaskHdr) (ops : List Operand) (s : State) (n : Nat) : State :=
  match rawOps (getQ s n) ops with
  | [] => (decodePlaced s n i t ops).getD s
  | l => startReads s n i 6 l

/-! ## Names (R176) -/

/-- A name takes a new entry at decode; a wagon that it held is released with the task. -/
def setName (s : State) (n : Nat) (i : Instr) (ops : List Operand) (name : Nat) (e : NameEnt) : State :=
  let q := getQ s n
  let old := nameOf q name
  let frees := match old with
    | .wagon _ _ w => [w]
    | _ => []
  let c := { taskCoach s n i with st := .completed, deltas := [.name name old], frees }
  pushCoach (modQ s n (fun q => { q with names := smPut q.names name e })) n c (afterTask q ops)

def nameArg (ops : List Operand) : Nat := ((ops.head?.map (fun o => o.ref.toNat)).getD 0)

/-- The frame class of a TDEF: none for HBM. -/
def tdefClass (imm : BitVec 32) : Option Nat := if imm.getLsbD 16 then some (bitsN imm.toNat 20 17) else none

/-- TDEF once its template has come. -/
def decodeTdef (s : State) (n : Nat) (i : Instr) (t : TaskHdr) (ops : List Operand) : State :=
  let q := getQ s n
  let img := descImage s (bitsN t.imm.toNat 15 0)
  let d := descOf img
  let cls := tdefClass t.imm
  if d.shapeOk && d.part = q.part.toNat && (d.ns || q.secure) && d.tileCount ≤ 64
      && (match cls with
          | none => true
          | some c => decide ((getCl s c).owner = q.part)) then setName s n i ops (nameArg ops) (.template img cls)
  else taskFault s n i 3 255

/-- TDROP's new entry (R176). -/
def dropped : NameEnt → NameEnt
  | .wagon img cls _ => .template img cls
  | .raw _ => .none
  | e => e

/-! ## Signal words (R177, R180) -/

/-- A request for a signal word (R177). -/
def signalReq (s : State) (n : Nat) (c : Nat) (kind : ReqKind) (tid : Nat) (imm : BitVec 32) (val : Word) (scope : BitVec 2) : Nat × State :=
  let q := getQ s n
  let d := descOf (descImage s tid)
  let (id, s) := newId s
  let r : Req := { id, kind, fe := some (q.eng.getD 0 % 8), queue := n, coach := c, part := q.part, secure := q.secure, tid
                   origin := [imm.toNat, 0, 0, 0, 0, 0], ext := [1, 1, 1, 1, 1, 1], lw := if d.fmt = 2 then 2 else 3
                   val, hint := scope, issued := s.t.now, clk := q.clock }
  (id, setReq s id r)

/-- The value of a signal word, sign-extended (R180, R181). -/
def signalVal (r : Req) : Word := if r.lw = 2 then (r.val.setWidth 32).signExtend 64 else r.val

/-- What a signal task's operand names, once its descriptor has come: the identifier, or the fault. -/
def signalTid (s : State) (n : Nat) (ops : List Operand) : Except Nat Nat :=
  let q := getQ s n
  match ops.head? with
  | none => .error 6
  | some o =>
    match rawTid q o with
    | some t =>
      let d := descOf (descImage s t)
      if d.ok q.part q.secure && d.rank = 1 && (d.fmt = 2 || d.fmt = 3) then .ok t else .error 6
    | none => if nameOf q o.ref.toNat = .none then .error 2 else .error 6

/-- TSIG and TWAIT enter the window; TLDQ starts its load (R177, R180). -/
def decodeSignal (s : State) (n : Nat) (i : Instr) (t : TaskHdr) (ops : List Operand) (load : Bool) : State :=
  let q := getQ s n
  match signalTid s n ops with
  | .error cause => taskFault s n i cause 0
  | .ok tid =>
    let c := { taskCoach s n i with
      qval := smGet 0 q.q t.qd.toNat, ops := [{ tid, mode := 1, raw := false, boxes := [] }], edgesAll := t.fb }
    if !load then pushCoach s n c (afterTask q ops)
    else
      let (id, s) := signalReq s n c.num .tldq tid t.imm 0 0
      modQ (pushCoach s n { c with st := .issued, req := some id } (afterTask q ops)) n (fun q => { q with stop := some (.tldq id) })

/-- A signal task whose operand is raw reads its descriptor; another faults at once. -/
def signalTask (i : Instr) (ops : List Operand) (s : State) (n : Nat) : State :=
  match rawOps (getQ s n) ops with
  | [] => match signalTid s n ops with
    | .error cause => taskFault s n i cause 0
    | .ok _ => s
  | l => startReads s n i 6 l

/-- Whether every coach of the window has completed (R180). -/
def allDone (q : Queue) : Bool := q.coaches.all (fun c => c.st = .completed)

/-! ## Task registers (R182) -/

/-- The offset of a jump. -/
def jumpTo (a : Nat) (imm : BitVec 32) : Nat := wrap 16 ((a : Int) + 8 * imm.toInt)
/-- Whether a target lies in what the buffer holds. -/
def validTarget (q : Queue) (t : Nat) : Bool := let d := (q.tailb + 65536 - t) % 65536; d = 0 || d ≤ q.filled

/-- A control task: the register it writes, and where decode goes on. -/
def controlTask (i : Instr) (ops : List Operand) (qd : BitVec 4) (new : Word → Option Word) (jump : Word → Option (BitVec 32)) (s : State) (n : Nat) : State :=
  let q := getQ s n
  let old := smGet 0 q.q qd.toNat
  let v := (new old).getD old
  let c := { taskCoach s n i with st := .completed, deltas := if (new old).isSome then [.q qd.toNat old] else [] }
  let s1 := if (new old).isSome then modQ s n (fun q => { q with q := smPut q.q qd.toNat v }) else s
  match jump v with
  | none => pushCoach s1 n c (afterTask q ops)
  | some imm =>
    let t := jumpTo q.taddr imm
    if validTarget q t then pushCoach s1 n c t else taskFault s n i 5 255

def sx (imm : BitVec 32) : Word := imm.signExtend 64

/-! ## The tasks -/

/-- KERN (R172, R187). -/
def execKern (t : TaskHdr) (ops : List Operand) (s : State) : Host.Outcome State Fault Refusal :=
  decodeTaskStep s (placedTask (.kern t ops) t ops)
/-- GANG (R172, R187). -/
def execGang (t : TaskHdr) (ops : List Operand) (s : State) : Host.Outcome State Fault Refusal :=
  decodeTaskStep s (placedTask (.gang t ops) t ops)
/-- TCOPY (R174, R187). -/
def execTcopy (t : TaskHdr) (ops : List Operand) (s : State) : Host.Outcome State Fault Refusal :=
  decodeTaskStep s (placedTask (.tcopy t ops) t ops)
/-- TFILL (R175, R187). -/
def execTfill (t : TaskHdr) (ops : List Operand) (s : State) : Host.Outcome State Fault Refusal :=
  decodeTaskStep s (placedTask (.tfill t ops) t ops)
/-- TDEF: the template is read (R176, R190). -/
def execTdef (t : TaskHdr) (ops : List Operand) (s : State) : Host.Outcome State Fault Refusal :=
  decodeTaskStep s (fun s n => startReads s n (.tdef t ops) 3 [(255, bitsN t.imm.toNat 15 0)])
/-- TBIND (R176). -/
def execTbind (t : TaskHdr) (ops : List Operand) (s : State) : Host.Outcome State Fault Refusal :=
  decodeTaskStep s (fun s n =>
    let tid := bitsN t.imm.toNat 15 0
    if tid = 0 ∨ tid ≥ 0xE000 then taskFault s n (.tbind t ops) 6 255 else setName s n (.tbind t ops) ops (nameArg ops) (.raw tid))
/-- TDROP (R176). -/
def execTdrop (t : TaskHdr) (ops : List Operand) (s : State) : Host.Outcome State Fault Refusal :=
  decodeTaskStep s (fun s n =>
    let old := nameOf (getQ s n) (nameArg ops)
    if dropped old = old then pushCoach s n { taskCoach s n (.tdrop t ops) with st := .completed } (afterTask (getQ s n) ops)
    else setName s n (.tdrop t ops) ops (nameArg ops) (dropped old))
/-- TSIG (R178): waits in the window until it is oldest. -/
def execTsig (t : TaskHdr) (ops : List Operand) (s : State) : Host.Outcome State Fault Refusal :=
  decodeTaskStep s (signalTask (.tsig t ops) ops)
/-- TWAIT (R181). -/
def execTwait (t : TaskHdr) (ops : List Operand) (s : State) : Host.Outcome State Fault Refusal :=
  decodeTaskStep s (signalTask (.twait t ops) ops)
/-- TFENCE: decode stops (R179). -/
def execTfence (t : TaskHdr) (ops : List Operand) (s : State) : Host.Outcome State Fault Refusal :=
  decodeTaskStep s (fun s n =>
    let c := { taskCoach s n (.tfence t ops) with st := .issued }
    modQ (pushCoach s n c (afterTask (getQ s n) ops)) n (fun q => { q with stop := some (.fence c.num) }))
/-- TSET (R182). -/
def execTset (t : TaskHdr) (ops : List Operand) (s : State) : Host.Outcome State Fault Refusal :=
  decodeTaskStep s (controlTask (.tset t ops) ops t.qd (fun _ => some (sx t.imm)) (fun _ => none))
/-- TADD (R182). -/
def execTadd (t : TaskHdr) (ops : List Operand) (s : State) : Host.Outcome State Fault Refusal :=
  decodeTaskStep s (controlTask (.tadd t ops) ops t.qd (fun v => some (v + sx t.imm)) (fun _ => none))
/-- TLDQ (R180): with FB it waits for every older coach. -/
def execTldq (t : TaskHdr) (ops : List Operand) (s : State) : Host.Outcome State Fault Refusal :=
  decodeTaskStep s (fun s n => if t.fb && !allDone (getQ s n) then s else signalTask (.tldq t ops) ops s n)
/-- TLOOP (R182). -/
def execTloop (t : TaskHdr) (ops : List Operand) (s : State) : Host.Outcome State Fault Refusal :=
  decodeTaskStep s (controlTask (.tloop t ops) ops t.qd (fun v => some (v - 1)) (fun v => if v ≠ 0 then some t.imm else none))
/-- TJMP (R182). -/
def execTjmp (t : TaskHdr) (ops : List Operand) (s : State) : Host.Outcome State Fault Refusal :=
  decodeTaskStep s (controlTask (.tjmp t ops) ops 0 (fun _ => none) (fun _ => some t.imm))
/-- TBRZ (R182). -/
def execTbrz (t : TaskHdr) (ops : List Operand) (s : State) : Host.Outcome State Fault Refusal :=
  decodeTaskStep s (controlTask (.tbrz t ops) ops t.qd (fun _ => none) (fun v => if v = 0 then some t.imm else none))
/-- TMARK (R183): waits in the window until it is oldest. -/
def execTmark (t : TaskHdr) (ops : List Operand) (s : State) : Host.Outcome State Fault Refusal :=
  decodeTaskStep s (fun s n => pushCoach s n (taskCoach s n (.tmark t ops)) (afterTask (getQ s n) ops))
/-- TPRI (R183). -/
def execTpri (t : TaskHdr) (ops : List Operand) (s : State) : Host.Outcome State Fault Refusal :=
  decodeTaskStep s (fun s n => pushCoach s n (taskCoach s n (.tpri t ops)) (afterTask (getQ s n) ops))
/-- THALT (R183): decode stops; the stream ends when it retires. -/
def execThalt (t : TaskHdr) (ops : List Operand) (s : State) : Host.Outcome State Fault Refusal :=
  decodeTaskStep s (fun s n =>
    modQ (pushCoach s n (taskCoach s n (.thalt t ops)) (afterTask (getQ s n) ops)) n (fun q => { q with stop := some .halted }))

/-! ## Reads of decode (R190) -/

/-- What a task does once the descriptors it needs have come; none while it still waits for the sidings. -/
def decodeRead (s : State) (n : Nat) (i : Instr) : Option State :=
  match i with
  | .kern t ops => decodePlaced s n i t ops
  | .gang t ops => decodePlaced s n i t ops
  | .tcopy t ops => decodePlaced s n i t ops
  | .tfill t ops => decodePlaced s n i t ops
  | .tdef t ops => some (decodeTdef s n i t ops)
  | .tsig t ops => some (decodeSignal s n i t ops false)
  | .twait t ops => some (decodeSignal s n i t ops false)
  | .tldq t ops => some (decodeSignal s n i t ops true)
  | _ => none

/-- The destination register of a coach's TLDQ. -/
def coachQd (c : Coach) : Nat :=
  match c.task with
  | some i => ((taskParts i).map (fun p => p.2.1.qd.toNat)).getD 0
  | none => 0

/-- DECODE_READ_RETURN: a descriptor read or the load of a TLDQ returns; the next task may decode in the next cycle (R190). -/
def execDecodeReadReturn (queue : Nat) (s : State) : Host.Outcome State Fault Refusal :=
  let q := getQ s queue
  match q.stop with
  | some (.read k i) => if arrived s k && q.live then .next ((decodeRead s queue i).getD s) else .next s
  | some (.tldq id) =>
    let r := getReq s id
    if r.st = .done then
      let s := if r.ue then bvStopOnEvent (postEvent s 7 none 0 (lineOf r.addr)) 3 else s
      let s := dropReq s id
      .next (match q.coaches.find? (fun c => c.req = some id) with
        | none => modQ s queue (fun q => { q with stop := none })
        | some c =>
          let s := modQ s queue (fun q => { q with stop := none, q := smPut q.q (coachQd c) (signalVal r) })
          let s := modCoach s queue c.num (fun c => { c with st := .completed, req := none, deltas := [.q (coachQd c) (smGet 0 q.q (coachQd c))] })
          bvCoach s queue 3 c)
    else .next s
  | _ => .next s

end Sys2Proof.Machine
end

