-- ==== Sys2Proof/Machine/Coach.lean ====
section
/-! DEFINITION. Coaches in the window: issue, fills, completion, retirement, waits and fences, and the fault of a stream with
the undoing of what it had begun (R107, R113 to R118, R171 to R183, R187 to R197, R93). -/

namespace Sys2Proof.Machine

/-! ## Stopping requests and jobs (R197) -/

/-- A chunk or access that has gone out and not come back. -/
def Chunk.flying (c : Chunk) : Bool := c.tick.isSome && !c.done

/-- A request stops: what is in flight still lands, and of an inbound copy the chunks that have come are written into their rows; the
rest is dropped (R93, R197). -/
def stopReq (s : State) (id : Nat) : State :=
  let r := getReq s id
  let s := unqueue (leavePark s id) id
  let s := match r.acq with
    | some k => dropTicket s k
    | none => s
  let s := (r.chunks.filter (fun c => c.tick.isNone && !c.done)).foldl (fun s c => chunkEnds s (unitOf r) (tidOf r c.side) c.tile) s
  let brought (c : Chunk) : Bool := c.done && !writesMem r false && (r.kind = .copy || r.kind = .copyn)
  let kept := r.chunks.filter (fun c => c.flying || brought c)
  if kept = [] ∧ r.tick.isNone then dropReq s id
  else
    let s := setReq s id { r with st := .stopped, chunks := kept, acq := none, replaying := false }
    if r.tick.isNone then stoppedDone s id else s

/-- Requests of a job that it owes before its task completes: prefetches are owed nothing (R114, R320). -/
def jobReqs (s : State) (id : Nat) : List Nat := reqsOf s (fun r => r.job = some id && r.kind ≠ .pref)

/-- A job's place is given back: its contexts, and the frames of its image (R148, R197). -/
def discardJob (s : State) (id : Nat) : State :=
  let j := getJob s id
  let s := (reqsOf s (fun r => r.job = some id)).foldl stopReq s
  let s := (jobCores j).foldl (fun s c =>
    if (getCtx s c j.ctx).j.job = some id then
      freeCtx (modCore s c (fun k => { k with mx := { k.mx with beats := k.mx.beats.filter (fun b => b.ctx ≠ j.ctx) } })) c j.ctx
    else s) s
  let s := match j.st with
    | .header k => dropTicket s k
    | .starting k _ => dropTicket s k
    | .swapping k => dropTicket s k
    | .restoring k => dropTicket s k
    | _ => s
  let s := zeroFrames s (j.frames.map (fun f => (f, j.part.toNat)))
  modJob s id (fun j => { j with st := .ended, killed := true, image := [], frames := [] })

/-- Whether a job holds contexts now. -/
def onCores (j : Job) : Bool :=
  match j.st with
  | .starting _ _ => true
  | .running => true
  | .halting => true
  | .halted => true
  | _ => false

/-- Kill a job: one on its cores halts first as for pre-emption, another is discarded at once (R197 step 2). -/
def killJob (s : State) (id : Nat) : State :=
  let j := getJob s id
  if onCores j then modJob s id (fun j => { j with killed := true, st := .halting })
  else discardJob s id

/-! ## Edges and publication (R115, R188) -/

/-- Coaches older than one. -/
def olderThan (q : Queue) (num : Nat) : List Coach := q.coaches.takeWhile (fun c => c.num ≠ num)

/-- Whether a task is a TWAIT. -/
def isTwait (c : Coach) : Bool := c.opc = 0x21

/-- Whether every edge of a coach is met (R188). -/
def edgesMet (q : Queue) (c : Coach) : Bool :=
  let older := olderThan q c.num
  c.edges.all (fun n => older.all (fun k => k.num ≠ n || k.st = .completed))
  && (!c.edgesAll || older.all (fun k => k.st = .completed))
  && older.all (fun k => !isTwait k || k.st = .completed)

/-- The versions that a coach's producers made (R115): those of its edges, or of every older completed task where it has an
edge to all or reads a raw region. -/
def producedFor (q : Queue) (qn : Nat) (c : Coach) (v : Version) : Bool :=
  v.queue = some qn && v.coach ≠ c.num
  && (c.edges.contains v.coach || c.edgesAll || c.ops.any (·.raw))
  && q.coaches.all (fun k => k.num ≠ v.coach || k.st = .completed)

/-- The smallest scope that holds two placements, none of cores standing for every agent (R115). -/
def commonScope (a b : List Nat) : BitVec 2 :=
  match a ++ b with
  | [] => 2
  | c :: l =>
    if a = [] ∨ b = [] then 2
    else if l.all (· = c) then 0
    else if l.all (fun x => clusterOf x = clusterOf c) then 1 else 2

/-- The writes of a coach's producers become visible at its place (R115). -/
def publishDeps (s : State) (qn : Nat) (c : Coach) (cores : List Nat) : State :=
  let q := getQ s qn
  (s.c.versions.filter (producedFor q qn c)).foldl (fun s v => publish s (fun u => u.id = v.id) (commonScope v.cores cores)) s

/-! ## Issue (R171, R191) -/

/-- The header of a coach's task. -/
def coachHdr (c : Coach) : TaskHdr :=
  match c.task.bind taskParts with
  | some (_, t, _) => t
  | none => { fb := false, scope := 0, fbk := false, prot := false, pcl := 0, ppos := 0, qd := 0, cond := 0, imm := 0 }
def coachImm (c : Coach) : Nat := (coachHdr c).imm.toNat

/-- The fills that a coach needs before it issues (R187). -/
def fillsOf (c : Coach) : List ROp := c.ops.filter (fun o => o.fillFrom.isSome)
/-- Whether they have all been made. -/
def filled (s : State) (c : Coach) : Bool :=
  c.fills.length = (fillsOf c).length && c.fills.all (fun id => !s.x.reqs.any (fun p => p.1 = id))

/-- Whether a coach is the oldest of the window. -/
def isHead (q : Queue) (c : Coach) : Bool := (q.coaches.head?.map (·.num)) = some c.num

/-- Whether a coach can issue now: its edges are met, and its resource can take it (R171, R191). -/
def canIssue (s : State) (q : Queue) (c : Coach) : Bool :=
  (c.st = .decoded || c.st = .waiting)
  && (if c.opc = 1 || c.opc = 2 then edgesMet q c && filled s c
    else if c.opc = 3 || c.opc = 4 then edgesMet q c && filled s c && (spareFe s).isSome
    else if c.opc = 0x21 then edgesMet q c
    else isHead q c)

/-- The coaches that a fault does not hold back: those before the oldest faulted one (R197 step 1). -/
def sound (q : Queue) : List Coach := q.coaches.takeWhile (fun c => c.fault.isNone && c.st ≠ .faulted)

/-- The coordinates of the first element of a tile (R315). -/
def tileOrigin (d : Desc) (t : Nat) : List Nat :=
  (d.dims.zip (d.grid t)).foldl (fun o p => o.set p.1 (p.2 * d.span p.1)) [0, 0, 0, 0, 0, 0]

/-- Whether a TCOPY's formats, boxes and steps break R142. -/
def tcopyBad (n : Nest) (dA dB : Desc) (oA oB : List Nat) : Bool :=
  let a := blockAlign [dA.fmt, dB.fmt]
  (dB.fmt = 9 && dA.fmt ≠ 9)
  || !alignedBox dA oA n.ext (n.lvls.map (·.astep)) a || !alignedBox dB oB n.ext (n.lvls.map (·.bstep)) a

/-- The first tile of an operand's first box. -/
def firstTile (o : ROp) : Nat := (o.boxes.head?.map (·.1)).getD 0

/-- A front-end engine's copy for a coach. -/
def feReq (s : State) (qn e : Nat) (c : Coach) (kind : ReqKind) (tid : Nat) : Req :=
  let q := getQ s qn
  { kind, fe := some e, queue := qn, coach := c.num, part := q.part, secure := q.secure, tid, ext := [1, 1, 1, 1, 1, 1]
    origin := [0, 0, 0, 0, 0, 0], issued := s.t.now, clk := q.clock }

/-- An engine takes a request: it joins its unit's queue. -/
def startFe (s : State) (e : Nat) (r : Req) : Nat × State :=
  let (id, s) := newId s
  (id, modUnit (setReq s id { r with id }) (160 + e) (fun u => { u with queue := u.queue ++ [id] }))

/-- A coach is issued. -/
def markIssued (s : State) (qn : Nat) (c : Coach) (f : Coach → Coach) : State :=
  bvCoach (modCoach s qn c.num (fun c => f { c with st := .issued })) qn 2 c
/-- A task that acts when oldest is issued, acts and completes at once. -/
def markDone (s : State) (qn : Nat) (c : Coach) (act : State → State) : State :=
  bvCoach (act (bvCoach (modCoach s qn c.num (fun c => { c with st := .completed })) qn 2 c)) qn 3 c

/-- KERN and GANG: the kernel header is read (R172, R434). -/
def issueJob (s : State) (qn : Nat) (c : Coach) : State :=
  let q := getQ s qn
  let t := coachHdr c
  let code := codeOfQ s qn
  let owned := (List.range 10).any (fun n => (getCl s n).owner = q.part)
  match c.badOp with
  | some k => reportFault s qn c.num 6 k 0 0xFFFF 0
  | none =>
    if !owned then reportFault s qn c.num 9 255 0 0xFFFF 0
    else match (if codeHas s code (64 * t.imm.toNat) 64 then codeAddr s code (64 * t.imm.toNat) else none) with
      | none => reportFault s qn c.num 7 255 0 0xFFFF 0
      | some a =>
        let (id, s) := newId s
        let (k, s) := startPath s q.part.toNat none s.t.now none [a]
        let j : Job := { id, queue := qn, coach := c.num, gang := c.opc = 2, pri := min (pceil s q.part.toNat) q.pri.toNat, part := q.part
                         prot := t.prot, fbk := t.fbk, args := c.sregs, pcl := t.pcl.toNat, ppos := t.ppos.toNat, st := .header k, clk0 := q.clock }
        markIssued (setJob s id j) qn c (fun c => { c with job := some id })

/-- TCOPY (R174, R315). -/
def issueTcopy (s : State) (qn e : Nat) (c : Coach) : State :=
  match c.badOp, c.ops with
  | some k, _ => reportFault s qn c.num 6 k 0 0xFFFF 0
  | none, a :: b :: _ =>
    match nestAt s (codeOfQ s qn) (coachImm c) with
    | none => reportFault s qn c.num 6 255 0 0xFFFF 0
    | some img =>
      let n := nestOf img
      let dA := descOf (descImage s a.tid)
      let dB := descOf (descImage s b.tid)
      let oA := tileOrigin dA (firstTile a)
      let oB := tileOrigin dB (firstTile b)
      if n.dir ≠ 2 then reportFault s qn c.num 6 255 0 0xFFFF 0
      else if tcopyBad n dA dB oA oB then reportFault s qn c.num 10 255 0 0xFFFF 0
      else
        let s := publishDeps s qn c []
        let (id, s) := startFe s e { feReq s qn e c .tcopy a.tid with dstTid := b.tid, origin := oA, dstOrigin := oB, ext := n.ext, nest := some img }
        markIssued s qn c (fun c => { c with req := some id })
  | none, _ => reportFault s qn c.num 6 255 0 0xFFFF 0

/-- TFILL (R175). -/
def issueTfill (s : State) (qn e : Nat) (c : Coach) : State :=
  match c.badOp, c.ops with
  | some k, _ => reportFault s qn c.num 6 k 0 0xFFFF 0
  | none, a :: _ =>
    let d := descOf (descImage s a.tid)
    if d.fmt = 9 then reportFault s qn c.num 6 0 0 0xFFFF 0
    else
      let s := publishDeps s qn c []
      let (id, s) := startFe s e { feReq s qn e c .tfill a.tid with tiles := tilesOf d a.grid, val := BitVec.ofNat 64 (coachImm c) }
      markIssued s qn c (fun c => { c with req := some id })
  | none, [] => reportFault s qn c.num 6 255 0 0xFFFF 0

/-- TSIG and TWAIT: the store or the first load goes out (R178, R181). -/
def issueSignal (s : State) (qn : Nat) (c : Coach) : State :=
  let t := coachHdr c
  let tid := (c.ops.head?.map (·.tid)).getD 0
  let (id, s) := signalReq s qn c.num (if isTwait c then .twait else .tsig) tid t.imm c.qval t.scope
  markIssued s qn c (fun c => { c with req := some id })

/-- The issue of one coach. -/
def issueCoach (s : State) (qn : Nat) (c : Coach) : State :=
  match c.opc with
  | 1 => issueJob s qn c
  | 2 => issueJob s qn c
  | 3 => issueTcopy s qn ((spareFe s).getD 0) c
  | 4 => issueTfill s qn ((spareFe s).getD 0) c
  | 0x20 => issueSignal s qn c
  | 0x21 => issueSignal s qn c
  | 0x40 => markDone s qn c (fun s => bvRecord s 6 (some qn) (coachImm c + c.num % 2 ^ 32 * 2 ^ 32))
  | 0x41 =>
    let q := getQ s qn
    markDone s qn c (fun s => modQ s qn (fun v => { v with pri := BitVec.ofNat 3 (min (pceil s q.part.toNat) (coachImm c % 8)) }))
  | _ => markDone s qn c id

/-- A fill that consumed an uncorrectable error faults its coach (R370). -/
def badFill (s : State) (q : Queue) : Option (Coach × Nat) :=
  q.coaches.findSome? (fun c => (c.fills.find? (fun id => (getReq s id).st = .done && (getReq s id).kind = .fill)).map (fun id => (c, id)))

/-- Peers have still to acknowledge writes of a stream's tasks: a zero-length read goes out to them (R118). -/
def flushPeers (s : State) (queue : Nat) : State :=
  if (getQ s queue).flushAt.isSome then s
  else
    let (n, s) := draw s
    modQ s queue (fun q => { q with flushAt := some (s.t.now + min 80000 (Config.peerLatency n)) })

/-- COACH_ISSUE: the oldest waiting coach that its resource can take (R191). A TSIG under system scope stores only once older writes to
peers are acknowledged (R116, R118). -/
def execCoachIssue (queue : Nat) (s : State) : Host.Outcome State Fault Refusal :=
  let q := getQ s queue
  match badFill s q with
  | some (c, id) => .next (reportFault (dropReq s id) queue c.num 13 255 0 0xFFFF 0)
  | none =>
    if !q.live then .next s
    else match (sound q).find? (canIssue s q) with
      | some c => .next (if c.opc = 0x20 && (coachHdr c).scope = 3 && q.peerOwed then flushPeers s queue else issueCoach s queue c)
      | none => .next s

/-- WAGON_FILL: the next fill of a coach whose edges are met takes a free engine (R187). -/
def execWagonFill (queue coach : Nat) (s : State) : Host.Outcome State Fault Refusal :=
  let q := getQ s queue
  match (sound q).find? (fun c => c.num = coach), spareFe s with
  | some c, some e =>
    match (fillsOf c)[c.fills.length]? with
    | some o =>
      if q.live && (c.st = .decoded || c.st = .waiting) && edgesMet q c then
        let s := publishDeps s queue c []
        let n := (descOf (descImage s o.tid)).tileCount
        let (id, s) := startFe s e { feReq s queue e c .fill (wagonTid (o.fillFrom.getD 0)) with dstTid := o.tid, tiles := List.range n }
        .next (modCoach s queue coach (fun c => { c with st := .waiting, fills := c.fills ++ [id] }))
      else .next s
    | none => .next s
  | _, _ => .next s

/-! ## Completion (R113, R114, R118) -/

/-- A coach's writes are performed at a scope. -/
def performAt (s : State) (qn num : Nat) (scope : BitVec 2) : State := publish s (fun v => v.queue = some qn && v.coach = num) scope

/-- A coach completes: its clock, its readers, its record. -/
def finishCoach (s : State) (qn : Nat) (c : Coach) (clk : Nat) (scope : BitVec 2) : State :=
  let s := performAt s qn c.num scope
  let s := modQ s qn (fun q => { q with clock := max q.clock clk })
  let s := countReaders s c.reads (· - 1)
  let s := modCoach s qn c.num (fun c => { c with st := .completed, reads := [], req := none, job := none, finished := true })
  clockEvent (bvCoach s qn 3 c)

/-- What a coach has come to: nothing yet, a fault, or its end with the largest timestamp. -/
inductive CoachEnd where
  | notYet
  | faulty
  | ended (clk : Nat)
  deriving DecidableEq, Repr

def coachEnd (s : State) (c : Coach) : CoachEnd :=
  match c.job, c.req with
  | some id, _ =>
    let j := getJob s id
    if j.st = .ended ∧ !j.killed ∧ jobReqs s id = [] then .ended j.clk else .notYet
  | none, some id =>
    let r := getReq s id
    if r.st = .done ∧ r.kind ≠ .twait ∧ r.kind ≠ .tldq then (if r.ue ∧ r.kind ≠ .tsig then .faulty else .ended r.maxTs) else .notYet
  | none, none => .notYet

/-- COACH_COMPLETE: the job or engine has finished and every write is performed at the completion scope (R114); under system
scope the peers have acknowledged first (R118). -/
def execCoachComplete (queue coach : Nat) (s : State) : Host.Outcome State Fault Refusal :=
  let q := getQ s queue
  match getCoach s queue coach with
  | none => .next s
  | some c =>
    if c.st ≠ .issued ∨ c.fault.isSome then .next s
    else match coachEnd s c with
      | .notYet => .next s
      | .faulty => .next (reportFault s queue coach 13 255 0 0xFFFF 0)
      | .ended clk =>
        let t := coachHdr c
        if t.scope = 3 ∧ q.peerOwed = true ∧ c.opc ≠ 0x20 then .next (flushPeers s queue)
        else
          let s := match c.req with
            | some id => dropReq s id
            | none => s
          let s := match c.job with
            | some id => { s with f := { s.f with jobs := smDel s.f.jobs id } }
            | none => s
          .next (finishCoach s queue c clk (if c.job.isSome then t.scope else 2))

/-- PEER_FLUSH_COMPLETE: the zero-length read returns; the peer writes are performed (R118). -/
def execPeerFlushComplete (queue _coach : Nat) (s : State) : Host.Outcome State Fault Refusal :=
  match (getQ s queue).flushAt with
  | some u => if u ≤ s.t.now then .next (modQ s queue (fun q => { q with peerOwed := false, flushAt := none })) else .next s
  | none => .next s

/-- The condition of a TWAIT (R181). -/
def waitHolds (cond : BitVec 3) (v q : Word) : Bool :=
  match cond.toNat with
  | 0 => v = q
  | 1 => v ≠ q
  | 2 => q.sle v
  | 3 => v.slt q
  | 4 => q.ule v
  | _ => v.ult q

/-- TWAIT_LOAD_RETURN: the load satisfies the condition, or the next one goes out (R181). -/
def execTwaitLoadReturn (queue : Nat) (s : State) : Host.Outcome State Fault Refusal :=
  match (getQ s queue).coaches.find? (fun c => c.st = .issued && isTwait c) with
  | none => .next s
  | some c => match c.req with
    | none => .next s
    | some id =>
      let r := getReq s id
      if r.st ≠ .done ∨ c.fault.isSome then .next s
      else
        let s := if r.ue then bvStopOnEvent (postEvent s 7 none 0 (lineOf r.addr)) 3 else s
        if waitHolds (coachHdr c).cond (signalVal r) c.qval then .next (finishCoach (dropReq s id) queue c 0 2)
        else .next (setReq s id { r with st := .running, ord := 0, iter := 0, issued := s.t.now, clk := (getQ s queue).clock, ue := false })

/-- TFENCE_COMPLETE: every older coach has completed and every older write is visible at the scope, under system scope also those to peers
(R107, R118, R179). -/
def execTfenceComplete (queue : Nat) (s : State) : Host.Outcome State Fault Refusal :=
  let q := getQ s queue
  match q.stop with
  | some (.fence n) => match getCoach s queue n with
    | some c =>
      if q.live && (olderThan q n).all (fun k => k.st = .completed) then
        let sc := (coachHdr c).scope
        if sc = 3 ∧ q.peerOwed = true then .next (flushPeers s queue)
        else
        let s := publish s (fun v => v.queue = some queue && v.coach ≠ n) sc
        .next (modQ (finishCoach s queue c 0 sc) queue (fun q => { q with stop := none }))
      else .next s
    | none => .next s
  | _ => .next s

/-- COACH_RETIRE: the oldest coach retires if it has completed (R192); with a THALT the stream ends (R183). -/
def execCoachRetire (queue : Nat) (s : State) : Host.Outcome State Fault Refusal :=
  let q := getQ s queue
  match q.coaches with
  | c :: l =>
    if q.live ∧ c.st = .completed ∧ c.fault.isNone then
      let s := bvCoach (releaseWagons s c.frees) queue 4 c
      let s := modQ s queue (fun q => { q with coaches := l, wdFrom := timebase s, wdStage := 0 })
      if c.opc = 0x7F then .next (startUnmap (modQ (releaseNames s queue) queue (fun q => { q with st := .ended, wake := false })) queue)
      else .next s
    else .next s
  | [] => .next s

/-! ## Faults of a stream (R194 to R197) -/

/-- Whether faults of a cause are dumped (R374). -/
def dumped (s : State) (cause : Nat) : Bool := bitN (creg s 0x230200).toNat 0 && 11 ≤ cause && cause ≤ 15

/-- A minimal dump record goes to the on-die area, the last place replaced when it is full (R375). -/
def minimalDump (s : State) (code agent reason off : Nat) : State :=
  let r := Config.minimalRecord code agent reason (timebase s) off
  if s.w.ondie.length < 1023 then { s with w := { s.w with ondie := s.w.ondie ++ [r] } }
  else { s with w := { s.w with ondie := s.w.ondie.set 1022 r, ondieOver := s.w.ondieOver + 1 } }

/-- Queue a dump of an agent; a full queue leaves a minimal record, and a second fault of the agent now dumped adds a nested
record (R374, R375). -/
def requestDump (s : State) (agent reason : Nat) : State :=
  match s.w.dump with
  | some (a, r, l, due) =>
    if a = agent then
      { s with w := { s.w with dump := some (a, r, l ++ [{ (smGet {} s.w.traprecs agent) with time := timebase s }], due) } }
    else queueIt s agent reason
  | none => queueIt s agent reason
where
  queueIt (s : State) (agent reason : Nat) : State :=
    if s.w.dumpq.length < 16 then { s with w := { s.w with dumpq := s.w.dumpq ++ [(agent, reason)] } }
    else minimalDump s 4 agent reason 0

/-- The agents of a job. -/
def jobAgents (j : Job) : List Nat := (jobCores j).map (fun c => agentOf c j.ctx)

/-- A further fault of a job whose coach has faulted already and whose agent is being dumped adds a nested record (R375). -/
def nestFault (s : State) (id cause detail : Nat) : State :=
  let j := getJob s id
  match s.w.dump, (getCoach s j.queue j.coach).bind (·.fault) with
  | some (a, r, l, due), some _ =>
    if (jobAgents j).contains a then
      { s with w := { s.w with dump := some (a, r, l ++ [{ (smGet {} s.w.traprecs a) with cause, detail, time := timebase s }], due) } }
    else s
  | _, _ => s

/-- Whether a dump of a job is still owed. -/
def dumpOwed (s : State) (j : Job) : Bool :=
  (jobAgents j).any (fun a => s.w.dumpq.any (fun d => d.1 = a) || s.w.dump.any (fun d => d.1 = a))

/-- Stop what a coach has issued (R197 step 2). -/
def killCoach (s : State) (c : Coach) : State :=
  let s := match c.job with
    | some id => killJob s id
    | none => s
  let s := match c.req with
    | some id => if s.x.reqs.any (fun p => p.1 = id) then stopReq s id else s
    | none => s
  c.fills.foldl (fun s id => if s.x.reqs.any (fun p => p.1 = id) then stopReq s id else s) s

/-- STREAM_FAULT: a coach has reported a fault: decode stops, its own work and that of younger coaches is stopped, a dump of its
job is asked for (R197 steps 1 and 2, R374). -/
def execStreamFault (queue coach : Nat) (s : State) : Host.Outcome State Fault Refusal :=
  let q := getQ s queue
  match getCoach s queue coach with
  | none => .next s
  | some c => match c.fault with
    | none => .next s
    | some (cause, _, _, _, _) =>
      if c.st = .faulted ∨ (olderThan q coach).any (fun k => k.st = .faulted) = true then .next s
      else
        let s := bvCoach s queue 5 c cause
        let s := match q.stop with
          | some (.read k _) => dropTicket s k
          | _ => s
        let s := modQ s queue (fun q => { q with stop := some .fault })
        let s := match c.job with
          | some id =>
            let j := getJob s id
            if dumped s cause && onCores j then (j.members.map (fun m => agentOf m j.ctx)).foldl (fun s a => requestDump s a cause) s else s
          | none => s
        let s := (q.coaches.dropWhile (fun k => k.num ≠ coach)).foldl killCoach s
        .next (modCoach s queue coach (fun c => { c with st := .faulted }))

/-- Undo the deltas of a coach. -/
def undoDeltas (q : Queue) (l : List Delta) : Queue :=
  l.reverse.foldl (fun q d => match d with
    | .name n old => { q with names := smPut q.names n old }
    | .q n old => { q with q := smPut q.q n old }) q

/-- Whether all stopped work of a list of coaches has ended (R197 step 4). -/
def workEnded (s : State) (qn : Nat) (l : List Coach) : Bool :=
  l.all (fun c =>
    !s.x.reqs.any (fun p => p.2.fe.isSome && p.2.queue = qn && p.2.coach = c.num && p.2.st ≠ .done)
    && (match c.job with
      | some id => decide ((getJob s id).st = .ended) && !s.x.reqs.any (fun p => p.2.job = some id)
      | none => true))

/-- The bytes of a stream fault record (R195). -/
def streamRecord (s : State) (qn : Nat) (c : Coach) : Nat :=
  let (cause, opidx, detail, member, baddr) := c.fault.getD (0, 255, 0, 0xFFFF, 0)
  cause + opidx % 256 * 2 ^ 8 + ((getQ s qn).eng.getD 0) % 32 * 2 ^ 16 + qn % 128 * 2 ^ 24 + c.num % 2 ^ 32 * 2 ^ 32
  + c.taddr % 65536 * 2 ^ 64 + detail % 2 ^ 32 * 2 ^ 96 + c.faultAt % 2 ^ 64 * 2 ^ 128
  + member % 65536 * 2 ^ 192 + baddr % 2 ^ 32 * 2 ^ 224

/-- Give back what a coach took (R197 step 4). -/
def undoCoach (s : State) (qn : Nat) (c : Coach) : State :=
  let s := modQ s qn (fun q => undoDeltas q c.deltas)
  let s := countReaders s c.reads (· - 1)
  let s := c.takes.foldl (fun s w => freeWagon (dropWagonUse s w) w) s
  let s := (reqsOf s (fun r => r.fe.isSome && r.queue = qn && r.coach = c.num)).foldl (fun s id => dropReq s id) s
  match c.job with
  | some id => { s with f := { s.f with jobs := smDel s.f.jobs id } }
  | none => s

/-- FAULT_DELTA_RESTORE: the faulted coach is the oldest and all stopped work has ended: deltas are undone from the youngest, the
record is written, the stream is faulted and unmapped (R197 steps 4 and 5, R358). -/
def execFaultDeltaRestore (queue : Nat) (s : State) : Host.Outcome State Fault Refusal :=
  let q := getQ s queue
  match q.coaches with
  | k :: _ =>
    if k.st = .faulted ∧ q.live ∧ workEnded s queue q.coaches = true then
      let s := q.coaches.reverse.foldl (fun s c => undoCoach s queue c) s
      let s := partWrite s (bitsN (creg s (queueReg queue 0x30)).toNat 51 6 * 64) (streamRecord s queue k) 64
      let s := modQ s queue (fun q => { q with coaches := [], taddr := k.taddr, st := .faulted, stop := none, wdStage := 0 })
      let s := bvStopOnEvent (postEvent s 2 (some queue) q.part k.num) 0
      .next (startUnmap s queue)
    else .next s
  | [] => .next s

/-- PARKEND: the parked request of a place is discarded and its task faults (R93). -/
def execParkend (w : Writer) (place : Nat) (s : State) : Host.Outcome State Fault Refusal :=
  match s.x.park.find? (fun p => p.1 = place) with
  | none => .next (respond s .error)
  | some (_, id) =>
    if w ≠ .firmware then .next (respond s .error)
    else
      let r := getReq s id
      let s := stopReq s id
      let s := match r.job with
        | some j => faultJob (nestFault s j 11 r.frIdx) j (if r.core < 80 then r.core else (getJob s j).members.getD (r.core - 100) 0) 11 r.frIdx 0
        | none => reportFault s r.queue r.coach 11 255 r.frIdx 0xFFFF 0
      .next (respond s .ok)

end Sys2Proof.Machine
end

