-- ==== Sys2Proof/Machine/Jobs.lean ====
section
/-! DEFINITION. Jobs: the kernel header, placement and its resets, dispatch and victims, the start of a job, rollback, and
pre-emption with swap-out and restore (R37, R64, R68, R146, R147, R156 to R164, R193, R313, R323, R359 to R361, R434). -/

namespace Sys2Proof.Machine

/-! ## The kernel header (R193) -/

/-- `n` bytes of a kernel header from byte `o`. -/
def hdrNat (h : BitVec 512) (o n : Nat) : Nat := bitsN h.toNat (8 * (o + n) - 1) (8 * o)
def hdrEntry (h : BitVec 512) : Nat := hdrNat h 0 4
def hdrGmask (h : BitVec 512) : BitVec 8 := BitVec.ofNat 8 (hdrNat h 4 1)
def hdrFlag (h : BitVec 512) (i : Nat) : Bool := bitN (hdrNat h 5 1) i
def hdrGsize (h : BitVec 512) : Nat := hdrNat h 6 1
/-- Frame sizes in registers. -/
def hdrVfx (h : BitVec 512) : Nat := 64 * hdrNat h 8 2
def hdrVfy (h : BitVec 512) : Nat := 64 * hdrNat h 10 2
def hdrFmt (h : BitVec 512) (g : Nat) : Nat := bitsN (hdrNat h 16 4) (4 * g + 3) (4 * g)
def hdrSegMask (h : BitVec 512) : BitVec 32 := BitVec.ofNat 32 (hdrNat h 28 4)
/-- Register numbers mirrored, by file. -/
def hdrMir (h : BitVec 512) (file : Bool) : List Nat := (List.range 64).filter (fun i => bitN (hdrNat h (if file then 40 else 32) 8) i)
def hdrTmap (h : BitVec 512) : Nat := hdrNat h 48 4
def hdrNtmap (h : BitVec 512) : Nat := hdrNat h 52 2
/-- Groups of the mask. -/
def groupsOf (m : BitVec 8) : List Nat := (List.range 8).filter (fun g => m.getLsbD g)

/-- Whether a header breaks a rule of R193 or R172. -/
def headerBad (s : State) (j : Job) (code : CodeOf) (h : BitVec 512) : Bool :=
  let prot := j.prot || hdrFlag h 2
  let n := hdrGsize h
  let mirBad (file : Bool) (v : Nat) : Bool := (hdrMir h file).length > 8 || (hdrMir h file).any (fun i => v ≤ i)
  !codeHas s code (32 * hdrEntry h) 32
  || hdrNat h 5 1 / 16 ≠ 0 || hdrNat h 7 1 ≠ 0 || hdrNat h 12 4 ≠ 0 || hdrNat h 20 4 ≠ 0 || hdrNat h 54 10 ≠ 0
  || n = 0 || n > 8 || (if j.gang then n < 2 || (prot && n > 4) else n ≠ 1)
  || hdrVfx h > 4096 || hdrVfy h > 4096
  || (groupsOf (hdrGmask h)).any (fun g => !fmtOk (hdrFmt h g))
  || (List.range 8).any (fun r => n ≤ r && skewOf h r ≠ 0)
  || (List.range 32).any (fun b => (hdrSegMask h).getLsbD b && !(hdrGmask h).getLsbD (b / 4))
  || mirBad false (hdrVfx h) || mirBad true (hdrVfy h)
  || hdrTmap h % 4 ≠ 0

/-- The tile map of a kernel (R63, R64); none where it lies beyond the code tensor or an entry is reserved. -/
def tileMap (s : State) (code : CodeOf) (h : BitVec 512) : Option (List Tile) :=
  (List.range (hdrNtmap h)).foldr (fun i acc =>
    let o := hdrTmap h + 4 * i
    if codeHas s code o 4 then
      let w := codeNat s code o 4
      let st := bitsN w 29 28
      let t : Tile := { blo := bitsN w 4 0, bhi := bitsN w 9 5, wlo := bitsN w 18 10, whi := bitsN w 27 19, st := if st = 2 then .ready else .empty }
      if bitN w 30 && !bitN w 31 && st % 2 = 0 && t.blo ≤ t.bhi && t.wlo ≤ t.whi then acc.map (t :: ·) else none
    else none) (some [])

/-- Whether two entries overlap. -/
def Tile.meets (a b : Tile) : Bool := a.blo ≤ b.bhi && b.blo ≤ a.bhi && a.wlo ≤ b.whi && b.wlo ≤ a.whi

/-- Whether no two of a list overlap. -/
def tilesApart : List Tile → Bool
  | [] => true
  | t :: l => l.all (fun u => !t.meets u) && tilesApart l

/-- Whether a tile map breaks R64: more than 256 entries, banks outside the job's, or an overlap. -/
def tileMapBad (h : BitVec 512) : Option (List Tile) → Bool
  | none => true
  | some l => hdrNtmap h > 256 || l.any (fun t => (List.range 32).any (fun b => t.blo ≤ b && b ≤ t.bhi && !(hdrGmask h).getLsbD (b / 4))) || !tilesApart l

/-! ## Where a job can stand (R146, R359) -/

/-- The cores of a member: both of its pair where the job is protected. -/
def memberCores (j : Job) (m : Nat) : List Nat := if j.prot then [m, m + 1] else [m]

/-- The first run of `n` places in `lim`, in steps, that meets none of the taken ranges. -/
def firstRun (taken : List (Nat × Nat)) (lim n step : Nat) : Option Nat :=
  if n = 0 then some 0
  else ((List.range (lim / step)).map (· * step)).find? (fun b => b + n ≤ lim && taken.all (fun t => b + n ≤ t.1 || t.1 + t.2 ≤ b))

/-- Contexts of a core that are not free. -/
def placedCtxs (k : Core) : List Ctx := (k.ctxs.map (·.2)).filter (fun v => v.status ≠ .free)

/-- Tile entries in use. -/
def tilesTaken (k : Core) : List (Nat × Nat) :=
  k.sp.tiles.map (fun p => (p.1, 1)) ++ (placedCtxs k).map (fun v => (v.j.tbase, v.j.ntiles))

/-- Whether the crossbar bank of a core is claimed, by a context or by a swapped-out job (R347). -/
def xbarTaken (s : State) (id c : Nat) : Bool :=
  (placedCtxs (getCore s c)).any (fun v => v.j.claimX)
  || s.f.jobs.any (fun p => p.1 ≠ id && p.2.image.any (fun m => m.core = c && m.ctx.j.claimX))

/-- What a member is granted: the x-file and y-file frames and the run of tile entries. -/
structure Grant where
  x : Nat
  y : Nat
  tb : Nat
  deriving DecidableEq, Repr

/-- What the cores of a member can grant in context `x`; none where they cannot take it. -/
def fits (s : State) (id : Nat) (j : Job) (cs : List Nat) (x : Nat) : Option Grant :=
  let h := j.hdr
  let ok (c : Nat) : Bool :=
    let k := getCore s c
    !k.disabled && !k.suspect && (ctxOf k x).status = .free
    && (groupsOf (hdrGmask h)).all (fun g => (getGrp k g).held.isNone && !(getGrp k g).dis)
    && (!hdrFlag h 0 || (placedCtxs k).all (fun v => !v.j.claimM))
    && (!hdrFlag h 1 || !xbarTaken s id c)
  if cs.all ok then
    let all (f : Core → List (Nat × Nat)) : List (Nat × Nat) := cs.flatMap (fun c => f (getCore s c))
    match firstRun (all (fun k => (placedCtxs k).map (·.j.grantx))) 4096 (hdrVfx h) 64,
          firstRun (all (fun k => (placedCtxs k).map (·.j.granty))) 4096 (hdrVfy h) 64,
          firstRun (all tilesTaken) 256 (hdrNtmap h) 1 with
    | some gx, some gy, some tb => some { x := gx, y := gy, tb }
    | _, _, _ => none
  else none

/-- The core positions of a cluster that may lead a member: even ones for protected jobs, the one named for a KERN. -/
def candidates (j : Job) (cl : Nat) : List Nat :=
  ((List.range 8).filter (fun p => (!j.prot || p % 2 = 0) && (j.ppos = 15 || j.ppos = p))).map (fun p => 8 * cl + p)

/-- The context and members that a job gets in a cluster (R359); a job that claims the crossbar goes back to its own (R347). -/
def placeIn (s : State) (id : Nat) (j : Job) (cl : Nat) : Option (Nat × List Nat) :=
  let can (x m : Nat) : Bool := (fits s id j (memberCores j m) x).isSome
  let back := j.image ≠ [] && hdrFlag j.hdr 1
  let cand := if back then j.members.filter (fun m => m / 8 = cl) else candidates j cl
  let n := hdrGsize j.hdr
  if n ≤ 1 then cand.findSome? (fun m => ((List.range 4).find? (fun x => can x m)).map (fun x => (x, [m])))
  else (List.range 4).findSome? (fun x =>
    let ms := cand.filter (can x)
    if n ≤ ms.length then some (x, ms.take n) else none)

/-- OCC: the occupied contexts of a cluster (R363). -/
def occ (s : State) (cl : Nat) : Nat := (List.range 8).foldl (fun n p => n + (placedCtxs (getCore s (8 * cl + p))).length) 0
/-- DTHR. -/
def dthr (s : State) (cl : Nat) : Nat := cfield s (0x10000 + 0x10000 * cl + 0x30) 5 0

/-- The clusters that a job may use: of its partition, allowed by PCL, not changing owner (R359, R364). -/
def myClusters (s : State) (j : Job) : List Nat :=
  (List.range 10).filter (fun n => (getCl s n).owner = j.part && (getCl s n).moveTo.isNone && (j.pcl = 15 || j.pcl = n))

/-- The least element of a list by a key, the first on a tie. -/
def leastBy (f : Nat → Nat) : List Nat → Option Nat
  | [] => none
  | a :: l => match leastBy f l with
    | some b => if f b < f a then some b else some a
    | none => some a

/-- The cluster, context and members for a job now: the open cluster with the fewest occupied contexts (R359). -/
def choosePlace (s : State) (id : Nat) (j : Job) : Option (Nat × Nat × List Nat) :=
  match leastBy (occ s) ((myClusters s j).filter (fun n => occ s n < dthr s n && (placeIn s id j n).isSome)) with
  | some n => (placeIn s id j n).map (fun p => (n, p.1, p.2))
  | none => none

/-! ## Placement (R37, R147, R286, R323) -/

/-- Clear what a core's parts take into the non-secure world (R37). -/
def clearWorld (k : Core) (h : BitVec 512) (secure : Bool) : Core :=
  let k := (groupsOf (hdrGmask h)).foldl (fun k g =>
    let k := if (getGrp k g).secure && !secure then
        { k with sp := { k.sp with rows := k.sp.rows.filter (fun p => grpOf (p.1 / 512) ≠ g)
                                   badRows := k.sp.badRows.filter (fun p => grpOf (p.1 / 512) ≠ g)
                                   softRows := k.sp.softRows.filter (fun p => grpOf (p.1 / 512) ≠ g) } }
      else k
    modGrp k g (fun v => { v with secure })) k
  if hdrFlag h 1 then
    let b := if k.xb.secure && !secure then { k.xb with arrays := [], cells := [], image := [] } else k.xb
    { k with xb := { b with secure } }
  else k

/-- A member's context on one core takes its place: groups with their formats, claims, frames and tiles (R62, R64, R146). -/
def takePlace (s : State) (id : Nat) (j : Job) (c x rank : Nat) (g : Grant) (tiles : List Tile) (secure : Bool) : State :=
  let h := j.hdr
  modCore s c (fun k =>
    let k := clearWorld k h secure
    let k := (groupsOf (hdrGmask h)).foldl (fun k q => modGrp k q (fun v =>
      { v with held := some id, releasing := false, fmt := BitVec.ofNat 4 (hdrFmt h q) })) k
    let inX (p : Nat) : Bool := g.x ≤ p && p < g.x + hdrVfx h
    let inY (p : Nat) : Bool := 4096 + g.y ≤ p && p < 4096 + g.y + hdrVfy h
    let k := { k with
      vf := { k.vf with
        vregs := k.vf.vregs.filter (fun p => !inX p.1 && !inY p.1)
        vEmpty := k.vf.vEmpty.filter (fun p => !inX p.1 && !inY p.1)
        vBad := k.vf.vBad.filter (fun p => !inX p.1 && !inY p.1) }
      sp := { k.sp with tiles := (tiles.zip (List.range tiles.length)).foldl (fun m t => smPut m (g.tb + t.2) t.1) k.sp.tiles }
      mx := if hdrFlag h 0 then {} else k.mx
      xb := if hdrFlag h 1 then { k.xb with coupling := [], results := [], xq := k.xb.xq.filter (·.auto), bank := .on, xctl := [] } else k.xb }
    let place : Place := {
      grantx := (g.x, hdrVfx h), granty := (g.y, hdrVfy h)
      mirx := (hdrMir h false).map (g.x + ·), miry := (hdrMir h true).map (g.y + ·)
      part := j.part, secure, rank, gsize := hdrGsize h, strict := hdrFlag h 3, prot := j.prot, fbk := j.fbk
      claimM := hdrFlag h 0, claimX := hdrFlag h 1, gmask := hdrGmask h, tbase := g.tb, ntiles := tiles.length
      code := BitVec.ofNat 16 (codeTid s j.queue), job := some id }
    let r : Regs := { sregs := (j.args.zip (List.range j.args.length)).foldl (fun m a => smPut m (a.2 + 1) a.1) []
                      vfbx := BitVec.ofNat 12 g.x, vfby := BitVec.ofNat 12 g.y, pc := BitVec.ofNat 32 (hdrEntry h) }
    putCtx k x { status := .starting, lc := j.clk0, r, j := place, g := { segMask := hdrSegMask h, chk := checkpointOf r } })

/-- A JOB record (R382): 0 placed, 1 pre-empted, 2 restored, 3 ended. -/
def bvJob (s : State) (j : Job) (what : Nat) : State :=
  bvRecord s 10 (some j.queue) (agentOf (j.members.headD 0) j.ctx + what * 2 ^ 9 + j.members.length * 2 ^ 11 + j.coach % 2 ^ 32 * 2 ^ 16)

/-- Every member takes its place, with what its cores grant. -/
def takePlaces (s : State) (id : Nat) (j : Job) (x : Nat) (ms : List Nat) (tiles : List Tile) : State :=
  let secure := (getQ s j.queue).secure
  (ms.zip (List.range ms.length)).foldl (fun s m =>
    match fits s id j (memberCores j m.1) x with
    | some g => (memberCores j m.1).foldl (fun s c => takePlace s id j c x m.2 g tiles secure) s
    | none => s) s

/-- Start the read of the chunk that holds the entry bundle (R434). -/
def startEntry (s : State) (id : Nat) : State :=
  let j := getJob s id
  let (k, s) := readCode s (codeOfQ s j.queue) (some (clusterOf (j.members.headD 0))) (hdrEntry j.hdr / 8 * 256) 256
  modJob s id (fun j => { j with st := .starting k true })

/-- A job is placed in cycle p: its resets are made, the tile map and the entry chunk are read (R434). -/
def placeJob (s : State) (id : Nat) (x : Nat) (ms : List Nat) : State :=
  let j := getJob s id
  let code := codeOfQ s j.queue
  let s := takePlaces s id j x ms ((tileMap s code j.hdr).getD [])
  let s := modJob s id (fun j => { j with members := ms, ctx := x, placed := s.t.now, victim := none })
  let j := getJob s id
  let s := { s with d := { s.d with lpc := s.d.lpc.filter (fun p => !(jobAgents j).contains (p.1 / 7)) } }
  let s := match getCoach s j.queue j.coach with
    | some c => publishDeps s j.queue c (jobCores j)
    | none => s
  let s := bvJob s j 0
  if hdrNtmap j.hdr = 0 then startEntry s id
  else
    let (k, s) := readCode s code (some (clusterOf (ms.headD 0))) (hdrTmap j.hdr) (4 * hdrNtmap j.hdr)
    modJob s id (fun j => { j with st := .starting k false })

/-- A job faults before it has a place (R193, R64). -/
def faultEarly (s : State) (id cause : Nat) : State :=
  let j := getJob s id
  modJob (reportFault s j.queue j.coach cause 255 0 0xFFFF 0) id (fun j => { j with st := .ended, killed := true })

/-- JOB_PLACEMENT: a header that fails its rules faults the coach when it returns; in the cycle after, the job is placed (R193, R434). -/
def execJobPlacement (job : Nat) (s : State) : Host.Outcome State Fault Refusal :=
  let j := getJob s job
  match j.st with
  | .header k =>
    if !arrived s k then .next s
    else
      let code := codeOfQ s j.queue
      let idx := ((getCoach s j.queue j.coach).map coachImm).getD 0
      let h := BitVec.ofNat 512 (codeNat s code (64 * idx) 64)
      if headerBad s j code h then .next (faultEarly (dropTicket s k) job 7)
      else if tileMapBad h (tileMap s code h) then .next (faultEarly (dropTicket s k) job 8)
      else if s.t.now ≤ dueOf s k then .next s
      else
        let s := dropTicket s k
        let s := modJob s job (fun j => { j with hdr := h, prot := j.prot || hdrFlag h 2, st := .waiting })
        match choosePlace s job (getJob s job) with
        | some (_, x, ms) => .next (placeJob s job x ms)
        | none => .next s
  | _ => .next s

/-- JOB_START: the contexts become ready once 16 cycles have passed and the reads have returned (R434). -/
def execJobStart (job : Nat) (s : State) : Host.Outcome State Fault Refusal :=
  let j := getJob s job
  match j.st with
  | .starting k entry =>
    if !arrived s k then .next s
    else if !entry then
      let s := touchCode s (codeOfQ s j.queue) (some (clusterOf (j.members.headD 0))) (hdrTmap j.hdr) (4 * hdrNtmap j.hdr)
      .next (startEntry (dropTicket s k) job)
    else if s.t.now < j.placed + 16 then .next s
    else
      let s := touchCode (dropTicket s k) (codeOfQ s j.queue) (some (clusterOf (j.members.headD 0))) (hdrEntry j.hdr / 8 * 256) 256
      let ch := (codeTid s j.queue, hdrEntry j.hdr / 8)
      let s := (jobCores j).foldl (fun s c => modCore s c (fun q =>
        let q := { q with bcache := (ch :: q.bcache.filter (fun e => e ≠ ch)).take 512 }
        putCtx q j.ctx { ctxOf q j.ctx with status := .ready })) s
      .next (modJob s job (fun j => { j with st := .running }))
  | _ => .next s

/-! ## Rollback (R159, R160, R163, R313) -/

/-- Whether a request moves data into a context's core. -/
def inbound (r : Req) : Bool :=
  match r.kind with
  | .copy => true
  | .wfill => true
  | .copyn => !writesMem r false
  | _ => false

/-- The requests of a context, on whichever core of its pair. -/
def ctxReqs (s : State) (c x : Nat) (f : Req → Bool) : List Nat :=
  reqsOf s (fun r => r.fe.isNone && (coresOf r).contains c && r.ctx = x && r.job = (getCtx s c x).j.job && f r)

/-- Steps 1 and 2 of a rollback: results on their way keep only their flags (R129); and the drop of the decrements of the segment's inbound copies (R160, R313). -/
def rollBack (s : State) (c x : Nat) : State :=
  let v := getCtx s c x
  let s := (ctxReqs s c x (fun r => inbound r && !r.preSeg)).foldl (fun s id => modReq s id (fun r => { r with dropDec := true })) s
  let s := modCore s c (fun k => v.landings.foldl (fun k l => markFull k x l.dst) k)
  let s := leaveSlot s c x .stopped
  let gang := match v.j.job with
    | some j => (getJob s j).gang
    | none => false
  modCtx s c x (fun v => { v with
    landings := (v.landings.filter (·.req.isNone)).map (fun l => { l with dst := .squashed, load := false, ue := none })
    commits := [], cast := [], rdvAt := none
    r := { v.r with olcnt := 0 }
    g := { v.g with rbPending := none, rollingBack := true, replays := v.g.replays + 1, solo := v.g.solo || gang } })

/-- ROLLBACK: at a bundle boundary a rollback event stops the context, or becomes a task fault (R160). -/
def execRollback (core ctx : Nat) (s : State) : Host.Outcome State Fault Refusal :=
  let v := getCtx s core ctx
  match v.g.rbPending with
  | none => .next s
  | some (cls, _) =>
    let here := match v.status with
      | .ready => true
      | .running => true
      | .blocked k _ _ => decide (k ≠ 103)
      | _ => false
    if !here then .next s
    else if v.g.nonReplay ∨ v.g.replays ≥ 2 then
      let s := leaveSlot (modCtx s core ctx (fun v => { v with g := { v.g with rbPending := none } })) core ctx .stopped
      .next (match v.j.job with
        | some j => faultJob s j core (if cls = 19 then 14 else 13) 0 0
        | none => s)
    else .next (rollBack s core ctx)

/-- ROLLBACK_RESTORE: the inbound copies have finished; held outbound copies are discarded, the checkpoint is restored (R160). -/
def execRollbackRestore (core ctx : Nat) (s : State) : Host.Outcome State Fault Refusal :=
  let v := getCtx s core ctx
  let run := match v.j.job with
    | some j => decide ((getJob s j).st = .running) && !(getJob s j).killed
    | none => true
  if !v.g.rollingBack ∨ !run ∨ v.status ≠ .stopped ∨ ctxReqs s core ctx inbound ≠ [] then .next s
  else
    let held := ctxReqs s core ctx (fun r => r.st = .held)
    let s := held.foldl (fun s id =>
      let r := getReq s id
      dropReq ((coresOf r).foldl (fun s c => modCore s c (fun k => setTileSt k r.tile .ready)) s) id) s
    let p := v.g.chk
    .next (settleStop (modCtx s core ctx (fun v => { v with
      status := .ready, rdvCount := p.rdvCount, heldUntil := none, heldStage := 0, heldGrps := []
      r := { v.r with
        pc := p.pc, sregs := p.sregs, preds := p.preds, aregs := p.aregs, strides := p.strides, loops := p.loops, pend := p.pend
        rstack := p.rstack, ctrs := p.ctrs, redirect := p.redirect, redirectPops := p.redirectPops, donemask := 0, sEmpty := 0, aEmpty := 0 }
      g := { v.g with rollingBack := false, entryAt := some v.nissued } })) core ctx)

/-! ## Pre-emption (R160, R360, R361, R378) -/

/-- Bytes of a context's image (R360). -/
def imageBytes (j : Job) : Nat :=
  let h := j.hdr
  let v := (hdrVfx h + hdrVfy h) / 64
  let g := (groupsOf (hdrGmask h)).length
  256 + 2048 + 2048 + (if v = 0 then 0 else 16384 * v + 512) + (if g = 0 then 0 else 524288 * g + 1024)
  + (if hdrFlag h 0 then 1310720 else 0) + (if hdrFlag h 1 then 8704 else 0)
/-- Frames that a job's image takes: whole ones for each context. -/
def imageFrames (j : Job) : Nat := (jobCores j).length * ((imageBytes j + frameBytes - 1) / frameBytes)

/-- Whether the siding holds the frames for a job's image. -/
def framesFor (s : State) (j : Job) : Bool := imageFrames j ≤ (siding s j.part.toNat).length

/-- A pre-emption is asked of a running job; it is withdrawn where frames lack (R360, R361). -/
def askPreempt (s : State) (id : Nat) (who : Preemptor) : State :=
  let j := getJob s id
  if j.st ≠ .running ∨ j.killed then s
  else if !framesFor s j then modJob s id (fun j => { j with withdrawn := some who })
  else
    let n := imageFrames j
    let l := siding s j.part.toNat
    let s := if who = .debugHalt then s else setSiding s j.part.toNat (l.drop n)
    modJob s id (fun j => { j with st := .halting, preempt := some who, withdrawn := none, frames := if who = .debugHalt then [] else l.take n })

/-- PREEMPTION_REQUEST (R360, R361). -/
def execPreemptionRequest (job : Nat) (who : Preemptor) (s : State) : Host.Outcome State Fault Refusal := .next (askPreempt s job who)

/-- A context stops at the bundle boundary at which it stands; one that awaits a copy's acceptance ends its bundle first. -/
def haltAt (s : State) (c x : Nat) : State :=
  match (getCtx s c x).status with
  | .running => leaveSlot s c x .stopped
  | .ready => leaveSlot s c x .stopped
  | .starting => leaveSlot s c x .stopped
  | .blocked k _ _ => if k = 103 then s else leaveSlot s c x .stopped
  | _ => s

/-- The debug halt of a job's agent: a trap of class 13, of class 9 on its siblings; the job stays placed (R378). -/
def debugStop (s : State) (id : Nat) (j : Job) : State :=
  let ags := s.d.dhalt.filter (fun a => (jobAgents j).contains a)
  let s := { s with d := { s.d with dhalt := s.d.dhalt.filter (fun a => !(jobAgents j).contains a) } }
  let s := modJob s id (fun j => { j with st := .running, preempt := none })
  let s := (jobCores j).foldl (fun s c => modCtx s c j.ctx (fun v => if v.status = .stopped && !v.g.rollingBack then { v with status := .ready } else v)) s
  match ags with
  | a :: _ =>
    let c := if j.prot then a / 4 / 2 * 2 else a / 4
    if (getCtx s c j.ctx).status = .trapped ∨ (getCtx s c j.ctx).status = .ended then s
    else takeTrap s c j.ctx 13 0 255 0x3000 (getCtx s c j.ctx).r.pc
  | [] => s

/-- PREEMPTION_HALT: the contexts halt, all members of a gang at the same bundle; a killed job is discarded once its dump is
taken (R160, R197, R360, R374). -/
def execPreemptionHalt (job : Nat) (s : State) : Host.Outcome State Fault Refusal :=
  let j := getJob s job
  let cs := jobCores j
  let inSkew := cs.any (fun c => let v := getCtx s c j.ctx; v.cast ≠ [] || v.commits ≠ [])
  let debug := j.preempt = some .debugHalt && !j.killed
  let waits := debug && cs.any (fun c => acceptPending s c j.ctx)
  if j.st ≠ .halting ∨ inSkew ∨ waits then .next s
  else
    let s := cs.foldl (fun s c => haltAt s c j.ctx) s
    if j.killed then .next (if dumpOwed s j then s else discardJob s job)
    else if debug then .next (debugStop s job j)
    else .next (bvJob (modJob s job (fun j => { j with st := .halted })) j 1)

/-- Whether a job's outstanding work has ended: results, beats, crossbar operations, copies, parity queues (R68, R303, R347,
R360). Requests that are held or parked go into the image. -/
def quiet (s : State) (id : Nat) (j : Job) : Bool :=
  let kept (r : Req) : Bool := (r.st = .held || r.st = .parked) && r.chunks = []
  (s.x.reqs.all (fun p => p.2.job ≠ some id || kept p.2))
  && (jobCores j).all (fun c =>
    let k := getCore s c
    let v := ctxOf k j.ctx
    v.landings.all (fun l => match l.req with
      | some q => s.x.reqs.any (fun p => p.1 = q)
      | none => false)
    && k.mx.beats.all (fun b => b.ctx ≠ j.ctx)
    && k.xb.xq.all (fun o => o.auto || !(v.j.claimX && o.ctx = j.ctx))
    && (groupsOf v.j.gmask).all (fun g => (getGrp k g).queue = []))

/-- The image of one context (R360); places in frames and tile runs are counted from the grant. -/
def imageOf (s : State) (c x : Nat) : MemberImage :=
  let k := getCore s c
  let v := ctxOf k x
  let bs := (groupsOf v.j.gmask).flatMap (fun g => (List.range 4).map (4 * g + ·))
  let keys := bs.flatMap (fun b => (List.range 512).map (fun r => spKey b r))
  let rel {β : Type} (m : SMap β) (file : Bool) : SMap β :=
    let g := if file then v.j.granty else v.j.grantx
    (m.filter (fun p => decide (4096 ≤ p.1) = file && decide (g.1 ≤ p.1 % 4096) && decide (p.1 % 4096 < g.1 + g.2))).map
      (fun p => (vIdx file (p.1 % 4096 - g.1), p.2))
  { core := c, ctx := v
    rows := keys.foldr (fun key m => let w := (readSeen k (key / 512) (key % 512)).1; if w = 0 then m else (key, w) :: m) []
    bad := (keys.filter (fun key => (readSeen k (key / 512) (key % 512)).2.isSome)).map (·, true)
    tiles := (List.range v.j.ntiles).map (fun i => (getTile k (v.j.tbase + i)).getD {})
    vregs := rel k.vf.vregs false ++ rel k.vf.vregs true
    vEmpty := rel k.vf.vEmpty false ++ rel k.vf.vEmpty true
    vBad := rel k.vf.vBad false ++ rel k.vf.vBad true
    domains := (List.range 16).flatMap (fun fb =>
      let g := if fb / 8 = 1 then v.j.granty else v.j.grantx
      (List.range (g.2 / 64)).filterMap (fun i => match domPower k (fb * 64 + g.1 / 64 + i) with
        | .on => none
        | p => some (fb * 64 + i, p)))
    mx := if v.j.claimM then some k.mx else none
    xb := if v.j.claimX then some k.xb else none }

/-- The lines of a list of frames. -/
def frameLines (fs : List Nat) : List Nat := fs.flatMap (fun f => (List.range 128).map (fun i => f * frameBytes + 128 * i))

/-- JOB_SWAP_OUT: once all is quiet the image is written, into whole frames; when it is complete the cores are free (R360). -/
def execJobSwapOut (job : Nat) (s : State) : Host.Outcome State Fault Refusal :=
  let j := getJob s job
  match j.st with
  | .halted =>
    if quiet s job j then
      let im := (jobCores j).map (fun c => imageOf s c j.ctx)
      let (k, s) := startPath s j.part.toNat none s.t.now none (frameLines j.frames)
      .next (modJob s job (fun j => { j with st := .swapping k, image := im }))
    else .next s
  | .swapping k =>
    if arrived s k then
      let s := j.frames.foldl (fun s f => imageWrite s (f * frameBytes) frameBytes) (dropTicket s k)
      let s := (jobCores j).foldl (fun s c => keepSeen s c j.ctx) s
      -- requests that stay wait under the rank of their member
      let s := (reqsOf s (fun r => r.job = some job)).foldl (fun s id => modReq s id (fun r =>
        { r with core := 100 + (j.members.idxOf r.core) })) s
      let s := (jobCores j).foldl (fun s c => freeCtx s c j.ctx) s
      .next (modJob s job (fun j => { j with st := .swapped, preempt := none }))
    else .next s
  | _ => .next s

/-- A swapped-out job takes a place again; its image is read (R360). -/
def startRestore (s : State) (id : Nat) (x : Nat) (ms : List Nat) : State :=
  let j := getJob s id
  let s := takePlaces s id j x ms ((j.image.head?.map (·.tiles)).getD [])
  let (k, s) := startPath s j.part.toNat none s.t.now none (frameLines j.frames)
  let s := match getCoach s j.queue j.coach with
    | some c => publishDeps (occupy s id (jobCores { j with members := ms })) j.queue c (jobCores { j with members := ms })
    | none => s
  modJob s id (fun j => { j with members := ms, ctx := x, placed := s.t.now, victim := none, st := .restoring k })

/-- Put a context's image back (R68, R303, R347, R360): in its new place, ready where it had stopped. A row that was saved with an error
keeps it; where its bank is retired here, the parity row takes the mark (the model's choice, in the assumption log). -/
def loadImage (k : Core) (x : Nat) (m : MemberImage) : Core :=
  let p := (ctxOf k x).j
  let old := m.ctx.j
  let k := m.rows.foldl (fun k r => if retBank k (grpOf (r.1 / 512)) = some (r.1 / 512) then k else putRow k (r.1 / 512) (r.1 % 512) r.2)
    { k with sp := { k.sp with rows := k.sp.rows.filter (fun r => !(p.gmask.getLsbD (grpOf (r.1 / 512)) && r.1 / 512 < 32)
                                 || retBank k (grpOf (r.1 / 512)) = some (r.1 / 512)) } }
  let k := (groupsOf p.gmask).foldl (fun k g =>
    if (getGrp k g).pret then k
    else (List.range 512).foldl (fun k r =>
      putRow k (32 + g) r ((List.range 4).foldl (fun a i => a ^^^ smGet 0 m.rows (spKey (4 * g + i) r)) 0)) k) k
  let ours (key : Nat) : Bool := let b := key / 512; p.gmask.getLsbD (if b < 32 then grpOf b else b - 32)
  let start (file : Bool) : Nat := if file then p.granty.1 else p.grantx.1
  let put {α : Type} (t : SMap α) (l : SMap α) : SMap α := l.foldl (fun t e => let f := decide (4096 ≤ e.1); smPut t (vIdx f (start f + e.1 % 4096)) e.2) t
  let k := { k with
    sp := { k.sp with badRows := m.bad.foldl (fun b e =>
                        if retBank k (grpOf (e.1 / 512)) = some (e.1 / 512) then smPut b (spKey (32 + grpOf (e.1 / 512)) (e.1 % 512)) true
                        else smPut b e.1 true) (k.sp.badRows.filter (fun e => !ours e.1))
                      softRows := k.sp.softRows.filter (fun e => !ours e.1)
                      tiles := (m.tiles.zip (List.range m.tiles.length)).foldl (fun t e => smPut t (p.tbase + e.2) e.1) k.sp.tiles }
    vf := { k.vf with vregs := put k.vf.vregs m.vregs, vEmpty := put k.vf.vEmpty m.vEmpty, vBad := put k.vf.vBad m.vBad
                      domains := m.domains.foldl (fun d e => smPut d (e.1 + start (decide (512 ≤ e.1)) / 64) e.2) k.vf.domains }
    mx := m.mx.getD k.mx
    xb := match m.xb with
      | some b => { k.xb with coupling := b.coupling, results := b.results, bank := b.bank, xctl := b.xctl }
      | none => k.xb }
  let v := m.ctx
  let st := match v.status with
    | .trapped => CtxStatus.trapped
    | .ended => CtxStatus.ended
    | _ => if v.g.rollingBack then CtxStatus.stopped else CtxStatus.ready
  putCtx k x { v with
    status := st, j := { p with rank := old.rank }, heldUntil := none, heldStage := 0, heldGrps := [], commits := [], cast := []
    r := { v.r with vfbx := v.r.vfbx - BitVec.ofNat 12 old.grantx.1 + BitVec.ofNat 12 p.grantx.1
                    vfby := v.r.vfby - BitVec.ofNat 12 old.granty.1 + BitVec.ofNat 12 p.granty.1 } }

/-- A request of a restored job stands under its member's new core again; its tile is counted from the new run. -/
def moveReq (j : Job) (r : Req) : Req :=
  let rank := r.core - 100
  let m := j.members.getD rank 0
  let old := ((j.image[if j.prot then 2 * rank else rank]?).map (fun i => i.ctx.j.tbase)).getD 0
  { r with core := m, ctx := j.ctx, tile := if r.kind = .copy ∨ r.kind = .copyo ∨ r.kind = .copyn then r.tile - old else r.tile }

/-- JOB_RESTORE: the image has been read; the job goes on (R360). -/
def execJobRestore (job : Nat) (s : State) : Host.Outcome State Fault Refusal :=
  let j := getJob s job
  match j.st with
  | .restoring k =>
    if !arrived s k then .next s
    else
      let s := dropTicket s k
      let s := (reqsOf s (fun r => r.job = some job)).foldl (fun s id => modReq s id (fun r =>
        let q := moveReq j r
        let shift := r.kind = .copy ∨ r.kind = .copyo ∨ r.kind = .copyn
        { q with tile := if shift then q.tile + (getCtx s q.core j.ctx).j.tbase else q.tile })) s
      let s := ((jobCores j).zip j.image).foldl (fun s p => modCore s p.1 (fun c => loadImage c j.ctx p.2)) s
      let s := (jobCores j).foldl (fun s c => match (getCtx s c j.ctx).trap with
        | some t => { s with w := { s.w with traprecs := smPut s.w.traprecs (agentOf c j.ctx) t } }
        | none => s) s
      let s := zeroFrames s (j.frames.map (fun f => (f, j.part.toNat)))
      .next (bvJob (modJob s job (fun j => { j with st := .running, image := [], frames := [] })) j 2)
  | _ => .next s

/-! ## Dispatch (R359) -/

/-- Running jobs of a cluster. -/
def jobsIn (s : State) (cl : Nat) : List (Nat × Job) :=
  s.f.jobs.filter (fun p => p.2.st = .running && !p.2.killed && clusterOf (p.2.members.headD 800) = cl)
def jobPri (s : State) (id : Nat) : Nat := (getJob s id).pri
/-- The lowest priority of a cluster's running jobs, 8 where none runs. -/
def lowest (s : State) (cl : Nat) : Nat := (jobsIn s cl).foldl (fun m p => min m p.2.pri) 8
/-- The contexts that jobs of a priority hold in a cluster. -/
def heldAt (s : State) (cl pri : Nat) : Nat := ((jobsIn s cl).filter (fun p => p.2.pri = pri)).foldl (fun n p => n + (jobCores p.2).length) 0

/-- The victim of a ready job (R359): none where every candidate has at least its priority. -/
def victimFor (s : State) (j : Job) : Option Nat :=
  let cls := (myClusters s j).filter (fun n => dthr s n ≤ occ s n && lowest s n < j.pri)
  match leastBy (fun n => lowest s n * 1000 + (999 - heldAt s n (lowest s n))) cls with
  | none => none
  | some n => leastBy (fun id => 2 ^ 200 - ((getJob s id).placed * 2 ^ 64 + id)) (((jobsIn s n).filter (fun p => p.2.pri = lowest s n)).map (·.1))

/-- Whether a job is on its way out of its cores. -/
def leavingCores (j : Job) : Bool :=
  match j.st with
  | .halting => true
  | .halted => true
  | .swapping _ => true
  | _ => false

/-- DISPATCH: a ready or swapped-out job is placed in an open cluster, or a victim is asked to make room, or it waits (R359). -/
def execDispatch (job : Nat) (s : State) : Host.Outcome State Fault Refusal :=
  let j := getJob s job
  if (j.st ≠ .waiting ∧ j.st ≠ .swapped) ∨ j.killed then .next s
  else if j.victim.any (fun v => leavingCores (getJob s v)) then .next s
  else match choosePlace s job j with
    | some (_, x, ms) => .next (if j.st = .swapped then startRestore s job x ms else placeJob s job x ms)
    | none => match victimFor s j with
      | some v =>
        if framesFor s (getJob s v) then .next (askPreempt (modJob s job (fun j => { j with victim := some v })) v .dispatcher)
        else .next (modJob s v (fun j => { j with withdrawn := some .dispatcher }))
      | none => .next s

end Sys2Proof.Machine
end

