-- ==== Sys2Proof/Machine/Queues.lean ====
section
/-! DEFINITION. Queues and their rings, the mapping of streams to engines, events and the firmware cores that take them, the
queue watchdog, and the change of a cluster's owner (R349 to R358, R362 to R365). -/

namespace Sys2Proof.Machine

/-! ## Who may write (R349) -/

/-- Whether a writer may write QTAIL, QWAKE and QREQ of a queue: the firmware complex, or an application core whose world
reaches it. -/
def mayRing (w : Writer) (q : Queue) : Bool :=
  match w with
  | .firmware => true
  | .app secure => secure || q.ns
  | .tap => false

/-! ## The ring (R350, R351) -/

/-- The lines of a stretch of the ring: offset and bytes of each, in ring order. -/
def ringLines : Nat → Nat → Nat → List (Nat × Nat)
  | 0, _, _ => []
  | fuel + 1, o, n =>
    if n = 0 then []
    else
      let m := min n (128 - o % 128)
      (o, m) :: ringLines fuel ((o + m) % 65536) (n - m)

/-- The ring's base. -/
def ringBase (s : State) (qn : Nat) : Nat := bitsN (creg s (queueReg qn 8)).toNat 51 16 * 65536

/-- Begin the copy of one tail write: one line request a cycle from the next on (R351). -/
def beginTail (s : State) (qn from_ upto : Nat) : State :=
  let base := ringBase s qn
  let p := (getQ s qn).part.toNat
  let ls := ringLines 514 from_ ((upto + 65536 - from_) % 65536)
  (ls.zip (List.range ls.length)).foldl (fun s l =>
    let (k, s) := startPath s p none (s.t.now + 1 + l.2) none [(base + l.1.1) / 128 * 128]
    modQ s qn (fun q => { q with lines := q.lines ++ [(l.1.1, l.1.2, k)] })) s

/-- Whether tail copies may begin: not while an unmapping defers them (R358 steps 2 to 4). -/
def tailsFlow (s : State) (q : Queue) : Bool :=
  match q.unmapDue with
  | some d => s.t.now + 8194 ≤ d || d ≤ s.t.now + 1
  | none => true

/-- Tail writes are copied one after another (R351). -/
def nextTail (s : State) (qn : Nat) : State :=
  let q := getQ s qn
  match q.deferred with
  | (a, b) :: l => if q.lines = [] ∧ tailsFlow s q then beginTail (modQ s qn (fun q => { q with deferred := l })) qn a b else s
  | [] => s

/-- QTAIL_WRITE (R350, R351). -/
def execQtailWrite (w : Writer) (queue : Nat) (v : BitVec 16) (s : State) : Host.Outcome State Fault Refusal :=
  let q := getQ s queue
  if queue ≥ 96 ∨ mayRing w q = false ∨ v.toNat % 8 ≠ 0 then .next (respond s .error)
  else if !q.en then .next (respond (modQ s queue (fun q => { q with tail := v })) .ok)
  else
    let s := modQ s queue (fun q => { q with
      tail := v, wake := true, deferred := if q.tail = v then q.deferred else q.deferred ++ [(q.tail.toNat, v.toNat)] })
    .next (respond (nextTail s queue) .ok)

/-- A clock above every tail write: no writer's own clock reaches it (R351). -/
def tailClock (s : State) : Nat := (List.range 28).foldl (fun n i => max n (agentClock s (320 + i))) 0 + 1

/-- RING_LINE_RETURN: the first line in ring order has returned, read as a coherent load at a clock above the tail write; its
bytes enter the task buffer (R167, R351). -/
def execRingLineReturn (queue : Nat) (s : State) : Host.Outcome State Fault Refusal :=
  match (getQ s queue).lines with
  | (o, n, k) :: l =>
    if arrived s k then
      let base := ringBase s queue
      let s := dropTicket s k
      let (_, d, s) := loadLines s (streamAgent s queue) (tailClock s) [] [lineOf (base + o)]
      let s := modQ (clockEvent s) queue (fun q => { q with
        lines := l
        buf := (List.range n).foldl (fun m i => cmPut 0 m ((o + i) % 65536) (d (base + (o + i) % 65536))) q.buf
        tailb := (o + n) % 65536, filled := min 65536 (q.filled + n) })
      .next (nextTail s queue)
    else .next s
  | [] => .next s

/-- QUEUE_WAKE (R349). -/
def execQueueWake (w : Writer) (queue : Nat) (s : State) : Host.Outcome State Fault Refusal :=
  if queue ≥ 96 ∨ mayRing w (getQ s queue) = false then .next (respond s .error)
  else .next (respond (modQ s queue (fun q => { q with wake := true })) .ok)

/-- QUEUE_REQUEST: the value is posted as an event (R349, R353). -/
def execQueueRequest (w : Writer) (queue : Nat) (v : Word) (s : State) : Host.Outcome State Fault Refusal :=
  if queue ≥ 96 ∨ mayRing w (getQ s queue) = false then .next (respond s .error)
  else .next (respond (postEvent s 9 (some queue) (getQ s queue).part v.toNat) .ok)

/-- QUEUE_ENABLE: a new stream (R350). -/
def execQueueEnable (w : Writer) (queue : Nat) (s : State) : Host.Outcome State Fault Refusal :=
  let q := getQ s queue
  if queue ≥ 96 ∨ w ≠ .firmware then .next (respond s .error)
  else if q.en then .next (respond s .ok)
  else .next (respond (setQ s queue { en := true, pri := q.pri, part := q.part, ns := q.ns, st := .idle, eng := q.eng, unmapDue := q.unmapDue }) .ok)

/-- QUEUE_DISABLE: refused unless idle, faulted or ended (R350). -/
def execQueueDisable (w : Writer) (queue : Nat) (s : State) : Host.Outcome State Fault Refusal :=
  let q := getQ s queue
  if queue ≥ 96 ∨ w ≠ .firmware ∨ ¬ (q.st = .idle ∨ q.st = .faulted ∨ q.st = .ended ∨ q.st = .off) then .next (respond s .error)
  else .next (respond (modQ s queue (fun q => { q with en := false, st := .off })) .ok)

/-- STREAM_RESUME: the stream is idle again, its watchdog counts afresh (R362, R365). -/
def execStreamResume (w : Writer) (queue : Nat) (s : State) : Host.Outcome State Fault Refusal :=
  if queue ≥ 96 ∨ w ≠ .firmware ∨ (getQ s queue).st ≠ .faulted then .next (respond s .error)
  else .next (respond (modQ s queue (fun q => { q with st := .idle, wdStage := 0 })) .ok)

/-- STREAM_DISCARD (R365). -/
def execStreamDiscard (w : Writer) (queue : Nat) (s : State) : Host.Outcome State Fault Refusal :=
  if queue ≥ 96 ∨ w ≠ .firmware ∨ (getQ s queue).st ≠ .faulted then .next (respond s .error)
  else .next (respond (modQ (releaseNames s queue) queue (fun q => { q with st := .ended, wake := false })) .ok)

/-! ## The remap list and the scheduler (R356, R357) -/

def qslice (s : State) : Nat := max 1 (cfield s 0x10A000 31 0)

/-- A runnable queue joins the remap list; one that is no longer runnable leaves it (R356). -/
def updateRemap (s : State) : State :=
  s.f.queues.foldl (fun s p =>
    let q := getQ s p.1
    let on := s.f.remap.contains p.1
    if runnable q ∧ q.eng.isNone then
      if on then s
      else modQ { s with f := { s.f with remap := s.f.remap ++ [p.1] } } p.1 (fun q => { q with st := .runnable, joined := timebase s })
    else
      let s := if on then { s with f := { s.f with remap := s.f.remap.filter (· ≠ p.1) } } else s
      if q.st = .runnable ∧ q.eng.isNone then modQ s p.1 (fun q => { q with st := .idle }) else s) s

/-- The effective priority of a mapped and of a waiting queue. -/
def basePri (s : State) (q : Queue) : Nat := min (pceil s q.part.toNat) q.pri.toNat
def waitPri (s : State) (q : Queue) : Nat := min 7 (basePri s q + (timebase s - q.joined) / qslice s)

/-- Engines that a partition holds. -/
def enginesOf (s : State) (p : Nat) : Nat := (s.f.queues.filter (fun e => e.2.eng.isSome && e.2.part.toNat = p)).length
def engineFree (s : State) (e : Nat) : Bool := !s.f.queues.any (fun p => p.2.eng = some e)
def queueOn (s : State) (e : Nat) : Option Nat := (s.f.queues.find? (fun p => p.2.eng = some e)).map (·.1)

/-- The order of candidates: partitions below their PENG, priority, place on the list, number (R357). -/
def candKey (s : State) (qn : Nat) : Nat :=
  let q := getQ s qn
  (if enginesOf s q.part.toNat < peng s q.part.toNat then 0 else 2 ^ 40)
  + (7 - waitPri s q) * 2 ^ 30 + s.f.remap.idxOf qn * 2 ^ 10 + qn

/-- Draw a stream's reserve, or refill it, from the sidings (R186). -/
def drawReserve (s : State) (qn : Nat) : State :=
  let q := getQ s qn
  let p := q.part.toNat
  let nw := 16 - q.resW.length
  let nf := 64 - q.resF.length
  let fs := siding s p
  let s1 := setSiding { s with f := { s.f with wagons := s.f.wagons.drop nw } } p (fs.drop nf)
  modQ s1 qn (fun q => { q with resW := q.resW ++ s.f.wagons.take nw, resF := q.resF ++ fs.take nf })

/-- MAPPING_DECISION: the first free engine goes to the first candidate (R357). -/
def execMappingDecision (s : State) : Host.Outcome State Fault Refusal :=
  let s := updateRemap s
  match (List.range 24).find? (engineFree s), leastBy (candKey s) s.f.remap with
  | some e, some qn =>
    let s := { s with f := { s.f with remap := s.f.remap.filter (· ≠ qn) } }
    let s := modQ s qn (fun q => { q with eng := some e, st := .mapped, loadDue := some (s.t.now + 8192), sliceEnd := none })
    .next (drawReserve s qn)
  | _, _ => .next s

/-- A MAP record (R382). -/
def bvMap (s : State) (qn e : Nat) (mapped : Bool) : State := bvRecord s 11 (some qn) (e + if mapped then 32 else 0)

/-- MAPPING_COMPLETE: the window and the buffer are loaded; the engine decodes from the next cycle (R357). -/
def execMappingComplete (eng : Nat) (s : State) : Host.Outcome State Fault Refusal :=
  match queueOn s eng with
  | none => .next s
  | some qn => match (getQ s qn).loadDue with
    | some u =>
      if u ≤ s.t.now + 1 then
        .next (bvMap (modQ s qn (fun q => { q with loadDue := none, sliceEnd := some (timebase s + qslice s) })) qn eng true)
      else .next s
    | none => .next s

/-- SLICE_EXPIRY: the slice has ended: the queue is unmapped, or a new slice starts (R357). -/
def execSliceExpiry (eng : Nat) (s : State) : Host.Outcome State Fault Refusal :=
  match queueOn s eng with
  | none => .next s
  | some qn =>
    let s := updateRemap s
    let q := getQ s qn
    match q.sliceEnd with
    | some u =>
      if timebase s < u ∨ q.unmapDue.isSome then .next s
      else
        let p := q.part.toNat
        let same := s.f.remap.any (fun c => (getQ s c).part = q.part && basePri s q ≤ waitPri s (getQ s c))
        let other := peng s p < enginesOf s p
          && s.f.remap.any (fun c => let r := (getQ s c).part.toNat; r ≠ p && enginesOf s r < peng s r)
        if same || other then .next (startUnmap s qn)
        else .next (modQ s qn (fun q => { q with sliceEnd := some (timebase s + qslice s) }))
    | none => .next s

/-- UNMAP: firmware unmaps an engine's queue (R358, R363). -/
def execUnmap (w : Writer) (eng : Nat) (s : State) : Host.Outcome State Fault Refusal :=
  if w ≠ .firmware ∨ eng ≥ 24 then .next (respond s .error)
  else .next (respond (match queueOn s eng with
    | some qn => startUnmap s qn
    | none => s) .ok)

/-- UNMAP_SAVE_COMPLETE: the steps of an unmapping that have a cycle of their own: step 2 clears the wake latch, step 4 gives
back the reserve and lets deferred copies go, step 5 checks the latch (R198, R358). -/
def execUnmapSaveComplete (eng : Nat) (s : State) : Host.Outcome State Fault Refusal :=
  match queueOn s eng with
  | none => .next s
  | some qn =>
    let q := getQ s qn
    match q.unmapDue with
    | none => .next s
    | some d =>
      if s.t.now + 8194 = d then .next (modQ s qn (fun q => { q with wake := false }))
      else if s.t.now + 1 = d then
        let p := q.part.toNat
        let s := setSiding { s with f := { s.f with wagons := s.f.wagons ++ q.resW } } p (siding s p ++ q.resF)
        let s := modQ s qn (fun q => { q with resW := [], resF := [], st := if q.st = .mapped then .idle else q.st })
        let s := imageWrite s (bitsN (creg s (queueReg qn 0x28)).toNat 51 18 * 2 ^ 18) (2 ^ 18)
        .next (nextTail (bvMap s qn eng false) qn)
      else if d ≤ s.t.now then
        let s := modQ s qn (fun q => { q with eng := none, unmapDue := none, loadDue := none, sliceEnd := none })
        let q := getQ s qn
        if q.wake ∧ runnable q then
          .next (modQ { s with f := { s.f with remap := qn :: s.f.remap.filter (· ≠ qn) } } qn (fun q => { q with st := .runnable, joined := timebase s }))
        else .next s
      else .next s

/-! ## Events and firmware cores (R354, R355) -/

/-- The bytes of an event record (R352). -/
def eventBytes (e : Event) : Nat :=
  e.type + (match e.key with
    | some q => 2 ^ 8 + q * 2 ^ 16
    | none => 0) + e.part.toNat * 2 ^ 24 + e.time % 2 ^ 64 * 2 ^ 64 + e.data.toNat * 2 ^ 128

/-- Waiting posters fill the queue in order (R354). -/
def refillEvents (s : State) : State :=
  let n := 1024 - s.w.events.length
  if s.w.backlog = [] ∨ n = 0 then s
  else { s with w := { s.w with events := s.w.events ++ s.w.backlog.take n, backlog := s.w.backlog.drop n } }

/-- The first event whose key is free. -/
def freeEvent (s : State) : Option Nat :=
  s.w.events.findIdx? (fun e => match e.key with
    | some q => !s.w.taken.any (fun t => t.2.key = some q)
    | none => true)

/-- Whether a firmware core takes events: in pairs the even cores of running pairs. -/
def takesEvents (s : State) (fw : Nat) : Bool :=
  decide (fw < 12) && s.h.fwRun && !(s.w.fwmode && (fw % 2 = 1 || s.w.fwStopped.contains (fw / 2)))

/-- EVENT_TAKE: a read of EVTAKE returns the oldest event whose key is free, once there is one (R354). -/
def execEventTake (fw : Nat) (s : State) : Host.Outcome State Fault Refusal :=
  if !takesEvents s fw then .next (respond s .error)
  else if s.w.taken.any (fun t => t.1 = fw) then .next (respond s .none)
  else match freeEvent s with
    | some i => match s.w.events[i]? with
      | some e =>
        let s := { s with w := { s.w with events := s.w.events.eraseIdx i, taken := smPut s.w.taken fw e, waiting := s.w.waiting.filter (· ≠ fw) } }
        .next (respond (refillEvents s) (.value (BitVec.ofNat 2048 (eventBytes e))))
      | none => .next s
    | none => .next (respond { s with w := { s.w with waiting := s.w.waiting.filter (· ≠ fw) ++ [fw] } } .none)

/-- EVENT_DONE: the ordering lock is released (R354). -/
def execEventDone (fw : Nat) (s : State) : Host.Outcome State Fault Refusal :=
  if !takesEvents s fw then .next (respond s .error)
  else .next (respond { s with w := { s.w with taken := smDel s.w.taken fw } } .ok)

/-- Every clock of the part stops (R387); power-on or a warm reset follows. -/
def freezePart (s : State) : State := { s with t := { s.t with frozen := true } }

/-- FIRMWARE_PAIR_MISMATCH: the pair stops, its event goes back to the head; without a pair left the part freezes (R355). -/
def execFirmwarePairMismatch (pair : Nat) (s : State) : Host.Outcome State Fault Refusal :=
  if pair ≥ 6 ∨ s.w.fwmode = false ∨ s.w.fwStopped.contains pair = true then .next s
  else
    let back := (s.w.taken.filter (fun t => t.1 = 2 * pair)).map (·.2)
    let s := { s with w := { s.w with
      fwStopped := s.w.fwStopped ++ [pair], events := back ++ s.w.events
      taken := smDel s.w.taken (2 * pair), waiting := s.w.waiting.filter (· ≠ 2 * pair) } }
    .next (if s.w.fwStopped.length ≥ 6 then freezePart s else s)

/-! ## The queue watchdog (R362) -/

/-- The limit of a stage in ticks, 0 when off. -/
def wdLimit (s : State) (qn n : Nat) : Nat := 1024 * cfield s (queueReg qn 0x48) (16 * n - 1) (16 * (n - 1))

/-- The ticks that a queue's watchdog has measured. -/
def wdTicks (s : State) (q : Queue) : Nat :=
  match q.coaches with
  | c :: _ => timebase s - max c.at_ q.wdFrom
  | [] => 0

/-- Whether a stage is due. -/
def wdDue (s : State) (qn n : Nat) : Bool :=
  let q := getQ s qn
  q.coaches ≠ [] && q.wdStage < n && wdLimit s qn n ≠ 0 && wdLimit s qn n ≤ wdTicks s q

/-- A stage posts its event once. -/
def wdPost (s : State) (qn n : Nat) : State :=
  postEvent (modQ s qn (fun q => { q with wdStage := n })) 6 (some qn) (getQ s qn).part n

/-- The oldest coach of a queue faults with cause killed (R194). -/
def killOldest (s : State) (qn : Nat) : State :=
  match (getQ s qn).coaches with
  | c :: _ => match c.job with
    | some id => faultJob s id ((getJob s id).members.headD 0) 15 0 0
    | none => reportFault s qn c.num 15 255 0 0xFFFF 0
  | [] => s

/-- WATCHDOG_STAGE_1: pre-emption of the oldest coach's job is requested (R362). -/
def execWatchdogStage1 (queue : Nat) (s : State) : Host.Outcome State Fault Refusal :=
  if wdDue s queue 1 then
    let s := match (getQ s queue).coaches.head?.bind (·.job) with
      | some id => askPreempt s id .watchdog
      | none => s
    .next (wdPost s queue 1)
  else .next s

/-- WATCHDOG_STAGE_2: the oldest coach faults with cause killed (R362). -/
def execWatchdogStage2 (queue : Nat) (s : State) : Host.Outcome State Fault Refusal :=
  if wdDue s queue 2 then .next (wdPost (killOldest s queue) queue 2) else .next s

/-- Cores are fenced: they are suspect, and every job with a context on one of them is discarded (R362); the jobs are those that
stand there before the fence. -/
def fenceCores (old : State) (cs : List Nat) (s : State) : State :=
  let ids := ((cs.flatMap (fun c => (getCore old c).ctxs.filterMap (fun p => if p.2.status = .free then none else p.2.j.job)))).eraseDups
  ids.foldl (fun s id => discardJob (faultJob s id ((getJob s id).members.headD 0) 15 0 0) id)
    (cs.foldl (fun s c => modCore s c (fun k => { k with suspect := true })) s)

/-- WATCHDOG_STAGE_3: cores whose context has not halted are fenced and suspect (R362). -/
def execWatchdogStage3 (queue : Nat) (s : State) : Host.Outcome State Fault Refusal :=
  if wdDue s queue 3 then
    let s := match (getQ s queue).coaches.head?.bind (·.job) with
      | some id =>
        let j := getJob s id
        let live (c : Nat) : Bool := match (getCtx s c j.ctx).status with
          | .ready => true
          | .running => true
          | .blocked _ _ _ => true
          | _ => false
        let cs := if onCores j then (jobCores j).filter live else []
        fenceCores s cs (if cs = [] then s else killOldest s queue)
      | none => s
    .next (wdPost s queue 3)
  else .next s

/-! ## The change of a cluster's owner (R364) -/

/-- Jobs that stand in a cluster, or whose swapped-out image claims a crossbar bank there. -/
def claimsThere (j : Job) (cl : Nat) : Bool :=
  hdrFlag j.hdr 1 && j.st ≠ .ended && (j.members.any (fun m => clusterOf m = cl)) && (onCores j || j.image ≠ [])

/-- Step 2 for each job of the cluster: swapped out, or killed where it claims a crossbar bank. -/
def clearOut (s : State) (cl : Nat) : State :=
  let s := s.f.jobs.foldl (fun s p =>
    if claimsThere p.2 cl && !p.2.killed then faultJob s p.1 (p.2.members.headD 0) 15 0 0 else s) s
  let s := (jobsIn s cl).foldl (fun s p => if claimsThere p.2 cl then s else askPreempt s p.1 .ownership) s
  modCl s cl (fun c => { c with waitf := (jobsIn s cl).any (fun p => p.2.withdrawn = some .ownership) })

/-- CLUSTER_MOVE_START: a write of CLOWN with GO (R364 steps 1 and 2). -/
def execClusterMoveStart (w : Writer) (cl : Nat) (new : BitVec 4) (s : State) : Host.Outcome State Fault Refusal :=
  if w ≠ .firmware ∨ cl ≥ 10 ∨ (getCl s cl).moveTo.isSome then .next (respond s .error)
  else .next (respond (clearOut (modCl s cl (fun c => { c with moveTo := some new, moveSwapped := false, moveCommit := none })) cl) .ok)

/-- Whether a cluster is empty of jobs and of what they held. -/
def clusterEmpty (s : State) (cl : Nat) : Bool :=
  (List.range 8).all (fun p => let k := getCore s (8 * cl + p); placedCtxs k = [] && k.leaving = [])
  && s.f.jobs.all (fun p => !claimsThere p.2 cl)

/-- The lines that an owner leaves in a slice. -/
def ownerLine (c : Cluster) (t : LineTag) : Bool := t.part = c.owner.toNat

/-- CLUSTER_MOVE_SWAPPED: no job is left: the window shrinks to 0 and the old owner's lines are written back (R364 step 3). -/
def execClusterMoveSwapped (cl : Nat) (s : State) : Host.Outcome State Fault Refusal :=
  let c := getCl s cl
  if c.moveTo.isNone ∨ c.moveSwapped = true ∨ clusterEmpty s cl = false ∨ c.sweep.isSome = true ∨ c.wayNew.isSome = true then .next s
  else .next (setCl s cl { flushWhere c s.t.now (ownerLine c) with
    moveSwapped := true, waitf := false, wayNew := if c.present = 0 then none else some 0 })

/-- Step 4: the scratchpad sets and vector files are cleared, the crossbar banks as after power-on (R323, R364). -/
def clearCluster (s : State) (cl : Nat) : State :=
  (List.range 8).foldl (fun s p => modCore s (8 * cl + p) (fun k => { k with
    sp := { k.sp with rows := [], badRows := [], softRows := [], tiles := [], groups := smMap (fun _ (g : Group) => { g with queue := [] }) k.sp.groups }
    vf := {}, xb := {} })) s

/-- CLUSTER_MOVE_COMPLETE: clearing and the commit of the timetables; with their switch the owner changes (R364 steps 4 to 6). -/
def execClusterMoveComplete (cl : Nat) (s : State) : Host.Outcome State Fault Refusal :=
  let c := getCl s cl
  match c.moveTo with
  | none => .next s
  | some new =>
    if !c.moveSwapped || c.sweep.isSome || c.wayNew.isSome then .next s
    else if unflushed c (ownerLine c) then .next (setCl s cl (flushWhere c s.t.now (ownerLine c)))
    else if c.wb ≠ [] then .next s
    else match c.moveCommit with
      | none =>
        let b := nextPeriod s.t.now
        let s := modCl (clearCluster s cl) cl (fun c => { c with commitAt := some (c.commitAt.getD b), moveCommit := some b })
        .next (schedule s (b - 1) (.timetableSwitch cl))
      | some b =>
        if b ≤ s.t.now ∧ c.commitAt.isNone then
          .next (setCl s cl { c with owner := new, moveTo := none, moveSwapped := false, moveCommit := none })
        else .next s

end Sys2Proof.Machine
end

