-- ==== Sys2Proof/Machine/Boot.lean ====
section
/-! DEFINITION. Power-on, warm reset and boot, keys, attestation, temperatures, freeze, application-core interrupts and inbound
requests (R11, R13, R37, R41, R69, R78, R323, R355, R373, R387 to R401, R431). -/

namespace Sys2Proof.Machine

/-! ## Power-on and warm reset (R394) -/

/-- The application cores' own memory, which no reset of the part touches. -/
def hostCells (m : List Host.Cell) : List Host.Cell := m.filter (fun c => regionOf c.1 = .host)

/-- POWER_ON: everything as the power-on column says; the count and the timebase start from 0 (R394 step 1). What the outside
world does goes on. -/
def execPowerOn (s : State) : Host.Outcome State Fault Refusal :=
  .next { State.reset with
    t := { State.reset.t with free := s.t.free, inputs := s.t.inputs.map (fun p => (p.1 - s.t.now, p.2)) }
    c := { State.reset.c with mem := hostCells s.c.mem }
    h := { State.reset.h with temps := s.h.temps, hirq := s.h.hirq } }

/-- Everything in the merge FIFO is written to the ring (R380). -/
def bvFlush (s : State) : State :=
  let s := bvSettle s
  let base := bitsN (creg s 0x400008).toNat 51 30 * 2 ^ 30
  let s := s.d.bvFifo.foldl (fun s r => { partWrite s (base + 16 * s.d.bvHead) r.toNat 16 with
    d := { s.d with bvHead := (s.d.bvHead + 1) % 67108864 } }) s
  { s with d := { s.d with bvFifo := [] } }

/-- What a warm reset leaves of a parity group: its retirement and DIS (R41, R59). -/
def keptGroup (g : Group) : Group :=
  { retWritten := g.retWritten, ret := g.ret, pretWritten := g.pretWritten, pret := g.pret, dis := g.dis }

/-- What it leaves of a core position: rows and cells until self-test, and the throttle that a high temperature forces (R400). -/
def keptCore (k : Core) : Core :=
  { sp := { rows := k.sp.rows, badRows := k.sp.badRows, softRows := k.sp.softRows, groups := smMap (fun _ g => keptGroup g) k.sp.groups }
    xb := { arrays := k.xb.arrays, cells := k.xb.cells, image := k.xb.image }
    disabled := k.disabled, hot := k.hot, thrl := if k.hot then k.thrl else 0 }

/-- What it leaves of a cluster: the mappings and the self-test results. -/
def keptCluster (c : Cluster) : Cluster :=
  { cmap := c.cmap, cmapn := c.cmapn, sitePass := c.sitePass, wayPass := c.wayPass, spareWay := c.spareWay }

/-- The control registers that a warm reset keeps: BOOTPTR, BOOTLEN and BVBASE (R380, R394). -/
def keptCreg (m : SMap (BitVec 512)) : SMap (BitVec 512) := m.filter (fun p => p.1 = 0x1008 || p.1 = 0x1010 || p.1 = 0x400008)

/-- The warm reset (R394): the merge FIFO is written, then streams, jobs, parked requests and events are discarded, the core clock
falls to 400 MHz and self-test runs. HBM, the brake van, the counts since power-on and the on-die dump area stay. -/
def warmReset (s : State) : State :=
  let s := bvFlush s
  let s := s.c.versions.foldl (fun s v => mergeVersion s v.id) s
  let tb := timebase s
  { cores := smMap (fun _ k => keptCore k) s.cores
    clusters := smMap (fun _ c => keptCluster c) s.clusters
    creg := keptCreg s.creg
    t := { now := s.t.now, tbl := tb, tbAt := s.t.now, free := s.t.free, inputs := s.t.inputs, nextId := s.t.nextId }
    c := { mem := s.c.mem.filter (fun c => regionOf c.1 ≠ .window), lineKeys := s.c.lineKeys, poison := s.c.poison, epoch := s.c.epoch }
    x := { bias := s.x.bias, invseq := s.x.invseq }
    w := { ondie := s.w.ondie, ondieOver := s.w.ondieOver, fwmode := s.w.fwmode }
    d := { s.d with bvGap := some (if s.t.frozen then 2 else 3), lpc := [], dstep := [], dhalt := [] }
    h := { s.h with
      bootDue := s.t.now, keys := [], kvalid := 0, kclr := none, boot := .selfTest, bootCnt := s.h.bootCnt + 1, fwRun := false
      attest := none, attestDue := 0 } }

/-- Whether a writer is a secure agent (R393): one that may request a warm reset, start a boot and ask for attestation
(R394, R396, R401). -/
def secureWriter : Writer → Bool
  | .firmware => true
  | .app secure => secure
  | .tap => false

/-- WARM_RESET: a write of WRST (R394). -/
def execWarmReset (w : Writer) (s : State) : Host.Outcome State Fault Refusal :=
  if secureWriter w then .next (respond (warmReset s) .ok) else .next (respond s .error)

/-! ## Self-test and boot (R373, R394, R395) -/

/-- Cycles of the self-test run: at most 30,000,000 ticks at 400 MHz (R373). -/
def selfTestLen (n : Nat) : Nat := min (Config.selfTestCycles n) 12000000

/-- `n` pass bits of a kind of unit from unit `u` on, in a run (R373). -/
def passBits (run kind u n : Nat) : Nat := (List.range n).foldr (fun i acc => (if Config.selfTestPass run kind (u + i) then 1 else 0) + 2 * acc) 0

/-- The site that serves a position. -/
def siteOf (m : BitVec 32) (i : Nat) : Nat := bitsN m.toNat (4 * i + 3) (4 * i)

/-- A position after self-test (R13): its site passes; or it fails while an unused site could serve; or there is none. -/
inductive SiteCase where
  | good
  | suspect
  | disabled
  deriving DecidableEq, Repr

def siteCase (m : BitVec 32) (pass : BitVec 9) (i : Nat) : SiteCase :=
  if pass.getLsbD (siteOf m i) then .good
  else if (List.range 9).any (fun u => pass.getLsbD u && !((List.range 8).map (siteOf m)).contains u) then .suspect else .disabled

/-- A core position after self-test: rows zero, the bank as after power-on (R41, R323); a disabled position's set and bank keep their
contents (R13). -/
def testedCore (k : Core) (c : SiteCase) : Core :=
  { k with
    sp := if c = .disabled then k.sp else { groups := smMap (fun _ g => keptGroup g) k.sp.groups }
    xb := if c = .disabled then k.xb else {}
    suspect := decide (c = .suspect), disabled := decide (c = .disabled) }

/-- SELF_TEST_COMPLETE: pass bits, spares, zeroed scratchpads, CMAP, the trained stacks and cleared keys (R394 step 3). After a
warm reset the previous image is copied without waiting. -/
def execSelfTestComplete (s : State) : Host.Outcome State Fault Refusal :=
  if s.h.boot ≠ .selfTest ∨ s.t.now < s.h.bootDue + selfTestLen s.h.bootCnt then .next s
  else
    let (n, s) := draw s
    let clusters := (List.range 10).foldl (fun m i =>
      let c := smGet ({} : Cluster) m i
      let way := BitVec.ofNat 17 (passBits n 1 (17 * i) 17)
      smPut m i { c with
        cmap := c.cmapn, sitePass := BitVec.ofNat 9 (passBits n 0 (9 * i) 9), wayPass := way
        spareWay := c.spareWay || (way.getLsbD 16 && (List.range 16).any (fun w => !way.getLsbD w)) }) s.clusters
    let cores := (List.range 80).foldl (fun m g =>
      let cl := smGet ({} : Cluster) clusters (g / 8)
      smPut m g (testedCore (smGet {} m g) (siteCase cl.cmap cl.sitePass (g % 8)))) s.cores
    let s := { s with cores, clusters, h := { s.h with
      keys := [], kvalid := 0
      bankPass := (List.range 80).foldl (fun m g => smPut m g (BitVec.ofNat 40 (passBits n 2 (40 * g) 40))) []
      repaired := (List.range 4).foldl (fun m k => smPut m k (Config.rowsRepaired n k)) [] } }
    .next (if s.h.bootCnt = 0 then { s with h := { s.h with boot := .waiting } }
      else { s with h := { s.h with boot := .verifying, bootDue := s.t.now + Config.verifyCycles n } })

/-- BOOT_GO: a secure application core writes BOOTGO in state waiting (R394 steps 4 and 5). -/
def execBootGo (w : Writer) (s : State) : Host.Outcome State Fault Refusal :=
  if secureWriter w = false ∨ s.h.boot ≠ .waiting then .next (respond s .error)
  else
    let (n, s) := draw s
    .next (respond { s with h := { s.h with boot := .verifying, bootDue := s.t.now + Config.verifyCycles n } } .ok)

/-- A little-endian number at a byte of an image. -/
def imgNat (img : List Byte) (o n : Nat) : Nat := leNat (fun i => (img.getD i 0).toNat) o n

/-- The first failing check of an image of `len` bytes as its code, 0 when it passes (R395). -/
def imageCheck (img : List Byte) (len : Nat) : Nat :=
  let msg := img.take 576 ++ img.drop 1088
  if imgNat img 0 4 ≠ 1 ∨ imgNat img 15 49 ≠ 0 ∨ len < 1088 + imgNat img 4 4 ∨ 2 ^ 23 < len then 1
  else if Config.sha512 ((img.drop 64).take 512) ≠ Config.rootHash then 2
  else if imgNat img 12 2 < Config.minSVN then 3
  else if Config.pssVerify ((img.drop 64).take 512) ((img.drop 576).take 512) msg then 0
  else 4

/-- BOOT_VERIFY_COMPLETE: the image is in the SRAM and has been verified; the clock changes and firmware starts, or the boot has
failed (R394 steps 5 and 6, R395, R431). -/
def execBootVerifyComplete (s : State) : Host.Outcome State Fault Refusal :=
  if s.h.boot ≠ .verifying ∨ s.t.now < s.h.bootDue then .next s
  else
    let a := bitsN (creg s 0x1008).toNat 51 12 * 4096
    let len := cfield s 0x1010 23 0
    let n := min len (1088 + leNat (fun x => (newestByte s x).toNat) (a + 4) 4)
    let img := (List.range n).map (fun i => newestByte s (a + i))
    let bad := (List.range (n / 128 + 1)).any (fun i => poisoned s (a + 128 * i))
    let code := if bad then 5 else imageCheck img len
    if code ≠ 0 then .next { s with h := { s.h with boot := .failed code } }
    else
      let s := bvSettle s
      let tb := timebase s
      .next { s with
        t := { s.t with fast := true, tbl := tb, tbAt := s.t.now }
        d := { s.d with bvGap := some (s.d.bvGap.getD 3) }
        w := { s.w with fwmode := decide (imgNat img 14 1 % 2 = 1), fwStopped := [] }
        h := { s.h with
          boot := .running, fwRun := true, fwSram := img, svn := BitVec.ofNat 16 (imgNat img 12 2)
          measurement := Config.sha512 (img.take 576 ++ img.drop 1088)
          clksync := BitVec.ofNat 128 (s.t.now % 2 ^ 64 + tb % 2 ^ 64 * 2 ^ 64) } }

/-! ## Freeze (R387) -/

/-- FREEZE: a write of FREEZE by firmware or through the test access port (R387). -/
def execFreeze (w : Writer) (s : State) : Host.Outcome State Fault Refusal :=
  match w with
  | .app _ => .next (respond s .error)
  | _ => .next (respond (freezePart s) .ok)

/-! ## Keys (R398) -/

/-- KEYBUF as written. -/
def keyBuf (s : State) : BitVec 512 := creg s 0x840

/-- KEY_LOAD (R398). -/
def execKeyLoad (w : Writer) (k : BitVec 6) (s : State) : Host.Outcome State Fault Refusal :=
  if w ≠ .firmware ∨ s.h.kvalid.getLsbD k.toNat = true then .next (respond s .error)
  else .next (respond { s with h := { s.h with
    keys := smPut s.h.keys k.toNat (keyBuf s), kvalid := s.h.kvalid ||| (1#64 <<< k.toNat) } } .ok)

/-- KEY_REVOKE: a write of KCLR; no chunk is translated through an entry with the key any more (R398). -/
def execKeyRevoke (w : Writer) (k : BitVec 6) (s : State) : Host.Outcome State Fault Refusal :=
  if w ≠ .firmware ∨ s.h.kclr.isSome then .next (respond s .error)
  else .next (respond (dropIdle { s with h := { s.h with kclr := some k.toNat } }) .ok)

/-- Whether the swap command under way uses a key. -/
def swapUses (s : State) (k : Nat) : Bool :=
  match s.x.swap with
  | some j => j.entries.any (fun a => entKey (readEntry s a) = k)
  | none => false

/-- KEY_REVOKE_COMPLETE: no unit holds an entry of the key and no swap uses it: the key is gone (R398). -/
def execKeyRevokeComplete (s : State) : Host.Outcome State Fault Refusal :=
  match s.h.kclr with
  | none => .next s
  | some k =>
    let s := dropIdle s
    if s.x.lunits.any (fun p => p.2.tiles.any (fun e => entKey e.img = k)) || swapUses s k then .next s
    else .next { s with h := { s.h with keys := smDel s.h.keys k, kvalid := s.h.kvalid &&& ~~~(1#64 <<< k), kclr := none } }

/-! ## Temperatures (R400) -/

/-- A limit of TLIM, and whether a reading has reached it; readings are signed. -/
def tlim (s : State) (i : Nat) : BitVec 12 := BitVec.ofNat 12 (cfield s 0x1480 (12 * i + 11) (12 * i))
def reached (s : State) (i : Nat) (t : BitVec 12) : Bool := (tlim s i).sle t
/-- TEMPc takes a reading. -/
def setTemp (s : State) (c : Nat) (t : BitVec 12) : State := { s with h := { s.h with temps := smPut s.h.temps c t } }
/-- Change the cores of a cluster; the spine has none. -/
def ofCluster (s : State) (c : Nat) (f : Core → Core) : State :=
  if c < 10 then (List.range 8).foldl (fun s p => modCore s (8 * c + p) f) s else s

/-- THERMAL_WARNING: a reading reaches TWARN (R400). -/
def execThermalWarning (c : Nat) (t : BitVec 12) (s : State) : Host.Outcome State Fault Refusal :=
  if c > 10 then .next s
  else
    let s := setTemp s c t
    .next (if reached s 0 t then postEvent s 12 none 0 (Config.eventData 12 [c, t.toNat]).toNat else s)

/-- THERMAL_CRITICAL: a cluster's reading reaches TCRIT: THRL is 7 on its cores (R400). -/
def execThermalCritical (c : Nat) (t : BitVec 12) (s : State) : Host.Outcome State Fault Refusal :=
  if c > 10 then .next s
  else
    let s := setTemp s c t
    .next (if reached s 1 t then ofCluster s c (fun k => { k with thrl := 7, hot := true }) else s)

/-- THERMAL_SHUTDOWN: a reading reaches TSHUT: freeze, and no supplies are asked for (R400). -/
def execThermalShutdown (c : Nat) (t : BitVec 12) (s : State) : Host.Outcome State Fault Refusal :=
  if c > 10 then .next s
  else
    let s := setTemp s c t
    .next (if reached s 2 t then let s := freezePart s; { s with t := { s.t with supplies := false } } else s)

/-- READING_BELOW_TWARN: MTS may write THRL again (R400). -/
def execReadingBelowTwarn (c : Nat) (t : BitVec 12) (s : State) : Host.Outcome State Fault Refusal :=
  if c > 10 then .next s
  else
    let s := setTemp s c t
    .next (if reached s 0 t then s else ofCluster s c (fun k => { k with hot := false }))

/-! ## Attestation (R396) -/

/-- `n` bytes of a number, little-endian. -/
def leBytes (v : Nat) : Nat → List Byte
  | 0 => []
  | n + 1 => BitVec.ofNat 8 v :: leBytes (v / 256) n

/-- Fields of `w` bits side by side, the first lowest. -/
def packBits (w : Nat) : List Nat → Nat
  | [] => 0
  | v :: l => v % 2 ^ w + 2 ^ w * packBits w l

/-- RETEN, RETB and PRET of a group in four bits. -/
def retBits (g : Group) : Nat := (match g.retWritten with
  | some b => 1 + 2 * b.toNat
  | none => 0) + (if g.pretWritten then 8 else 0)

/-- The report without its signature: bytes 0 to 1,151 (R396). -/
def reportBody (s : State) : List Byte :=
  let cl (n : Nat) : Cluster := getCl s n
  let ten := List.range 10
  let nonce := bitsN (creg s 0x1100).toNat 51 6 * 64
  leBytes 1 4 ++ leBytes 1664 4
  ++ (List.range 64).map (fun i => newestByte s (nonce + i))
  ++ leBytes s.h.measurement.toNat 64
  ++ leBytes (s.h.svn.toNat + if s.w.fwmode then 65536 else 0) 4
  ++ leBytes Config.serial.toNat 12
  ++ leBytes (timebase s) 8
  ++ leBytes (packBits 9 (ten.map (fun n => (cl n).sitePass.toNat))) 12
  ++ leBytes (packBits 17 (ten.map (fun n => (cl n).wayPass.toNat))) 22
  ++ leBytes (packBits 40 ((List.range 80).map (fun g => (smGet 0 s.h.bankPass g).toNat))) 400
  ++ leBytes (packBits 32 (ten.map (fun n => (cl n).cmap.toNat))) 40
  ++ leBytes (packBits 1 (ten.map (fun n => if (cl n).spareWay then 1 else 0))) 2
  ++ leBytes (packBits 4 ((List.range 640).map (fun i => retBits (getGrp (getCore s (i / 8)) (i % 8))))) 320
  ++ leBytes (packBits 16 ((List.range 80).map (fun g => (getCore s g).xb.arrays.foldl (fun n a => n + a.2.remap.length) 0))) 160
  ++ leBytes (packBits 16 ((List.range 4).map (fun k => (smGet 0 s.h.repaired k).toNat))) 8
  ++ leBytes (packBits 4 (ten.map (fun n => (cl n).owner.toNat))) 5
  ++ leBytes (packBits 8 ((List.range 16).map (peng s))) 16
  ++ leBytes 0 7

/-- ATTESTATION_REQUEST: the report takes the state of this cycle (R396). -/
def execAttestationRequest (w : Writer) (s : State) : Host.Outcome State Fault Refusal :=
  if secureWriter w = false ∨ s.h.attest.isSome then .next (respond s .error)
  else
    let body := reportBody s
    let (n, s) := draw s
    .next (respond { s with h := { s.h with
      attest := some (body ++ leBytes (Config.pssSign body).toNat 512), attestDue := s.t.now + Config.attestCycles n } } .ok)

/-- Write bytes from an address as device writes that every agent sees, above the stamps of their lines (R103, R396), under key material
(R397). -/
def deviceWrite (s : State) (a : Nat) (mat : BitVec 512) (bs : List Byte) : State :=
  let lines := ((List.range bs.length).map (fun i => lineOf (a + i))).eraseDups
  let s := lines.foldl (fun s l => (storeStamp (reKey s mat l) 0 l).2) s
  storeAll s ((bs.zip (List.range bs.length)).map (fun b => (a + b.2, b.1)))

/-- ATTESTATION_COMPLETE: the report stands at ATTOUT and GO reads 0 (R396). -/
def execAttestationComplete (s : State) : Host.Outcome State Fault Refusal :=
  match s.h.attest with
  | some bs =>
    if s.t.now < s.h.attestDue then .next s
    else
      let s := deviceWrite s (bitsN (creg s 0x1108).toNat 51 6 * 64) 0 bs
      .next { s with h := { s.h with attest := none } }
  | none => .next s

/-! ## The application complex and peers (R389, R392) -/

/-- HOST_INTERRUPT: a write of HIRQ raises a line (R389). -/
def execHostInterrupt (w : Writer) (line : BitVec 6) (s : State) : Host.Outcome State Fault Refusal :=
  if w ≠ .firmware then .next (respond s .error)
  else .next (respond { s with h := { s.h with hirq := s.h.hirq ||| (1#64 <<< line.toNat) } } .ok)

/-- Checks 5 to 9 of R31 on an inbound request: owner, key and world are the prefix's or the port's; it carries no BIAS, so the
fifth compares none. -/
def inboundOk (s : State) (addr owner key : Nat) (secure : Bool) : Bool :=
  let g := regionOf addr
  let f := addr / frameBytes
  let kown := (creg s (0x400 + 8 * key)).toNat
  g ≠ .reserved && g ≠ .control
  && (secure || !secureFrame s f)
  && (!(g = .hbm || g = .window) || (s.h.kvalid.getLsbD key && bitsN kown 3 0 = owner))
  && (g ≠ .window || decide ((windowOf addr).2 < 0x100000 * (getCl s (windowOf addr).1).present))

/-- INBOUND_REQUEST (R390, R392): unsupported on a port without INEN, aborted where a check fails or its owner has no slot on
the way (R76), else served on the owner's slots. At most 512 bytes, within 4,096 (the bound of PCI Express, R390). -/
def execInboundRequest (port : Nat) (q : Inbound) (s : State) : Host.Outcome State Fault Refusal :=
  let cfg := (creg s (0x680 + 8 * port)).toNat
  if port > 1 ∨ bitN cfg 0 = false then .next (respond s .unsupported)
  else
    let (owner, key, secure) := match q.pfx with
      | some (o, k, sec) => (o.toNat, k.toNat, sec)
      | none => (bitsN cfg 7 4, bitsN cfg 13 8, false)
    if q.len = 0 ∨ q.len > 512 ∨ q.addr % 4096 + q.len > 4096 ∨ inboundOk s q.addr owner key secure = false
        ∨ (outsideAddrs (.bytes q key)).all (lineReach s owner none) = false then .next (respond s .abort)
    else .next (setOut s (600 + port) owner (.bytes q key))

end Sys2Proof.Machine
end

