-- ==== Sys2Proof/Machine/Debug.lean ====
section
/-! DEFINITION. Settling traps, known-answer checks, dumps, debug halts and DONEMASK writes, the brake van's commands and the
loop counters (R369, R372, R374 to R378, R380, R386). -/

namespace Sys2Proof.Machine

/-! ## Traps settled by firmware (R369, R377, R378) -/

/-- The core and context of an agent. -/
def agentCore (a : Nat) : Nat := a / 4
def agentCtx (a : Nat) : Nat := a % 4
/-- The context that an agent number names, and whether it is trapped. -/
def trappedAgent (s : State) (a : Nat) : Bool := decide (a < 320) && decide ((getCtx s (agentCore a) (agentCtx a)).status = .trapped)

/-- The members that settle a trap together: all that are trapped with the agent, or the agent alone outside the broadcast. -/
def trapMembers (s : State) (a : Nat) : List Nat :=
  let c := agentCore a
  let x := agentCtx a
  if (getCtx s c x).g.solo then [c] else (membersOf s c x).filter (fun m => decide ((getCtx s m x).status = .trapped))

/-- TRAP_RESUME: a write of TACT with 1 (R369); a set DSTEP makes the resume a step (R378). -/
def execTrapResume (w : Writer) (agent : Nat) (s : State) : Host.Outcome State Fault Refusal :=
  if w ≠ .firmware ∨ trappedAgent s agent = false then .next (respond s .error)
  else
    let x := agentCtx agent
    .next (respond ((trapMembers s agent).foldl (fun s m => returnFromTrap s m x (smGet false s.d.dstep (agentOf m x))) s) .ok)

/-- TRAP_FATAL: a write of TACT with 2: the coach faults with cause 12 (R369). -/
def execTrapFatal (w : Writer) (agent : Nat) (s : State) : Host.Outcome State Fault Refusal :=
  if w ≠ .firmware ∨ trappedAgent s agent = false then .next (respond s .error)
  else
    let v := getCtx s (agentCore agent) (agentCtx agent)
    let t := v.trap.getD {}
    let d := 256 * t.cls + t.cause
    .next (respond (match v.j.job with
      | some j => faultJob (nestFault s j 12 d) j (agentCore agent) 12 d t.baddr.toNat
      | none => s) .ok)

/-- DMASK_WRITE: the DONEMASK of a trapped agent (R377). -/
def execDmaskWrite (w : Writer) (agent : Nat) (v : BitVec 8) (s : State) : Host.Outcome State Fault Refusal :=
  if w ≠ .firmware ∨ trappedAgent s agent = false then .next (respond s .error)
  else .next (respond (modRegs s (agentCore agent) (agentCtx agent) (fun r => { r with donemask := v })) .ok)

/-- DEBUG_HALT: the agent's job is to stop at a bundle boundary (R378). -/
def execDebugHalt (w : Writer) (agent : Nat) (s : State) : Host.Outcome State Fault Refusal :=
  if w ≠ .firmware ∨ agent ≥ 320 then .next (respond s .error)
  else
    let v := getCtx s (agentCore agent) (agentCtx agent)
    let s := if v.status = .free ∨ s.d.dhalt.contains agent = true then s else { s with d := { s.d with dhalt := s.d.dhalt ++ [agent] } }
    .next (respond (match v.j.job with
      | some j => askPreempt s j .debugHalt
      | none => s) .ok)

/-! ## Known-answer checks (R372) -/

/-- The lane of the V check, or the column of the M check, that a check finds wrong; none when it matches. -/
def katLane (n : Nat) (vector : Bool) : Option Nat := (Config.katMismatch n).map (fun l => l % (if vector then 64 else 128))

/-- The outcome of one check: a wrong lane is reported, the core is suspect and the coach of the job that carried the check faults (R372). -/
def katCheck (s : State) (core : Nat) (k : Bool × Option Nat) : State :=
  let (n, s) := draw s
  match katLane n k.1 with
  | none => s
  | some lane =>
    let s := modCore (postEvent s 8 none 0 (Config.eventData 8 [core, lane]).toNat) core (fun k => { k with suspect := true })
    match k.2 with
    | some j => faultJob (nestFault s j 12 (0x1400 + lane)) j core 12 (0x1400 + lane) 0
    | none => s

/-- KNOWN_ANSWER_CHECK: the checks that the bundle just issued carries (R372). -/
def execKnownAnswerCheck (core : Nat) (s : State) : Host.Outcome State Fault Refusal :=
  .next ((getCore s core).kats.foldl (fun s k => katCheck s core k) (modCore s core (fun k => { k with kats := [] })))

/-! ## Dumps (R374, R375) -/

/-- DUMP_REQUEST: a write of DUMPREQ (R374). -/
def execDumpRequest (w : Writer) (agent : Nat) (s : State) : Host.Outcome State Fault Refusal :=
  if w ≠ .firmware ∨ agent ≥ 320 ∨ (getCtx s (agentCore agent) (agentCtx agent)).status = .free then .next (respond s .error)
  else .next (respond (requestDump s agent 0) .ok)

/-- Bytes of an agent's dump with `n` nested records. -/
def dumpBytes (s : State) (agent n : Nat) : Nat :=
  let j := (getCtx s (agentCore agent) (agentCtx agent)).j
  256 + 2048 + 2048 + 16384 * ((j.grantx.2 + j.granty.2) / 64) + 512 + (if j.claimM then 131072 else 0) + (if j.claimX then 8192 else 0)
  + 1024 + 64 * n
/-- Frames of the dump ring, and how many are free. -/
def dumpSize (s : State) : Nat := 2 ^ cfield s 0x230200 63 56
def dumpRoom (s : State) : Nat := (cfield s 0x230210 15 0 + 2 * dumpSize s - s.w.dumpTail - 1) % dumpSize s
/-- The address of a frame of the ring. -/
def dumpFrame (s : State) (i : Nat) : Nat := (cfield s 0x230200 51 14 + i % dumpSize s) * frameBytes
/-- The frames that a dump takes. -/
def dumpFrames (s : State) (agent n : Nat) : Nat := (dumpBytes s agent n + frameBytes - 1) / frameBytes

/-- DUMP_START: the engine takes the next request; the image goes to the ring on the partition's slots (R374). -/
def execDumpStart (s : State) : Host.Outcome State Fault Refusal :=
  match s.w.dump, s.w.dumpq with
  | none, (a, r) :: l =>
    let s := { s with w := { s.w with dumpq := l } }
    let v := getCtx s (agentCore a) (agentCtx a)
    if v.status = .free then .next s
    else
      let n := min (dumpFrames s a 0) (dumpRoom s)
      let lines := (List.range n).flatMap (fun i => (List.range 128).map (fun k => dumpFrame s (s.w.dumpTail + i) + 128 * k))
      let (k, s) := startPath s v.j.part.toNat none s.t.now none lines
      .next { s with w := { s.w with dump := some (a, r, [], k) } }
  | _, _ => .next s

/-- Where the image of an agent has its vector frames, its accumulators and what follows (R374). -/
def vecSection : Nat := 256 + 2048 + 2048
def accSection (j : Place) : Nat := vecSection + 16384 * ((j.grantx.2 + j.granty.2) / 64) + 512

/-- The section of the image in which an uncorrectable error turns up (R375 code 1). -/
def badSection (s : State) (a : Nat) : Option Nat :=
  let k := getCore s (agentCore a)
  let j := (getCtx s (agentCore a) (agentCtx a)).j
  let inGrant (i : Nat) : Bool :=
    (vIdx false j.grantx.1 ≤ i && i < vIdx false j.grantx.1 + j.grantx.2) || (vIdx true j.granty.1 ≤ i && i < vIdx true j.granty.1 + j.granty.2)
  if k.vf.vBad.any (fun p => p.2 && inGrant p.1) then some vecSection
  else if j.claimM && k.mx.accBad.any (·.2) then some (accSection j) else none

/-- The failure that a dump meets on its own, with the byte offset reached: an uncorrectable error while it reads the state, a frame that
cannot be written, or no room (R375 codes 1, 2 and 3); the one that it meets first. -/
def dumpFault (s : State) (a n : Nat) : Option (Nat × Nat) :=
  let f := dumpFrames s a n
  let one (c : Nat) (off : Option Nat) : List (Nat × Nat) := off.toList.map (fun o => (c, o))
  let gone := ((List.range (min f (dumpRoom s))).find? (fun i => !frameHere s (dumpFrame s (s.w.dumpTail + i) / frameBytes))).map (· * frameBytes)
  let all := one 1 (badSection s a) ++ one 2 gone ++ one 3 (if dumpRoom s < f then some (dumpRoom s * frameBytes) else none)
  match all with
  | [] => none
  | p :: l => some (l.foldl (fun m q => if q.2 < m.2 then q else m) p)

/-- DUMP_COMPLETE: the image stands in the ring; the job may be discarded (R374). -/
def execDumpComplete (s : State) : Host.Outcome State Fault Refusal :=
  match s.w.dump with
  | none => .next s
  | some (a, _, nested, k) =>
    if !arrived s k || (dumpFault s a nested.length).isSome then .next s
    else
      let (n, s) := draw (dropTicket s k)
      let fs := dumpFrames s a nested.length
      let s := (List.range fs).foldl (fun s i =>
        deviceWrite s (dumpFrame s (s.w.dumpTail + i)) (Config.dumpMaterial n) ((List.range frameBytes).map (fun b => Config.imageByte n (i * frameBytes + b)))) s
      .next { s with w := { s.w with dump := none, dumpTail := (s.w.dumpTail + fs) % dumpSize s } }

/-- DUMP_ABORT: the engine's own path has failed; a minimal record goes to the on-die area (R375). -/
def execDumpAbort (code : Nat) (s : State) : Host.Outcome State Fault Refusal :=
  match s.w.dump with
  | none => .next s
  | some (a, r, nested, k) =>
    let off := match dumpFault s a nested.length with
      | some (c, o) => if c = code then o else 0
      | none => 0
    .next (minimalDump (dropTicket { s with w := { s.w with dump := none } } k) code a r off)

/-! ## The brake van (R380) -/

/-- EN is written: from 0 to 1 the van starts afresh, STOPPED and BVHEAD cleared (R380, R383, R384). -/
def bvEnable (s : State) (on : Bool) : State :=
  let s := bvSettle s
  if on && !s.d.bvEn then
    { s with d := { s.d with bvEn := true, bvStopped := false, bvHead := 0, bvLost := 0, bvDrops := 0, bvFirst := true } }
  else { s with d := { s.d with bvEn := on } }

/-- BRAKE_VAN_ENABLE. -/
def execBrakeVanEnable (w : Writer) (s : State) : Host.Outcome State Fault Refusal :=
  if w ≠ .firmware then .next (respond s .error) else .next (respond (bvEnable s true) .ok)
/-- BRAKE_VAN_DISABLE. -/
def execBrakeVanDisable (w : Writer) (s : State) : Host.Outcome State Fault Refusal :=
  if w ≠ .firmware then .next (respond s .error) else .next (respond (bvEnable s false) .ok)
/-- BRAKE_VAN_STOP: a write of BVCTL.STOP. -/
def execBrakeVanStop (w : Writer) (s : State) : Host.Outcome State Fault Refusal :=
  if w ≠ .firmware then .next (respond s .error) else .next (respond { s with d := { s.d with bvStopped := true } } .ok)

/-- BRAKE_VAN_WRITE: the oldest record of the merge FIFO goes to the ring. -/
def execBrakeVanWrite (s : State) : Host.Outcome State Fault Refusal :=
  match s.d.bvFifo with
  | [] => .next s
  | r :: l =>
    let base := bitsN (creg s 0x400008).toNat 51 30 * 2 ^ 30
    let s := partWrite s (base + 16 * s.d.bvHead) r.toNat 16
    .next { s with d := { s.d with bvFifo := l, bvHead := (s.d.bvHead + 1) % 67108864 } }

/-! ## Loop counters (R386) -/

/-- LOOP_COUNTER_CLEAR: a write of LPCLR. -/
def execLoopCounterClear (w : Writer) (agent : Nat) (s : State) : Host.Outcome State Fault Refusal :=
  if w ≠ .firmware ∨ agent ≥ 320 then .next (respond s .error)
  else .next (respond { s with d := { s.d with lpc := s.d.lpc.filter (fun p => p.1 / 7 ≠ agent) } } .ok)

end Sys2Proof.Machine
end

