-- ==== Sys2Proof/Machine/Registers.lean ====
section
/-! DEFINITION. Control space: the map of its registers, who may reach them, their values and their writes, and the accesses of
application and firmware cores (R5, R20, R24, R25, R37, R60, R81, R99, R121, R348, R349, R363, R375, R388, R389, R393, R401). -/

namespace Sys2Proof.Machine

/-! ## The map (R24) -/

/-- The registers of control space by name, with the number of each in its array. -/
inductive CtrlReg where
  | dtbase | secwin (i : Nat) | kown (k : Nat) | peer (k : Nat) | portcfg (p : Nat) | keyld | keybuf | kclr
  | bootstat | bootptr | bootlen | bootgo | wrst | attnonce | attout | attreq | hirq | clksync | temp (c : Nat) | tlim
  | cmap (n : Nat) | cmapn (n : Nat) | waypart (n : Nat) | fcyc | wbocc (n : Nat) | dthr (n : Nat) | occ (n : Nat) | clown (n : Nat)
  | ptt (t : Nat) | pts (t : Nat) | commit (blk : Nat)
  | qctl (q : Nat) | qring (q : Nat) | qtail (q : Nat) | qhead (q : Nat) | qcode (q : Nat) | qsave (q : Nat) | qfault (q : Nat)
  | qwake (q : Nat) | qreq (q : Nat) | qwd (q : Nat) | pcfg (p : Nat) | qslice | unmap
  | fwmode | evtake (c : Nat) | evdone (c : Nat)
  | invcmd | invrange | invseq | replay | parkcnt | parkend | frbase | frtail | frhead | bfcmd | bfstat | bfend
  | clease | cadv | clkmax | roll
  | traprec (n : Nat) | tact (n : Nat) | katctl (c : Nat) | suspect | lscnt (k : Nat)
  | dumpctl | dumptail | dumphead | dumpreq | dumpstat
  | htt (c : Nat) | hts (c : Nat) | swbase | swtail | swhead
  | bvctl | bvbase | bvhead | bvlost | sper | bpctl (k : Nat) | dhalt | freeze | lpclr | wfctl (f : Nat) | wfmask (f : Nat)
  | lpc (i : Nat) | dstep (n : Nat) | dmask (n : Nat)
  | ondie (i : Nat)
  | gctl (c g : Nat) | gsts (c g : Nat) | diagsel (c : Nat) | diagdata (c : Nat) | cecnt (c b : Nat) | tte (c e : Nat)
  | xdsel (c : Nat) | xdcode (c : Nat) | xrmt (c a : Nat) | xast (c a : Nat) | xbst (c : Nat)
  | bias (i : Nat)
  deriving DecidableEq, Repr

/-- A register at its place: name, first offset and width in bytes. -/
structure RegAt where
  reg : CtrlReg
  start : Nat
  bytes : Nat
  deriving DecidableEq, Repr

/-- The register of an array that holds an offset: `cnt` registers of `bytes` bytes, `stride` apart from `base`. -/
def inArr (off base stride bytes cnt : Nat) (mk : Nat → CtrlReg) : Option RegAt :=
  let i := (off - base) / stride
  if base ≤ off ∧ i < cnt ∧ (off - base) % stride < bytes then some { reg := mk i, start := base + stride * i, bytes } else none

/-- One 64-bit register. -/
def oneReg (off base : Nat) (r : CtrlReg) : Option RegAt := inArr off base 8 8 1 (fun _ => r)

/-- The first answer of a list. -/
def firstReg : List (Option RegAt) → Option RegAt
  | [] => none
  | some r :: _ => some r
  | none :: l => firstReg l

/-- The global block (R401). -/
def regGlobal (o : Nat) : Option RegAt := firstReg [
  oneReg o 0 .dtbase, inArr o 0x100 16 16 16 .secwin, inArr o 0x400 8 8 64 .kown, inArr o 0x600 8 8 8 .peer, inArr o 0x680 8 8 2 .portcfg,
  oneReg o 0x800 .keyld, inArr o 0x840 64 64 1 (fun _ => .keybuf), oneReg o 0x900 .kclr,
  oneReg o 0x1000 .bootstat, oneReg o 0x1008 .bootptr, oneReg o 0x1010 .bootlen, oneReg o 0x1018 .bootgo, oneReg o 0x1020 .wrst,
  oneReg o 0x1100 .attnonce, oneReg o 0x1108 .attout, oneReg o 0x1110 .attreq, oneReg o 0x1200 .hirq,
  inArr o 0x1300 16 16 1 (fun _ => .clksync), inArr o 0x1400 8 8 11 .temp, oneReg o 0x1480 .tlim]

/-- A cluster block (R81, R363). -/
def regCluster (n base o : Nat) : Option RegAt := firstReg [
  inArr o base 8 4 1 (fun _ => .cmap n), inArr o (base + 8) 8 4 1 (fun _ => .cmapn n), oneReg o (base + 0x10) (.waypart n),
  oneReg o (base + 0x18) .fcyc, oneReg o (base + 0x20) (.wbocc n), oneReg o (base + 0x30) (.dthr n), oneReg o (base + 0x38) (.occ n),
  oneReg o (base + 0x40) (.clown n), inArr o (base + 0x100) 64 64 8 (fun p => .ptt (8 * n + p)),
  inArr o (base + 0x400) 64 64 8 (fun p => .pts (8 * n + p)), oneReg o (base + 0x800) (.commit n)]

/-- A queue's registers (R349). -/
def regQueue (q base o : Nat) : Option RegAt := firstReg [
  oneReg o base (.qctl q), oneReg o (base + 8) (.qring q), oneReg o (base + 0x10) (.qtail q), oneReg o (base + 0x18) (.qhead q),
  oneReg o (base + 0x20) (.qcode q), oneReg o (base + 0x28) (.qsave q), oneReg o (base + 0x30) (.qfault q), oneReg o (base + 0x38) (.qwake q),
  oneReg o (base + 0x40) (.qreq q), oneReg o (base + 0x48) (.qwd q)]

/-- The front-end block (R349, R363). -/
def regFront (o : Nat) : Option RegAt :=
  if o < 0x106000 then regQueue ((o - 0x100000) / 0x100) (0x100000 + 0x100 * ((o - 0x100000) / 0x100)) o
  else firstReg [inArr o 0x108000 0x40 8 16 .pcfg, oneReg o 0x10A000 .qslice, oneReg o 0x10A008 .unmap]

/-- The firmware block (R99, R121, R354, R355, R375). -/
def regFirmware (o : Nat) : Option RegAt := firstReg [
  oneReg o 0x200000 .fwmode, inArr o 0x200100 0x40 32 12 .evtake, inArr o 0x200120 0x40 8 12 .evdone,
  oneReg o 0x20F000 .invcmd, oneReg o 0x20F008 .invrange, oneReg o 0x20F010 .invseq, oneReg o 0x20F018 .replay, oneReg o 0x20F020 .parkcnt,
  oneReg o 0x20F028 .parkend, oneReg o 0x20F030 .frbase, oneReg o 0x20F038 .frtail, oneReg o 0x20F040 .frhead, oneReg o 0x20F048 .bfcmd,
  oneReg o 0x20F050 .bfstat, oneReg o 0x20F058 .bfend, oneReg o 0x20F060 .clease, oneReg o 0x20F068 .cadv, oneReg o 0x20F070 .clkmax,
  oneReg o 0x20F078 .roll, inArr o 0x210000 64 64 320 .traprec, inArr o 0x220000 8 8 320 .tact, inArr o 0x230000 8 8 10 .katctl,
  inArr o 0x230080 16 16 1 (fun _ => .suspect), inArr o 0x230100 8 8 40 .lscnt, oneReg o 0x230200 .dumpctl, oneReg o 0x230208 .dumptail,
  oneReg o 0x230210 .dumphead, oneReg o 0x230218 .dumpreq, oneReg o 0x230220 .dumpstat]

/-- The HBM block (R81). -/
def regHbm (o : Nat) : Option RegAt := firstReg [
  inArr o 0x300000 64 64 256 .htt, inArr o 0x304000 64 64 256 .hts, oneReg o 0x308000 (.commit 10), oneReg o 0x310000 .swbase,
  oneReg o 0x310008 .swtail, oneReg o 0x310010 .swhead]

/-- The debug block (R99, R388). -/
def regDebug (o : Nat) : Option RegAt := firstReg [
  oneReg o 0x400000 .bvctl, oneReg o 0x400008 .bvbase, oneReg o 0x400010 .bvhead, oneReg o 0x400018 .bvlost, oneReg o 0x400020 .sper,
  inArr o 0x400100 8 8 16 .bpctl, oneReg o 0x400200 .dhalt, oneReg o 0x400300 .freeze, oneReg o 0x400308 .lpclr,
  inArr o 0x401000 64 8 8 .wfctl, inArr o 0x401020 64 32 8 .wfmask, 
  if (o - 0x410000) / 0x80 % 8 < 7 then inArr o 0x410000 0x80 128 2560 .lpc else none,
  inArr o 0x460000 8 8 320 .dstep, inArr o 0x461000 8 8 320 .dmask]

/-- A core position's diagnostic block (R60, R348). -/
def regDiag (c o : Nat) : Option RegAt :=
  let b := spBase c
  firstReg [
    inArr o b 8 8 8 (.gctl c), inArr o (b + 0x40) 8 8 8 (.gsts c), oneReg o (b + 0x100) (.diagsel c),
    inArr o (b + 0x200) 256 256 1 (fun _ => .diagdata c), inArr o (b + 0x400) 4 4 40 (.cecnt c), inArr o (b + 0x1000) 4 4 256 (.tte c),
    oneReg o (b + 0x10000) (.xdsel c), inArr o (b + 0x10100) 256 256 1 (fun _ => .xdcode c), inArr o (b + 0x11000) 64 64 64 (.xrmt c),
    inArr o (b + 0x12000) 8 8 64 (.xast c), oneReg o (b + 0x13000) (.xbst c)]

/-- The register that holds an offset of control space; none where it is reserved (R24). -/
def regAt (o : Nat) : Option RegAt :=
  if o < 0x10000 then regGlobal o
  else if o < 0xB0000 then regCluster ((o - 0x10000) / 0x10000) (o / 0x10000 * 0x10000) o
  else if o < 0x100000 then none
  else if o < 0x200000 then regFront o
  else if o < 0x300000 then regFirmware o
  else if o < 0x400000 then regHbm o
  else if o < 0x500000 then regDebug o
  else if o < 0x510000 then inArr o 0x500000 64 64 1024 .ondie
  else if 0x1000000 ≤ o ∧ o < 0x2400000 then regDiag ((o - 0x1000000) / 0x40000) o
  else inArr o 0x6000000 8 8 196608 .bias

/-! ## Values (R5) -/

/-- A bit at its place. -/
def bitAt (p : Bool) (i : Nat) : Nat := if p then 2 ^ i else 0

/-- QCTL as read (R349). -/
def QState.code : QState → Nat
  | .off => 0
  | .idle => 1
  | .runnable => 2
  | .mapped => 3
  | .faulted => 4
  | .ended => 5
def qctlWord (q : Queue) : Nat :=
  bitAt q.en 0 + q.pri.toNat * 2 + q.part.toNat * 2 ^ 4 + bitAt q.ns 8 + q.st.code * 2 ^ 9 + (q.eng.getD 0) * 2 ^ 12

/-- BOOTSTAT (R401). -/
def bootstat (s : State) : Nat :=
  (match s.h.boot with
    | .selfTest => 0
    | .waiting => 1
    | .verifying => 2
    | .running => 3
    | .failed c => 4 + c % 16 * 2 ^ 8) + s.h.bootCnt % 2 ^ 32 * 2 ^ 16

/-- BFSTAT (R99): draining until the entry's frame has turned, then waiting. -/
def bfstat (s : State) : Nat :=
  match s.x.flip with
  | some f => if f.phase = 3 then 2 else 1
  | none => if s.x.flipFail = 0 then 0 else 3 + s.x.flipFail % 16 * 2 ^ 4

/-- A trap record's bytes (R367). -/
def trapWord (a : Nat) (t : TrapRec) : Nat :=
  t.cls % 256 + t.cause % 256 * 2 ^ 8 + t.slot % 256 * 2 ^ 16 + t.done.toNat * 2 ^ 24 + a * 2 ^ 32 + t.rank % 8 * 2 ^ 48 + bitAt t.prot 55
  + t.origin % 256 * 2 ^ 56 + t.baddr.toNat * 2 ^ 64 + t.detail % 2 ^ 32 * 2 ^ 96 + t.time % 2 ^ 64 * 2 ^ 128 + t.seq % 2 ^ 16 * 2 ^ 192

/-- Words of `w` bits from a list. -/
def wordsOf (w : Nat) (l : List Nat) : Nat := packBits w l

/-- The task address of the oldest unretired coach, or TAILB (R349). -/
def qhead (q : Queue) : Nat := (q.coaches.head?.map (·.taddr)).getD q.tailb % 2 ^ 16

/-- The value that a read of a register returns; none where it can only be written. -/
def regValue (s : State) (r : CtrlReg) : Option Nat :=
  let stored (off : Nat) : Option Nat := some (creg s off).toNat
  match r with
  | .dtbase => stored 0
  | .secwin i => stored (0x100 + 16 * i)
  | .kown k => some (bitsN (creg s (0x400 + 8 * k)).toNat 3 0 + bitAt (s.h.kvalid.getLsbD k) 4 + bitAt ((creg s (0x400 + 8 * k)).getLsbD 5) 5)
  | .peer k => stored (0x600 + 8 * k)
  | .portcfg p => stored (0x680 + 8 * p)
  | .keyld => none
  | .keybuf => some 0
  | .kclr => some (cfield s 0x900 5 0 + bitAt s.h.kclr.isSome 63)
  | .bootstat => some (bootstat s)
  | .bootptr => stored 0x1008
  | .bootlen => stored 0x1010
  | .bootgo => none
  | .wrst => none
  | .attnonce => stored 0x1100
  | .attout => stored 0x1108
  | .attreq => some (bitAt s.h.attest.isSome 63)
  | .hirq => none
  | .clksync => some s.h.clksync.toNat
  | .temp c => some (smGet 0 s.h.temps c).toNat
  | .tlim => stored 0x1480
  | .cmap n => some (getCl s n).cmap.toNat
  | .cmapn n => some (getCl s n).cmapn.toNat
  | .waypart n => some (Sys2Proof.Machine.waypart (getCl s n))
  | .fcyc => some (s.t.now % 2 ^ 64)
  | .wbocc n => some (getCl s n).wb.length
  | .dthr n => some (Sys2Proof.Machine.dthr s n)
  | .occ n => some (Sys2Proof.Machine.occ s n)
  | .clown n =>
    let c := getCl s n
    some (c.owner.toNat + ((c.moveTo.map (·.toNat)).getD (cfield s (0x10040 + 0x10000 * n) 11 8)) * 2 ^ 8 + bitAt c.moveTo.isSome 12 + bitAt c.waitf 13)
  | .ptt t => some (liveOf s t).toNat
  | .pts t => some (shadowOf s t).toNat
  | .commit b => some (bitAt (if b < 10 then (getCl s b).commitAt.isSome else s.x.hbmCommit.isSome) 0)
  | .qctl q => some (qctlWord (getQ s q))
  | .qring q => stored (queueReg q 8)
  | .qtail q => some (getQ s q).tail.toNat
  | .qhead q => some (Sys2Proof.Machine.qhead (getQ s q))
  | .qcode q => stored (queueReg q 0x20)
  | .qsave q => stored (queueReg q 0x28)
  | .qfault q => stored (queueReg q 0x30)
  | .qwake _ => none
  | .qreq _ => none
  | .qwd q => stored (queueReg q 0x48)
  | .pcfg p => some (Sys2Proof.Machine.pcfg s p + wordsOf 1 ((List.range 10).map (fun n => if (getCl s n).owner.toNat = p then 1 else 0)) * 2 ^ 32)
  | .qslice => stored 0x10A000
  | .unmap => none
  | .fwmode => some (bitAt s.w.fwmode 0)
  | .evtake c => (s.w.taken.find? (fun t => t.1 = c)).map (fun t => eventBytes t.2)
  | .evdone _ => none
  | .invcmd => some (cfield s 0x20F000 17 0 + bitAt s.x.inv.isSome 63)
  | .invrange => stored 0x20F008
  | .invseq => some s.x.invseq
  | .replay => some (bitAt s.x.replay 0)
  | .parkcnt => some s.x.park.length
  | .parkend => none
  | .frbase => stored 0x20F030
  | .frtail => some s.x.frTail
  | .frhead => stored 0x20F040
  | .bfcmd => some (cfield s 0x20F048 51 4 * 16)
  | .bfstat => some (Sys2Proof.Machine.bfstat s)
  | .bfend => none
  | .clease => stored 0x20F060
  | .cadv => stored 0x20F068
  | .clkmax => some (clkMax s % 2 ^ 48)
  | .roll => some (bitAt (s.c.rollReq.isSome || s.c.rollEnd.isSome) 0 + s.c.epoch * 2 ^ 32)
  | .traprec n => some (match s.w.traprecs.find? (fun t => t.1 = n) with
    | some t => trapWord n t.2
    | none => 0)
  | .tact _ => none
  | .katctl c => stored (0x230000 + 8 * c)
  | .suspect => some (wordsOf 1 ((List.range 80).map (fun g => if (getCore s g).suspect then 1 else 0)))
  | .lscnt k => some (smGet 0 s.w.lscnt k % 8)
  | .dumpctl => stored 0x230200
  | .dumptail => some s.w.dumpTail
  | .dumphead => stored 0x230210
  | .dumpreq => none
  | .dumpstat => some (bitAt s.w.dump.isSome 0 + s.w.dumpq.length * 2)
  | .htt c => some (liveOf s (1000 + c)).toNat
  | .hts c => some (shadowOf s (1000 + c)).toNat
  | .swbase => stored 0x310000
  | .swtail => some s.x.swTail
  | .swhead => some s.x.swHead
  | .bvctl => some (bitAt s.d.bvEn 0 + s.d.bvStopOn.toNat * 2 ^ 8 + bitAt s.d.bvStopped 16)
  | .bvbase => stored 0x400008
  | .bvhead => some s.d.bvHead
  | .bvlost => some (s.d.bvLost % 2 ^ 32)
  | .sper => stored 0x400020
  | .bpctl k => stored (0x400100 + 8 * k)
  | .dhalt => none
  | .freeze => none
  | .lpclr => none
  | .wfctl f => stored (0x401000 + 64 * f)
  | .wfmask f => stored (0x401020 + 64 * f)
  | .lpc i => some (wordsOf 32 (smGet [] s.d.lpc (i / 8 * 7 + i % 8)))
  | .dstep n => some (bitAt (smGet false s.d.dstep n) 0)
  | .dmask _ => none
  | .ondie i => some (if i = 0 then (Config.ondieHeader s.w.ondie.length s.w.ondieOver).toNat else (s.w.ondie.getD (i - 1) 0).toNat)
  | .gctl c g => some (Sys2Proof.Machine.gctl (getCore s c) g)
  | .gsts c g => some (Sys2Proof.Machine.gsts (getCore s c) g)
  | .diagsel c => stored (spBase c + 0x100)
  | .diagdata c => some (let d := diagSel s c; (rowOf (getCore s c) d.1 d.2).toNat)
  | .cecnt c b => some (smGet 0 (getCore s c).sp.cecnt b)
  | .tte c e => some (tteWord (getCore s c) e)
  | .xdsel c => stored (spBase c + 0x10000)
  | .xdcode c => some (columnNibbles (xbOf s c).image (cfield s (spBase c + 0x10000) 5 0) (cfield s (spBase c + 0x10000) 25 16)).toNat
  | .xrmt c a => some (wordsOf 16 ((List.range 24).map (fun r => match (arrOf (xbOf s c) a).remap.find? (fun e => e.1 = r) with
    | some e => e.2 + 2 ^ 15
    | none => 0)))
  | .xast c a => some (xstat (xbOf s c) a)
  | .xbst c => some (xbstat (xbOf s c) s.t.now)
  | .bias i => some (wordsOf 1 ((List.range 64).map (fun b => if smGet false s.x.bias (64 * i + b) then 1 else 0)))

/-! ## Who may reach a register (R349, R389, R393, R394, R401) -/

/-- The queue of a queue register. -/
def regQueueNo : CtrlReg → Option Nat
  | .qctl q => some q
  | .qring q => some q
  | .qtail q => some q
  | .qhead q => some q
  | .qcode q => some q
  | .qsave q => some q
  | .qfault q => some q
  | .qwake q => some q
  | .qreq q => some q
  | .qwd q => some q
  | _ => none

/-- Whether a register answers now: after a failed boot only four do (R394 step 6). -/
def answers (s : State) (r : CtrlReg) : Bool :=
  match s.h.boot with
  | .failed _ => r = .bootstat || r = .bootptr || r = .bootlen || r = .wrst
  | _ => true

/-- Whether an agent may read a register. -/
def mayRead (s : State) (w : Writer) (r : CtrlReg) : Bool :=
  answers s r && (match w with
    | .firmware => true
    | .app true => true
    | .app false => r = .bootstat || (match regQueueNo r with
      | some q => (getQ s q).ns
      | none => false)
    | .tap => false)

/-- Whether an agent may write a register. -/
def mayWrite (s : State) (w : Writer) (r : CtrlReg) : Bool :=
  answers s r && (match w with
    | .firmware => true
    | .app secure =>
      (secure && (r = .bootptr || r = .bootlen || r = .bootgo || r = .wrst || r = .attnonce || r = .attout || r = .attreq))
      || (match r with
        | .qtail q => mayRing w (getQ s q)
        | .qwake q => mayRing w (getQ s q)
        | .qreq q => mayRing w (getQ s q)
        | _ => false)
    | .tap => r = .freeze)

/-! ## Writes (R5) -/

/-- The state after a row that a register write sets off. -/
def outState (s : State) : Host.Outcome State Fault Refusal → State
  | .next t => t
  | _ => respond s .error

/-- Whether a value has only bits of the fields named, each from its high to its low bit. -/
def onlyBits (v : Nat) (fields : List (Nat × Nat)) : Bool := v = fields.foldl (fun n f => n + bitsN v f.1 f.2 * 2 ^ f.2) 0

/-- A write that only stores, refused with an error where the value is not allowed. -/
def storeReg (s : State) (off v : Nat) (ok : Bool) : State :=
  if ok then respond (setCreg s off (BitVec.ofNat 512 v)) .ok else respond s .error

/-- A command register: bit `b` set runs the command, clear does nothing. -/
def command (s : State) (v b : Nat) (ok : Bool) (f : Host.Outcome State Fault Refusal) : State :=
  if !ok then respond s .error else if bitN v b then outState s f else respond s .ok

/-- Whether the limits that are not 0 rise (R362, R401). -/
def rising : List Nat → Bool
  | [] => true
  | a :: l => l.all (fun b => b = 0 || a = 0 || a < b) && rising l

/-- Whether a shadow timetable may be written (R78, R80, R81). -/
def tableOk (v : Nat) (hbm : Bool) : Bool :=
  (List.range 64).all (fun i =>
    let b := bitsN v (8 * i + 7) (8 * i)
    if hbm then
      if i = 0 || i = 32 then b = 0x10
      else if (posSet i).isNone then b = 0x1F
      else b ≤ 0x10 || b = 0x1F
    else b < 0x10 || b = 0x1F)

/-- A write of QCTL (R349, R350, R365). -/
def writeQctl (s : State) (w : Writer) (qn v : Nat) : State :=
  let q := getQ s qn
  let same := bitsN v 3 1 = q.pri.toNat && bitsN v 7 4 = q.part.toNat && bitN v 8 = q.ns
  if !onlyBits v [(18, 0)] || (bitN v 17 && bitN v 18) || (q.en && !same) || ((bitN v 17 || bitN v 18) && q.st ≠ .faulted) then respond s .error
  else if bitN v 17 then outState s (execStreamResume w qn s)
  else if bitN v 18 then outState s (execStreamDiscard w qn s)
  else if q.en && !bitN v 0 then outState s (execQueueDisable w qn s)
  else
    let s := if q.en then s else modQ s qn (fun q => { q with
      pri := BitVec.ofNat 3 (bitsN v 3 1), part := BitVec.ofNat 4 (bitsN v 7 4), ns := bitN v 8 })
    if bitN v 0 then outState s (execQueueEnable w qn s) else respond s .ok

/-- A write of PCFGp (R363). -/
def writePcfg (s : State) (p v : Nat) : State :=
  let others := (List.range 16).foldl (fun n i => n + if i = p then 0 else peng s i) 0
  let v' := v % 2 ^ 32
  storeReg s (0x108000 + 0x40 * p) v'
    (onlyBits v [(4, 0), (7, 5), (21, 8), (27, 22), (41, 32)] && decide (bitsN v 4 0 + others ≤ 24) && decide (bitsN v 21 8 ≤ 8192))

/-- A write of CLOWN (R363, R364). -/
def writeClown (s : State) (w : Writer) (n v : Nat) : State :=
  if !onlyBits v [(3, 0), (13, 8)] || (getCl s n).moveTo.isSome then respond s .error
  else if bitN v 12 then outState s (execClusterMoveStart w n (BitVec.ofNat 4 (bitsN v 11 8)) s)
  else storeReg s (0x10040 + 0x10000 * n) (bitsN v 11 8 * 2 ^ 8) true

/-- A write of INVCMD (R95, R99). -/
def writeInvcmd (s : State) (w : Writer) (v : Nat) : State :=
  let tid := BitVec.ofNat 16 v
  if !onlyBits v [(17, 0), (63, 63)] || bitsN v 17 16 = 3 then respond s .error
  else if !bitN v 63 then storeReg s 0x20F000 v s.x.inv.isNone
  else if bitsN v 17 16 = 0 then outState s (execInvalidateIdentifier w tid s)
  else if bitsN v 17 16 = 1 then outState s (execInvalidateTileRange w tid s)
  else outState s (execInvalidateEverything w s)

/-- A write of BVCTL (R380, R388). -/
def writeBvctl (s : State) (v : Nat) : State :=
  if !onlyBits v [(1, 0), (11, 8), (16, 16)] then respond s .error
  else
    let s := bvEnable s (bitN v 0)
    respond { s with d := { s.d with bvStopOn := BitVec.ofNat 4 (bitsN v 11 8), bvStopped := s.d.bvStopped || bitN v 1 } } .ok

/-- A write of KOWNk: OWNER and BYPASS stand fixed while VALID (R398). -/
def writeKown (s : State) (k v : Nat) : State :=
  let old := (creg s (0x400 + 8 * k)).toNat
  let new := bitsN v 3 0 + bitAt (bitN v 5) 5
  storeReg s (0x400 + 8 * k) new (onlyBits v [(5, 0)] && (!s.h.kvalid.getLsbD k || new = old))

/-- The signed value of a 12-bit limit. -/
def limitOf (v hi lo : Nat) : Int := (BitVec.ofNat 12 (bitsN v hi lo)).toInt

/-- A write of a whole register by an agent that may write it. -/
def writeReg (s : State) (w : Writer) (r : CtrlReg) (v : Wide) : State :=
  let n := v.toNat
  let bad := respond s .error
  match r with
  | .dtbase => storeReg s 0 n (onlyBits n [(51, 22)])
  | .secwin i => storeReg s (0x100 + 16 * i) n (onlyBits n [(37, 0), (101, 64), (127, 127)])
  | .kown k => writeKown s k n
  | .peer k => storeReg s (0x600 + 8 * k) n (onlyBits n [(1, 0), (63, 14)])
  | .portcfg p => storeReg s (0x680 + 8 * p) n (onlyBits n [(0, 0), (13, 4)])
  | .keyld => command s n 63 (onlyBits n [(5, 0), (63, 63)]) (execKeyLoad w (BitVec.ofNat 6 n) s)
  | .keybuf => storeReg s 0x840 n true
  | .kclr =>
    if !onlyBits n [(5, 0), (63, 63)] || s.h.kclr.isSome then bad
    else
      let s := setCreg s 0x900 (BitVec.ofNat 512 (n % 64))
      command s n 63 true (execKeyRevoke w (BitVec.ofNat 6 n) s)
  | .bootstat => bad
  | .bootptr => storeReg s 0x1008 n (onlyBits n [(51, 12)])
  | .bootlen => storeReg s 0x1010 n (decide (n ≤ 2 ^ 23))
  | .bootgo => command s n 0 (onlyBits n [(0, 0)]) (execBootGo w s)
  | .wrst => command s n 63 (onlyBits n [(63, 63)]) (execWarmReset w s)
  | .attnonce => storeReg s 0x1100 n (onlyBits n [(51, 6)])
  | .attout => storeReg s 0x1108 n (onlyBits n [(51, 6)])
  | .attreq => command s n 63 (onlyBits n [(63, 63)]) (execAttestationRequest w s)
  | .hirq => if onlyBits n [(5, 0)] then outState s (execHostInterrupt w (BitVec.ofNat 6 n) s) else bad
  | .clksync => bad
  | .temp _ => bad
  | .tlim => storeReg s 0x1480 n (onlyBits n [(35, 0)] && decide (limitOf n 11 0 < limitOf n 23 12) && decide (limitOf n 23 12 < limitOf n 35 24))
  | .cmap _ => bad
  | .cmapn c => outState s (execCmapnWrite w c (BitVec.ofNat 32 n) s)
  | .waypart c => if n < 2 ^ 64 then outState s (execWaypartWrite w c (BitVec.ofNat 64 n) s) else bad
  | .fcyc => bad
  | .wbocc _ => bad
  | .dthr c => storeReg s (0x10030 + 0x10000 * c) n (decide (n ≤ 32))
  | .occ _ => bad
  | .clown c => writeClown s w c n
  | .ptt _ => bad
  | .pts t => storeReg s (0x10400 + 0x10000 * (t / 8) + 64 * (t % 8)) n (tableOk n false)
  | .commit b => command s n 0 (onlyBits n [(0, 0)]) (execCommit w b s)
  | .qctl q => writeQctl s w q n
  | .qring q => storeReg s (queueReg q 8) n (onlyBits n [(51, 16)] && !(getQ s q).en)
  | .qtail q => if n < 2 ^ 16 then outState s (execQtailWrite w q (BitVec.ofNat 16 n) s) else bad
  | .qhead _ => bad
  | .qcode q => storeReg s (queueReg q 0x20) n (decide (n < 2 ^ 16) && !(getQ s q).en)
  | .qsave q => storeReg s (queueReg q 0x28) n (onlyBits n [(51, 18)] && !(getQ s q).en)
  | .qfault q => storeReg s (queueReg q 0x30) n (onlyBits n [(51, 6)] && !(getQ s q).en)
  | .qwake q => outState s (execQueueWake w q s)
  | .qreq q => outState s (execQueueRequest w q (BitVec.ofNat 64 n) s)
  | .qwd q => storeReg s (queueReg q 0x48) n (onlyBits n [(47, 0)] && rising [bitsN n 15 0, bitsN n 31 16, bitsN n 47 32])
  | .pcfg p => writePcfg s p n
  | .qslice => storeReg s 0x10A000 n (decide (1 ≤ n) && decide (n < 2 ^ 32))
  | .unmap => command s n 63 (onlyBits n [(4, 0), (63, 63)] && decide (n % 32 < 24)) (execUnmap w (n % 32) s)
  | .fwmode => bad
  | .evtake _ => bad
  | .evdone c => outState s (execEventDone c s)
  | .invcmd => writeInvcmd s w n
  | .invrange => storeReg s 0x20F008 n true
  | .invseq => bad
  | .replay => command s n 0 (onlyBits n [(0, 0)]) (execReplay w s)
  | .parkcnt => bad
  | .parkend => command s n 63 (onlyBits n [(8, 0), (63, 63)]) (execParkend w (n % 512) s)
  | .frbase => storeReg s 0x20F030 n (onlyBits n [(51, 6), (63, 56)] && decide (4 ≤ bitsN n 63 56) && decide (bitsN n 63 56 ≤ 12))
  | .frtail => bad
  | .frhead => storeReg s 0x20F040 n (decide (n < 2 ^ 12))
  | .bfcmd =>
    if !onlyBits n [(51, 4), (63, 63)] then bad
    else if bitN n 63 then
      (if s.x.flip.isSome then bad
       else outState s (execBiasFlip w (bitsN n 51 4 * 16) (setCreg s 0x20F048 (BitVec.ofNat 512 (bitsN n 51 4 * 16)))))
    else storeReg s 0x20F048 n s.x.flip.isNone
  | .bfstat => bad
  | .bfend => command s n 63 (onlyBits n [(63, 63)]) (execBiasFlipEnd w s)
  | .clease => storeReg s 0x20F060 n (decide (1 ≤ n) && decide (n < 2 ^ 8))
  | .cadv => storeReg s 0x20F068 n (decide (1 ≤ n) && decide (n < 2 ^ 12))
  | .clkmax => bad
  | .roll => command s n 0 (onlyBits n [(0, 0), (63, 32)]) (execRolloverRequest w s)
  | .traprec _ => bad
  | .tact a => if n = 1 then outState s (execTrapResume w a s) else if n = 2 then outState s (execTrapFatal w a s) else bad
  | .katctl c => storeReg s (0x230000 + 8 * c) n (onlyBits n [(0, 0), (31, 16)] && decide (256 ≤ bitsN n 31 16))
  | .suspect => bad
  | .lscnt _ => bad
  | .dumpctl => storeReg s 0x230200 n (onlyBits n [(0, 0), (51, 14), (63, 56)] && decide (4 ≤ bitsN n 63 56) && decide (bitsN n 63 56 ≤ 16))
  | .dumptail => bad
  | .dumphead => storeReg s 0x230210 n (decide (n < 2 ^ 16))
  | .dumpreq => command s n 63 (onlyBits n [(8, 0), (63, 63)] && decide (n % 512 < 320)) (execDumpRequest w (n % 512) s)
  | .dumpstat => bad
  | .htt _ => bad
  | .hts c => storeReg s (0x304000 + 64 * c) n (tableOk n true)
  | .swbase => storeReg s 0x310000 n (onlyBits n [(51, 5), (63, 56)] && decide (4 ≤ bitsN n 63 56) && decide (bitsN n 63 56 ≤ 12))
  | .swtail => if n < 2 ^ 12 then outState s (execSwapTailWrite w (BitVec.ofNat 12 n) s) else bad
  | .swhead => bad
  | .bvctl => writeBvctl s n
  | .bvbase => storeReg s 0x400008 n (onlyBits n [(51, 30)] && decide (n < 0x3000000000))
  | .bvhead => bad
  | .bvlost => bad
  | .sper => storeReg s 0x400020 n (n = 0 || (decide (64 ≤ n) && decide (n < 2 ^ 16)))
  | .bpctl k => storeReg s (0x400100 + 8 * k) n (onlyBits n [(52, 0)])
  | .dhalt => command s n 63 (onlyBits n [(8, 0), (63, 63)] && decide (n % 512 < 320)) (execDebugHalt w (n % 512) s)
  | .freeze => command s n 0 (onlyBits n [(0, 0)]) (execFreeze w s)
  | .lpclr => command s n 63 (onlyBits n [(8, 0), (63, 63)] && decide (n % 512 < 320)) (execLoopCounterClear w (n % 512) s)
  | .wfctl f => storeReg s (0x401000 + 64 * f) n (onlyBits n [(51, 0)])
  | .wfmask f => storeReg s (0x401020 + 64 * f) n true
  | .lpc _ => bad
  | .dstep a => if n < 2 then respond { s with d := { s.d with dstep := cmPut false s.d.dstep a (n = 1) } } .ok else bad
  | .dmask a => if n < 2 ^ 8 then outState s (execDmaskWrite w a (BitVec.ofNat 8 n) s) else bad
  | .ondie _ => bad
  | .gctl c g => writeGctl w c g n s
  | .gsts _ _ => bad
  | .diagsel c => storeReg s (spBase c + 0x100) n (onlyBits n [(5, 0), (16, 8)] && decide (n % 64 < 40))
  | .diagdata c => outState s (execDiagdataWrite w c v s)
  | .cecnt c b => outState s (execCecntClear w c b s)
  | .tte _ _ => bad
  | .xdsel c => storeReg s (spBase c + 0x10000) n (onlyBits n [(5, 0), (25, 16)] && decide (bitsN n 25 16 ≤ 543))
  | .xdcode _ => bad
  | .xrmt _ _ => bad
  | .xast _ _ => bad
  | .xbst _ => bad
  | .bias _ => bad

/-- CONTROL_REGISTER_WRITE: a whole register is written; a reserved place, a writer that may not, or a value with a bit beyond the
register ends with an error and changes nothing (R5, R20, R24). -/
def execControlRegisterWrite (w : Writer) (off : Nat) (v : BitVec 512) (s : State) : Host.Outcome State Fault Refusal :=
  match regAt off with
  | some r =>
    if r.start = off ∧ mayWrite s w r.reg = true ∧ v.toNat < 2 ^ (8 * r.bytes) then .next (writeReg s w r.reg (v.setWidth 2048))
    else .next (respond s .error)
  | none => .next (respond s .error)

/-! ## Words (R389) -/

/-- A 32-bit or 64-bit read of control space by an agent; at a reserved offset it returns zero with an error (R20); a firmware
core's read of its EVTAKE takes an event. -/
def readWord (s : State) (w : Writer) (fw : Option Nat) (off n : Nat) : State :=
  match regAt off with
  | none => respond s (.errorRead 0)
  | some r =>
    if !mayRead s w r.reg || (decide (8 < r.bytes) && n = 4) then respond s .error
    else
      let part (v : Nat) : State := respond s (.value (BitVec.ofNat 2048 (v / 256 ^ (off - r.start) % 256 ^ n)))
      match r.reg with
      | .evtake c =>
        if fw ≠ some c then respond s .error
        else
          let t := if off = r.start then outState s (execEventTake c s) else s
          match regValue t r.reg with
          | some v => respond t (.value (BitVec.ofNat 2048 (v / 256 ^ (off - r.start) % 256 ^ n)))
          | none => t
      | .diagdata c =>
        let t := outState s (execDiagdataRead w c s)
        (match t.resp with
          | .value v => respond t (.value (BitVec.ofNat 2048 (v.toNat / 256 ^ (off - r.start) % 256 ^ n)))
          | _ => t)
      | q => match regValue s q with
        | some v => part v
        | none => respond s .error

/-- A 32-bit or 64-bit write of control space: a register of more than 64 bits takes effect with its last word, what was not
written keeping its value (R389); every word of DIAGDATA is refused while its group is held (R61). -/
def writeWord (s : State) (w : Writer) (fw : Option Nat) (off n v : Nat) : State :=
  match regAt off with
  | none => respond s .error
  | some r =>
    let mine := match r.reg with
      | .evdone c => fw = some c
      | .diagdata c => !diagHeld s c
      | _ => true
    if !mayWrite s w r.reg || !mine || (decide (8 < r.bytes) && n = 4) || decide (256 ^ r.bytes ≤ v) then respond s .error
    else if r.bytes ≤ n then writeReg s w r.reg (BitVec.ofNat 2048 v)
    else if r.bytes ≤ 8 then
      let old := (regValue s r.reg).getD 0
      let o := off - r.start
      writeReg s w r.reg (wSplice (BitVec.ofNat 2048 old) o n v)
    else if off + n < r.start + r.bytes then
      respond { s with cwords := smPut s.cwords off (BitVec.ofNat 64 v) } .ok
    else
      let old := (regValue s r.reg).getD 0
      let mine := s.cwords.filter (fun p => r.start ≤ p.1 && p.1 < r.start + r.bytes)
      let whole := mine.foldl (fun x p => wSplice x (p.1 - r.start) 8 p.2.toNat) (BitVec.ofNat 2048 old)
      let s := { s with cwords := s.cwords.filter (fun p => !(r.start ≤ p.1 && p.1 < r.start + r.bytes)) }
      writeReg s w r.reg (wSplice whole (off - r.start) n v)

/-- One word access to control space; it has no atomics. -/
def controlAccess (s : State) (w : Writer) (fw : Option Nat) (a : MemOp) : State :=
  let off := a.addr - controlBase
  let n := 2 ^ a.lw.toNat
  if n < 4 then respond s .error
  else match a.kind with
    | .load => readWord s w fw off n
    | .store v => writeWord s w fw off n (v.toNat % 256 ^ n)
    | _ => respond s .error

/-- An access at a reserved address: an error, with zero for a read (R20). -/
def reservedAccess (s : State) (a : MemOp) : State := respond s (if a.kind = .load then .errorRead 0 else .error)

/-- Whether an address lies in a window beyond its present size (R22). -/
def absentWindow (s : State) (a : Nat) : Bool :=
  regionOf a = .window && decide ((windowOf a).2 ≥ 0x100000 * (getCl s (windowOf a).1).present)

/-- Whose slots an access of an application or firmware core takes: those of the lowest partition that has one on its way (R76). -/
def outsidePart (s : State) (a : Nat) : Nat := ((List.range 16).find? (fun p => lineReach s p none a)).getD 0

/-- Whether a firmware core runs: its pair has not stopped (R355). -/
def firmwareRuns (s : State) (fw : Nat) : Bool := decide (fw < 12) && s.h.fwRun && !(s.w.fwmode && s.w.fwStopped.contains (fw / 2))

/-- FIRMWARE_CORE_ACCESS: a coherent access of a firmware core, or one to control space (R24, R100, R101). -/
def execFirmwareCoreAccess (fw : Nat) (a : MemOp) (s : State) : Host.Outcome State Fault Refusal :=
  let reg := regionOf a.addr
  if firmwareRuns s fw = false then .next (respond s .error)
  else if reg = .reserved then .next (reservedAccess s a)
  else if a.addr % 2 ^ a.lw.toNat ≠ 0 ∨ absentWindow s a.addr = true then .next (respond s .error)
  else if reg = .control then .next (controlAccess s .firmware (some fw) a)
  else .next (setOut s (336 + fw) (outsidePart s a.addr) (.word a))

/-- HOST_DEVICE_ACCESS: an access of an application core to device memory, its own memory or control space (R38, R105, R118, R389).
The clock counts each access to device memory before it takes its time. -/
def execHostDeviceAccess (app : Nat) (secure : Bool) (a : MemOp) (s : State) : Host.Outcome State Fault Refusal :=
  let reg := regionOf a.addr
  if app ≥ 16 then .next (respond s .error)
  else if reg = .reserved then .next (reservedAccess s a)
  else if a.addr % 2 ^ a.lw.toNat ≠ 0 ∨ absentWindow s a.addr = true then .next (respond s .error)
  else if reg = .control then .next (controlAccess s (.app secure) none a)
  else if secure = false ∧ secureFrame s (a.addr / frameBytes) = true then .next (respond s .error)
  else
    let agent := 320 + app
    if reg = .host then
      let lc := agentClock s agent
      let (v, s) := agentAccess s agent a.addr a.lw.toNat a.kind 0
      .next (respond (setAgentClock s agent lc) (.value (BitVec.ofNat 2048 v)))
    else .next (setOut (setAgentClock s agent (agentClock s agent + 1)) agent (outsidePart s a.addr) (.word a))

end Sys2Proof.Machine
end

