-- ==== Sys2Proof/Machine/Cycle.lean ====
section
/-! DEFINITION. The cycle: what each of its phases owes, in order. A cycle has the outside world's actions, the decodes, the
engines and the end of the cycle; every step of a phase is one instruction or event, which does nothing where it is not due
(R46, R150 to R153, R189 to R191, R312, R330, R357, R433). -/

namespace Sys2Proof.Machine

/-- A step of no stream. -/
def ev (i : Instr) : Nat × Instr := (0, i)
/-- One step for each element of a list. -/
def evs {α : Type} (l : List α) (f : α → Instr) : List (Nat × Instr) := l.map (fun a => ev (f a))
/-- A step where a condition holds. -/
def evIf (b : Bool) (i : Instr) : List (Nat × Instr) := if b then [ev i] else []

/-- Cores and contexts that hold something. -/
def coreIds (s : State) : List Nat := s.cores.map (·.1)
def ctxIds (s : State) (f : Ctx → Bool) : List (Nat × Nat) :=
  s.cores.flatMap (fun k => (k.2.ctxs.filter (fun v => f v.2)).map (fun v => (k.1, v.1)))
def jobIds (s : State) (f : Job → Bool) : List Nat := (s.f.jobs.filter (fun j => f j.2)).map (·.1)
def queueIds (s : State) (f : Queue → Bool) : List Nat := (s.f.queues.filter (fun q => f q.2)).map (·.1)
def coresWith (s : State) (f : Core → Bool) : List Nat := (s.cores.filter (fun k => f k.2)).map (·.1)

/-! ## The start of a cycle -/

/-- A running context that is still held is at decode as it was (R385, R386). -/
def stillHeld (s : State) (c x stage : Nat) : State :=
  let slot := match (getCore s c).lastDec with
    | some (_, _, _, _, p, _) => p
    | none => 255
  stalled s c x slot (holdStall stage)

/-- The cycles of contexts that do not decode now (R386): blocked, held, or ready beside another; the odd core of a pair counts with its
partner. -/
def countWaits (s : State) : State :=
  (ctxIds s (fun v => v.status ≠ .free)).foldl (fun s p =>
    let v := getCtx s p.1 p.2
    if oddOfPair p.1 v then s
    else match v.status with
    | .blocked cause _ _ => countCycle s p.1 p.2 [18 + stallOf cause]
    | .ready => countCycle s p.1 p.2 [18 + 7]
    | .running => match v.heldUntil with
      | some u => if s.t.now < u then stillHeld s p.1 p.2 v.heldStage else s
      | none =>
        let j := (v.j.job.map (getJob s)).getD {}
        if broadcast s v ∧ v.heldGrps ≠ [] ∧ s.t.now < j.nextSend then stillHeld s p.1 p.2 j.castStage else s
    | _ => s) s

/-- What the cycle settles before its decodes: slots of timetables, posters, tails, the remap list, reserves, and the
selection of contexts. -/
def startPhase (s : State) : State :=
  let s := { s with x := { s.x with claims := s.x.claims.filter (fun c => s.t.now ≤ c.at_ + 1) } }
  let s := refillEvents s
  let s := (queueIds s (fun q => q.deferred ≠ [])).foldl nextTail s
  let s := updateRemap s
  let s := (queueIds s (fun q => q.live && (q.resW.length < 16 || q.resF.length < 64))).foldl drawReserve s
  let s := (coreIds s).foldl selectCtx s
  countWaits s

/-- The next task of each stream that may decode one; a word that is no task is a fault of the stream (R190, R194). -/
def streamTasks (s : State) : State × List (Nat × Instr) :=
  (queueIds s canDecode).foldl (fun (a : State × List (Nat × Instr)) n =>
    match nextTask (getQ a.1 n) with
    | some (_, some i) => (a.1, a.2 ++ [(n, i)])
    | some (w, none) => (faultDecode a.1 n none (w.extractLsb' 0 8).toNat 1 (illegalOperand (getQ a.1 n)), a.2)
    | none => a) (s, [])

/-- Phase 3: what stops contexts, then the decodes. -/
def decodePhase (s : State) : State × List (Nat × Instr) :=
  let s := startPhase s
  let (s, tasks) := streamTasks s
  let held (k : Core) : Bool := match k.running with
    | some x => (ctxOf k x).heldUntil.isSome
    | none => false
  let mayHold (k : Core) : Bool := match k.running with
    | some x => (ctxOf k x).heldUntil.isSome || (ctxOf k x).cast ≠ [] || decide (1 < (ctxOf k x).j.gsize)
    | none => false
  (s,
    evIf (s.c.rollReq = some s.t.now) .rolloverStart
    ++ evs (queueIds s (fun q => q.coaches ≠ [])) .coachIssue
    ++ evs (ctxIds s (fun v => v.watchPending.isSome)) (fun p => .watchTrap p.1 p.2)
    ++ evs (jobIds s (fun j => j.st = .halting)) .preemptionHalt
    ++ evs (coresWith s (fun k => k.running.isSome)) .issueLimitExpiry
    ++ evs (jobIds s (fun j => j.gang && j.st = .running)) .gangBundleSend
    ++ evs (coresWith s mayHold) .heldBundleIssue
    ++ evs ((coreIds s).filter (fun c => ((getCore s c).running.isSome && !held (getCore s c)) || (followDue s c).isSome)) .bundleDecode
    ++ tasks)

/-! ## The engines -/

/-- Rows that the copy engines may move in this cycle (R312). -/
def rowSteps (s : State) : List (Nat × Instr) :=
  s.x.reqs.flatMap (fun p =>
    let r := p.2
    let copy := r.kind = .copy || r.kind = .copyo || r.kind = .copyn
    if !copy then []
    else match reqDescs s r with
      | none => []
      | some (d, _) =>
        if writesMem r false then match waitingChunk r with
          | some c => evs (chunkRows s r d c) (fun q => .copyRowRead p.1 q.k)
          | none => []
        else
          let its := (r.chunks.map (·.iter)).eraseDups
          its.flatMap (fun it => evs ((iterRows s r d it).1.filter (fun q => rowReady s r d it q.k)) (fun q => .copyRowWrite p.1 (it * 65536 + q.k))))

/-- The requests whose next chunk is translated in this cycle: the head of each unit's queue, and accesses and prefetches, which wait
in no queue; those that a replay brought back come first, in park order (R92). -/
def translating (s : State) : List Nat :=
  let heads := s.x.lunits.filterMap (fun u => u.2.queue.head?)
  let alone := s.x.reqs.filterMap (fun p => if isAccess p.2.kind || p.2.kind = ReqKind.pref || p.2.st = ReqSt.accepting then some p.1 else none)
  let ids := (heads ++ alone).filter (fun id => let r := getReq s id; decide (r.issued < s.t.now) && (r.st = .running || r.st = .accepting) && r.acq.isNone)
  let back := ids.filter (fun id => (getReq s id).replaying)
  back.foldl byTurn [] ++ ids.filter (fun id => !(getReq s id).replaying)
where
  /-- in the order in which they were parked -/
  byTurn : List Nat → Nat → List Nat
    | [], x => [x]
    | y :: l, x => if (getReq s y).turn ≤ (getReq s x).turn then y :: byTurn l x else x :: y :: l

/-- Jobs that ask for a place, highest priority first, and of one priority those not yet placed before the swapped-out ones (R359;
DESIGN CHOICE, assumption 103: the order among several is the model's). -/
def asking (s : State) : List Nat :=
  let fresh := jobIds s (fun j => j.st = .waiting && !j.killed)
  let back := jobIds s (fun j => j.st = .swapped && !j.killed)
  (List.range 8).flatMap (fun i => (fresh ++ back).filter (fun id => (getJob s id).pri = 7 - i))

/-- Pre-emptions that were withdrawn for lack of frames and are asked for again, and debug halts still owed (R361, R364, R378). -/
def askAgain (s : State) : List (Nat × Instr) :=
  evs (jobIds s (fun j => j.st = .running && !j.killed && j.withdrawn = some .ownership && framesFor s j)) (fun id => .preemptionRequest id .ownership)
  ++ evs ((s.d.dhalt.filterMap (fun a => (getCtx s (agentCore a) (agentCtx a)).j.job)).eraseDups.filter (fun id =>
      let j := getJob s id
      j.st = .running && !j.killed && framesFor s j)) (fun id => .preemptionRequest id .debugHalt)

/-- Phase 2: the engines. -/
def enginePhase (s : State) : State × List (Nat × Instr) :=
  let reqs (f : Req → Bool) : List Nat := reqsOf s f
  let groups := s.cores.flatMap (fun k => k.2.sp.groups.map (fun g => (k.1, g.1, g.2)))
  (s,
    evs (reqs (fun r => r.acq.isSome)) .holdAcquisition
    ++ evs (translating s) .chunkTranslate
    ++ evs (reqs (fun r => match r.st with
        | .waitPark _ => true
        | _ => false)) .parkRetry
    ++ rowSteps s
    ++ evs (groups.filter (fun g => g.2.2.rebuild.isSome)) (fun g => .rebuildRowStep g.1 g.2.1)
    ++ evs (groups.filter (fun g => g.2.2.queue ≠ [])) (fun g => .parityDrain g.1 g.2.1)
    ++ evs (groups.filter (fun g => g.2.2.retWritten ≠ g.2.2.ret || g.2.2.pretWritten ≠ g.2.2.pret)) (fun g => .retirementEffect g.1 g.2.1)
    ++ evs (s.f.zeroing.take 8) (fun _ => .frameZeroing)
    ++ evs (queueIds s (fun q => q.coaches ≠ [])) .coachRetire
    ++ s.f.queues.flatMap (fun q => evs (q.2.coaches.filter (fun c => c.ops.any (fun o => o.fillFrom.isSome) && c.st ≠ .issued && c.st ≠ .completed))
        (fun c => .wagonFill q.1 c.num))
    ++ evs (jobIds s (fun j => match j.st with
        | .header _ => true
        | _ => false)) .jobPlacement
    ++ evs (asking s) .dispatch
    ++ askAgain s
    ++ s.cores.flatMap (fun k => evs (k.2.xb.xq.filter (fun o => o.start.isNone)) (fun o => .xbarOpStart k.1 o.id))
    ++ evs (coresWith s (fun k => k.xb.monper ≠ 0)) .autoMonitorRun
    ++ evIf (s.f.remap ≠ []) .mappingDecision
    ++ evs (s.f.queues.filterMap (fun q => if q.2.sliceEnd.any (fun u => u ≤ timebase s) then q.2.eng else none)) .sliceExpiry
    ++ evs (s.clusters.filterMap (fun c => match c.2.sweep with
        | some (.grow _ _ _) => some c.1
        | _ => none)) .windowGrowVisit
    ++ evs (s.clusters.filterMap (fun c => match c.2.sweep with
        | some (.shrink _ _ _) => some c.1
        | _ => none)) .windowShrinkVisit
    ++ evIf (s.x.swap.isNone && s.x.swHead ≠ s.x.swTail) .swapCommand
    ++ evIf (s.x.swap.any (fun j => !j.marked)) .swapMark
    ++ evIf (s.x.flip.any (fun f => f.phase = 1)) .biasFlipMark
    ++ evIf (s.x.flip.any (fun f => f.phase = 2)) .biasFlipInvert
    ++ evIf s.x.inv.isSome .invalidationReport
    ++ evIf s.h.kclr.isSome .keyRevokeComplete
    ++ evs (s.clusters.filterMap (fun c => if c.2.moveTo.isSome && !c.2.moveSwapped then some c.1 else none)) .clusterMoveSwapped
    ++ evs (s.clusters.filterMap (fun c => if c.2.moveSwapped then some c.1 else none)) .clusterMoveComplete
    ++ evs (queueIds s (fun q => q.coaches ≠ [] && q.wdStage < 1)) .watchdogStage1
    ++ evs (queueIds s (fun q => q.coaches ≠ [] && q.wdStage < 2)) .watchdogStage2
    ++ evs (queueIds s (fun q => q.coaches ≠ [] && q.wdStage < 3)) .watchdogStage3
    ++ evs s.w.waiting .eventTake
    ++ evIf (s.w.dump.isNone && s.w.dumpq ≠ []) .dumpStart
    ++ evIf (s.d.bvFifo ≠ []) .brakeVanWrite
    ++ (if s.t.now % 64 = 0 ∨ s.t.now % 64 = 32 then evs (List.range 256) .refreshSlot else []))

/-! ## The end of the cycle -/

/-- The steps scheduled for this cycle, in the order in which they were scheduled. -/
def dueAgenda (s : State) : State × List (Nat × Instr) :=
  let due := s.t.agenda.filter (fun a => a.1 ≤ s.t.now)
  ({ s with t := { s.t with agenda := s.t.agenda.filter (fun a => s.t.now < a.1) } }, due.reverse.map (fun a => ev a.2))

/-- Chunks of a request that have come back, from its own memory or from a peer; a link may report an error instead (R88). -/
def chunkSteps (s : State) : List (Nat × Instr) :=
  s.x.reqs.flatMap (fun p => p.2.chunks.filterMap (fun c =>
    if c.done || !c.tick.any (arrived s) then none
    else some (ev (if !c.peer then .chunkComplete p.1 c.ord
      else if c.late || Config.peerTimeout (s.t.free + c.ord) then .peerCompletionTimeout p.1 c.ord else .peerChunkCompletion p.1 c.ord))))

/-- Crossbar operations that end by now. -/
def xbarSteps (s : State) : List (Nat × Instr) :=
  s.cores.flatMap (fun k => k.2.xb.xq.filterMap (fun o => match o.start with
    | some k0 =>
      if o.kind = .xmvm then (if tickCycle (k0 + 136) ≤ s.t.now then some (ev (.xmvmLanding k.1 o.id)) else none)
      else if tickCycle (k0 + o.kind.dur) ≤ s.t.now then some (ev (.xbarOpComplete k.1 o.id)) else none
    | none => none))

/-- Ring lines that have come, from the first on. -/
def ringSteps (s : State) : List (Nat × Instr) :=
  s.f.queues.flatMap (fun q => evs (q.2.lines.takeWhile (fun l => arrived s l.2.2)) (fun _ => .ringLineReturn q.1))

/-- Whether the dump under way has come to its end, and how it fails. -/
def dumpSteps (s : State) : List (Nat × Instr) :=
  match s.w.dump with
  | some (a, _, l, k) =>
    if !arrived s k then []
    else match dumpFault s a l.length with
      | some c => [ev (.dumpAbort c.1)]
      | none => [ev .dumpComplete]
  | none => []

/-- The contexts that may meet a rollback event by the end of this cycle, a bundle boundary (R160, R370): those with one pending, and
all live ones while an error is on its way to some register or a line of memory is poisoned. -/
def mayRollBack (s : State) : List (Nat × Nat) :=
  let hot := s.c.poison ≠ [] ∨ ctxIds s (fun v => v.landings.any (fun l => l.ue.isSome)) ≠ []
  ctxIds s (fun v => v.g.rbPending.isSome || (hot && (match v.status with
    | .ready => true
    | .running => true
    | .blocked _ _ _ => true
    | _ => false)))

/-- Phase 1: what the end of the cycle brings. -/
def endPhase (s : State) : State × List (Nat × Instr) :=
  let (s, due) := dueAgenda (advanceWb (advanceTickets s))
  let job (f : JobSt → Bool) : List Nat := jobIds s (fun j => f j.st)
  let sper := cfield s 0x400020 15 0
  let rb := mayRollBack s
  (s,
    evs (coresWith s (fun k => k.mx.beats.any (fun b => b.due ≤ s.t.now))) .beatLanding
    ++ xbarSteps s
    ++ due
    ++ evs (coresWith s (fun k => match k.xb.bank with
        | .waking u _ => decide (u ≤ s.t.now)
        | _ => false)) .bankWakeComplete
    ++ chunkSteps s
    ++ evs (reqsOf s (accessBack s)) .coherentAccessComplete
    ++ evs (s.x.lunits.filterMap (fun u => if u.2.fetch.any (fun f => landsNow s f.2) then some u.1 else none)) .descriptorFetchReturn
    ++ evs (reqsOf s (fun r => r.st = .accepting)) .copyAcceptance
    ++ s.clusters.flatMap (fun c => evs (c.2.wb.filter (fun e => e.due.any (fun d => d ≤ s.t.now))) (fun e => .writebackAck c.1 e.line))
    ++ s.cores.flatMap (fun k => evs (k.2.bfetch.filter (fun f => arrived s f.2.2.2)) (fun f => .bundleChunkArrival k.1 f.1))
    ++ evs (s.f.fes.filterMap (fun f => match f.2 with
        | .zero _ _ k => if arrived s k then some f.1 else none)) .frameZeroed
    ++ ringSteps s
    ++ evs (queueIds s (fun q => q.stop.isSome)) .decodeReadReturn
    ++ evs (queueIds s (fun q => q.coaches.any (fun c => c.st = .issued && isTwait c))) .twaitLoadReturn
    ++ s.f.queues.flatMap (fun q => (q.2.flushAt.toList.filter (fun u => u ≤ s.t.now)).map (fun _ => ev (.peerFlushComplete q.1 0)))
    ++ s.f.queues.flatMap (fun q => evs (q.2.coaches.filter (fun c => c.st = .issued)) (fun c => .coachComplete q.1 c.num))
    ++ evs (queueIds s (fun q => q.stop.isSome)) .tfenceComplete
    ++ evs (job (fun t => match t with
        | .starting _ _ => true
        | _ => false)) .jobStart
    ++ evs rb (fun p => .rollback p.1 p.2)
    ++ evs ((ctxIds s (fun v => v.g.rollingBack)) ++ rb) (fun p => .rollbackRestore p.1 p.2)
    ++ evs (job (fun t => match t with
        | .halted => true
        | .swapping _ => true
        | _ => false)) .jobSwapOut
    ++ evs (job (fun t => match t with
        | .restoring _ => true
        | _ => false)) .jobRestore
    ++ s.f.queues.flatMap (fun q => evs (q.2.coaches.filter (fun c => c.fault.isSome && c.st ≠ .faulted)) (fun c => .streamFault q.1 c.num))
    ++ evs (queueIds s (fun q => q.coaches.head?.any (fun c => c.st = .faulted))) .faultDeltaRestore
    ++ evs (s.x.lunits.filterMap (fun u => if u.2.tiles.any (fun e => e.inflight = 0 && e.lastUse + 64 ≤ s.t.now) then some u.1 else none)) .holdIdleExpiry
    ++ evIf (s.x.swap.any (fun j => j.marked)) .swapCopyComplete
    ++ evs ((s.f.released.filter (fun w => smGet 0 s.f.readers w = 0)).eraseDups) .wagonFree
    ++ evs (s.f.queues.filterMap (fun q => if q.2.loadDue.isSome then q.2.eng else none)) .mappingComplete
    ++ evs (s.f.queues.filterMap (fun q => if q.2.unmapDue.isSome then q.2.eng else none)) .unmapSaveComplete
    ++ evs (ctxIds s (fun v => match v.status with
        | .blocked _ _ _ => true
        | _ => false)) (fun p => .contextReady p.1 p.2)
    ++ (if sper ≠ 0 ∧ s.t.now % sper = 0 then evs (coresWith s (fun k => k.lastDec.any (fun d => d.1 = s.t.now))) .sample else [])
    ++ evIf (s.c.advAt ≤ s.t.now) .clockAdvance
    ++ evIf (s.c.rollEnd = some s.t.now) .rolloverEnd
    ++ dumpSteps s
    ++ evIf (s.h.attest.isSome && s.h.attestDue ≤ s.t.now) .attestationComplete
    ++ evIf (s.h.boot = .selfTest) .selfTestComplete
    ++ evIf (s.h.boot = .verifying) .bootVerifyComplete)

/-- Running contexts that were at no decode in the cycle: their core issued for a protected pair, or they wait with their gang (R153, R386). -/
def countIdle (s : State) : State :=
  (coresWith s (fun k => k.running.isSome)).foldl (fun s c =>
    let k := getCore s c
    match k.running with
    | some x =>
      if (ctxOf k x).status = .running ∧ k.lastDec.any (fun d => d.1 = s.t.now && d.2.1 = x) = false then
        countCycle s c x [18 + (if s.t.now < k.nextIssue then 7 else stallOf 106)]
      else s
    | none => s) s

/-- Whether a pair is in a replay of its protected job (R160, R371). -/
def replaysOn (s : State) (c : Nat) : Bool :=
  (getCore s c).ctxs.any (fun p => p.2.j.prot && (p.2.g.rbPending.isSome || p.2.g.rollingBack || decide (0 < p.2.g.replays)))

/-- The pairs that have counted four mismatches: both positions are suspect, once their job has completed its replay (R371). -/
def markPairs (s : State) : State :=
  (s.w.lscnt.filter (fun p => 4 ≤ p.2)).foldl (fun s p =>
    if replaysOn s (2 * p.1) then s
    else [2 * p.1, 2 * p.1 + 1].foldl (fun s c => modCore s c (fun k => { k with suspect := true })) s) s

/-- What settles when the cycle is over: WAYPART, groups of ended jobs, replays, idle entries, accesses from outside the clusters, and the
clusters that change owner; the brake van takes the records of the tick that ends with the cycle. -/
def closeCycle (s : State) : State :=
  let s := markPairs (countIdle ((List.range 10).foldl takeWaypart s))
  let s := (coreIds s).foldl releaseGroups s
  let s := dropIdle (replayDone s)
  let s := stepOutsides s
  let s := { s with d := { s.d with dhalt := s.d.dhalt.filter (fun a => decide ((getCtx s (agentCore a) (agentCtx a)).status ≠ CtxStatus.free)) } }
  let s := s.clusters.foldl (fun s (c : Nat × Cluster) => if c.2.moveTo.isSome && !c.2.moveSwapped then clearOut s c.1 else s) s
  if timebase { s with t := { s.t with now := s.t.now + 1 } } = timebase s then s else bvSettle s

/-- The next cycle begins with what the outside world does in it. -/
def nextCycle (s : State) : State :=
  let s := closeCycle s
  let now := s.t.now + 1
  let due := s.t.inputs.filter (fun p => p.1 ≤ now)
  { s with t := { s.t with now, phase := 3, todo := due.map (fun p => ev p.2), inputs := s.t.inputs.filter (fun p => now < p.1) } }

/-- Whether an input ends a freeze (R387). -/
def unfreezes : Instr → Bool
  | .powerOn => true
  | .warmReset _ => true
  | _ => false

/-- While every clock stands still only a power-on or a warm reset is taken (R387). -/
def frozenInput (s : State) : State :=
  match s.t.inputs.find? (fun p => unfreezes p.2) with
  | some p => { s with t := { s.t with todo := [ev p.2], inputs := s.t.inputs.erase p } }
  | none => s

/-- The list of steps is empty: the next phase of the cycle, or the next cycle. -/
def refill (s : State) : State :=
  let take (n : Nat) (p : State × List (Nat × Instr)) : State := { p.1 with t := { p.1.t with phase := n, todo := p.2 } }
  match s.t.phase with
  | 3 => take 2 (decodePhase s)
  | 2 => take 1 (enginePhase s)
  | 1 => take 0 (endPhase s)
  | _ => if s.t.frozen then frozenInput s else nextCycle s

/-! ## Where a fetch finds its instruction -/

/-- The words of a bundle that holds one word in its slot. -/
def placeWord (s : State) (w : Nat) : State :=
  let tid := 0xD000
  let frame := 0x100000
  let ttb := 0x3F0000000
  let pos := posOfOp (w / 2 ^ 18 % 256)
  -- rank 1, INT8, extent 16,384, one tile, NS; its entry maps one frame, in device bias, under key 0 of partition 0, which is loaded
  let m := wrNat s.c.mem (dtBase s + 64 * tid) (1 + 1 * 2 + 2 ^ 30 + 16384 * 2 ^ 64 + 14 * 2 ^ 256 + ttb / 16 * 2 ^ 324 + 2 ^ 384) 64
  let m := wrNat m ttb (1 + frame * 2 ^ 22) 16
  let m := wrNat m (frame * frameBytes + 4 * pos) w 4
  let v := getCtx s 0 0
  let s := { s with c := { s.c with mem := m }, h := { s.h with kvalid := s.h.kvalid ||| 1 }, t := { s.t with fcore := 0, todo := [ev (.bundleDecode 0)] } }
  modCore s 0 (fun k =>
    let k := putCtx k 0 { v with status := .running, heldUntil := none, r := { v.r with pc := 0 }, j := { v.j with code := BitVec.ofNat 16 tid } }
    { k with running := some 0, nextIssue := s.t.now, bcache := (tid, 0) :: k.bcache })

/-- A task in the buffer of a stream that decodes it next. -/
def placeTask (s : State) (nbits w : Nat) : State :=
  let q : Queue := { getQ s 0 with
    en := true, st := .mapped, eng := some 0, loadDue := none, unmapDue := none, stop := none, taddr := 0, tailb := 1024, filled := 1024
    buf := (List.range (nbits / 8)).foldl (fun m i => cmPut 0 m i (BitVec.ofNat 8 (w / 256 ^ i))) [] }
  let s := setQ s 0 q
  { s with t := { s.t with fqueue := 0, todo := match nextTask q with
    | some (_, some i) => [(0, i)]
    | _ => [] } }

end Sys2Proof.Machine
end

