-- ==== Sys2Proof/Machine/Dispatch.lean ====
section
/-! DEFINITION. One arm for each constructor of Instr, each a direct call of that instruction's meaning. -/

namespace Sys2Proof.Machine

/-- The meaning of an instruction. -/
def exec (i : Instr) (s : State) : Host.Outcome State Fault Refusal :=
  match i with
  | .nop => Sys2Proof.Machine.execNop s
  | .add x0 x1 x2 x3 => Sys2Proof.Machine.execAdd x0 x1 x2 x3 s
  | .sub x0 x1 x2 x3 => Sys2Proof.Machine.execSub x0 x1 x2 x3 s
  | .and x0 x1 x2 x3 => Sys2Proof.Machine.execAnd x0 x1 x2 x3 s
  | .or x0 x1 x2 x3 => Sys2Proof.Machine.execOr x0 x1 x2 x3 s
  | .xor x0 x1 x2 x3 => Sys2Proof.Machine.execXor x0 x1 x2 x3 s
  | .andn x0 x1 x2 x3 => Sys2Proof.Machine.execAndn x0 x1 x2 x3 s
  | .shl x0 x1 x2 x3 => Sys2Proof.Machine.execShl x0 x1 x2 x3 s
  | .shr x0 x1 x2 x3 => Sys2Proof.Machine.execShr x0 x1 x2 x3 s
  | .sar x0 x1 x2 x3 => Sys2Proof.Machine.execSar x0 x1 x2 x3 s
  | .mul x0 x1 x2 x3 => Sys2Proof.Machine.execMul x0 x1 x2 x3 s
  | .mulh x0 x1 x2 x3 => Sys2Proof.Machine.execMulh x0 x1 x2 x3 s
  | .mulhn x0 x1 x2 x3 => Sys2Proof.Machine.execMulhn x0 x1 x2 x3 s
  | .div x0 x1 x2 x3 => Sys2Proof.Machine.execDiv x0 x1 x2 x3 s
  | .divn x0 x1 x2 x3 => Sys2Proof.Machine.execDivn x0 x1 x2 x3 s
  | .rem x0 x1 x2 x3 => Sys2Proof.Machine.execRem x0 x1 x2 x3 s
  | .remn x0 x1 x2 x3 => Sys2Proof.Machine.execRemn x0 x1 x2 x3 s
  | .min x0 x1 x2 x3 => Sys2Proof.Machine.execMin x0 x1 x2 x3 s
  | .max x0 x1 x2 x3 => Sys2Proof.Machine.execMax x0 x1 x2 x3 s
  | .minn x0 x1 x2 x3 => Sys2Proof.Machine.execMinn x0 x1 x2 x3 s
  | .maxn x0 x1 x2 x3 => Sys2Proof.Machine.execMaxn x0 x1 x2 x3 s
  | .addImm x0 x1 x2 x3 => Sys2Proof.Machine.execAddImm x0 x1 x2 x3 s
  | .andImm x0 x1 x2 x3 => Sys2Proof.Machine.execAndImm x0 x1 x2 x3 s
  | .orImm x0 x1 x2 x3 => Sys2Proof.Machine.execOrImm x0 x1 x2 x3 s
  | .xorImm x0 x1 x2 x3 => Sys2Proof.Machine.execXorImm x0 x1 x2 x3 s
  | .shlImm x0 x1 x2 x3 => Sys2Proof.Machine.execShlImm x0 x1 x2 x3 s
  | .shrImm x0 x1 x2 x3 => Sys2Proof.Machine.execShrImm x0 x1 x2 x3 s
  | .sarImm x0 x1 x2 x3 => Sys2Proof.Machine.execSarImm x0 x1 x2 x3 s
  | .setw0 x0 x1 x2 => Sys2Proof.Machine.execSetw0 x0 x1 x2 s
  | .setw1 x0 x1 x2 => Sys2Proof.Machine.execSetw1 x0 x1 x2 s
  | .setw2 x0 x1 x2 => Sys2Proof.Machine.execSetw2 x0 x1 x2 s
  | .setw3 x0 x1 x2 => Sys2Proof.Machine.execSetw3 x0 x1 x2 s
  | .setw4 x0 x1 x2 => Sys2Proof.Machine.execSetw4 x0 x1 x2 s
  | .setw5 x0 x1 x2 => Sys2Proof.Machine.execSetw5 x0 x1 x2 s
  | .sext x0 x1 x2 x3 => Sys2Proof.Machine.execSext x0 x1 x2 x3 s
  | .clz x0 x1 x2 => Sys2Proof.Machine.execClz x0 x1 x2 s
  | .popc x0 x1 x2 => Sys2Proof.Machine.execPopc x0 x1 x2 s
  | .cmpEq x0 x1 x2 x3 x4 => Sys2Proof.Machine.execCmpEq x0 x1 x2 x3 x4 s
  | .cmpNe x0 x1 x2 x3 x4 => Sys2Proof.Machine.execCmpNe x0 x1 x2 x3 x4 s
  | .cmpLt x0 x1 x2 x3 x4 => Sys2Proof.Machine.execCmpLt x0 x1 x2 x3 x4 s
  | .cmpLe x0 x1 x2 x3 x4 => Sys2Proof.Machine.execCmpLe x0 x1 x2 x3 x4 s
  | .cmpLtn x0 x1 x2 x3 x4 => Sys2Proof.Machine.execCmpLtn x0 x1 x2 x3 x4 s
  | .cmpLen x0 x1 x2 x3 x4 => Sys2Proof.Machine.execCmpLen x0 x1 x2 x3 x4 s
  | .cmpEqImm x0 x1 x2 x3 x4 => Sys2Proof.Machine.execCmpEqImm x0 x1 x2 x3 x4 s
  | .cmpNeImm x0 x1 x2 x3 x4 => Sys2Proof.Machine.execCmpNeImm x0 x1 x2 x3 x4 s
  | .cmpLtImm x0 x1 x2 x3 x4 => Sys2Proof.Machine.execCmpLtImm x0 x1 x2 x3 x4 s
  | .cmpLeImm x0 x1 x2 x3 x4 => Sys2Proof.Machine.execCmpLeImm x0 x1 x2 x3 x4 s
  | .cmpLtnImm x0 x1 x2 x3 x4 => Sys2Proof.Machine.execCmpLtnImm x0 x1 x2 x3 x4 s
  | .cmpLenImm x0 x1 x2 x3 x4 => Sys2Proof.Machine.execCmpLenImm x0 x1 x2 x3 x4 s
  | .faddF32 x0 x1 x2 x3 => Sys2Proof.Machine.execFaddF32 x0 x1 x2 x3 s
  | .faddF16 x0 x1 x2 x3 => Sys2Proof.Machine.execFaddF16 x0 x1 x2 x3 s
  | .faddB16 x0 x1 x2 x3 => Sys2Proof.Machine.execFaddB16 x0 x1 x2 x3 s
  | .fsubF32 x0 x1 x2 x3 => Sys2Proof.Machine.execFsubF32 x0 x1 x2 x3 s
  | .fsubF16 x0 x1 x2 x3 => Sys2Proof.Machine.execFsubF16 x0 x1 x2 x3 s
  | .fsubB16 x0 x1 x2 x3 => Sys2Proof.Machine.execFsubB16 x0 x1 x2 x3 s
  | .fmulF32 x0 x1 x2 x3 => Sys2Proof.Machine.execFmulF32 x0 x1 x2 x3 s
  | .fmulF16 x0 x1 x2 x3 => Sys2Proof.Machine.execFmulF16 x0 x1 x2 x3 s
  | .fmulB16 x0 x1 x2 x3 => Sys2Proof.Machine.execFmulB16 x0 x1 x2 x3 s
  | .ffmaF32 x0 x1 x2 x3 => Sys2Proof.Machine.execFfmaF32 x0 x1 x2 x3 s
  | .ffmaF16 x0 x1 x2 x3 => Sys2Proof.Machine.execFfmaF16 x0 x1 x2 x3 s
  | .ffmaB16 x0 x1 x2 x3 => Sys2Proof.Machine.execFfmaB16 x0 x1 x2 x3 s
  | .fminF32 x0 x1 x2 x3 => Sys2Proof.Machine.execFminF32 x0 x1 x2 x3 s
  | .fminF16 x0 x1 x2 x3 => Sys2Proof.Machine.execFminF16 x0 x1 x2 x3 s
  | .fminB16 x0 x1 x2 x3 => Sys2Proof.Machine.execFminB16 x0 x1 x2 x3 s
  | .fmaxF32 x0 x1 x2 x3 => Sys2Proof.Machine.execFmaxF32 x0 x1 x2 x3 s
  | .fmaxF16 x0 x1 x2 x3 => Sys2Proof.Machine.execFmaxF16 x0 x1 x2 x3 s
  | .fmaxB16 x0 x1 x2 x3 => Sys2Proof.Machine.execFmaxB16 x0 x1 x2 x3 s
  | .fcmpEqF32 x0 x1 x2 x3 x4 => Sys2Proof.Machine.execFcmpEqF32 x0 x1 x2 x3 x4 s
  | .fcmpEqF16 x0 x1 x2 x3 x4 => Sys2Proof.Machine.execFcmpEqF16 x0 x1 x2 x3 x4 s
  | .fcmpEqB16 x0 x1 x2 x3 x4 => Sys2Proof.Machine.execFcmpEqB16 x0 x1 x2 x3 x4 s
  | .fcmpLtF32 x0 x1 x2 x3 x4 => Sys2Proof.Machine.execFcmpLtF32 x0 x1 x2 x3 x4 s
  | .fcmpLtF16 x0 x1 x2 x3 x4 => Sys2Proof.Machine.execFcmpLtF16 x0 x1 x2 x3 x4 s
  | .fcmpLtB16 x0 x1 x2 x3 x4 => Sys2Proof.Machine.execFcmpLtB16 x0 x1 x2 x3 x4 s
  | .fcmpLeF32 x0 x1 x2 x3 x4 => Sys2Proof.Machine.execFcmpLeF32 x0 x1 x2 x3 x4 s
  | .fcmpLeF16 x0 x1 x2 x3 x4 => Sys2Proof.Machine.execFcmpLeF16 x0 x1 x2 x3 x4 s
  | .fcmpLeB16 x0 x1 x2 x3 x4 => Sys2Proof.Machine.execFcmpLeB16 x0 x1 x2 x3 x4 s
  | .fcvt x0 x1 x2 x3 x4 x5 => Sys2Proof.Machine.execFcvt x0 x1 x2 x3 x4 x5 s
  | .itof x0 x1 x2 x3 x4 x5 => Sys2Proof.Machine.execItof x0 x1 x2 x3 x4 x5 s
  | .ftoi x0 x1 x2 x3 x4 x5 => Sys2Proof.Machine.execFtoi x0 x1 x2 x3 x4 x5 s
  | .ftoiN x0 x1 x2 x3 x4 x5 => Sys2Proof.Machine.execFtoiN x0 x1 x2 x3 x4 x5 s
  | .pand x0 x1 x2 x3 => Sys2Proof.Machine.execPand x0 x1 x2 x3 s
  | .por x0 x1 x2 x3 => Sys2Proof.Machine.execPor x0 x1 x2 x3 s
  | .pxor x0 x1 x2 x3 => Sys2Proof.Machine.execPxor x0 x1 x2 x3 s
  | .pandn x0 x1 x2 x3 => Sys2Proof.Machine.execPandn x0 x1 x2 x3 s
  | .pmov x0 x1 x2 => Sys2Proof.Machine.execPmov x0 x1 x2 s
  | .sel x0 x1 x2 x3 => Sys2Proof.Machine.execSel x0 x1 x2 x3 s
  | .mova x0 x1 x2 x3 => Sys2Proof.Machine.execMova x0 x1 x2 x3 s
  | .mfs x0 x1 x2 => Sys2Proof.Machine.execMfs x0 x1 x2 s
  | .mts x0 x1 x2 => Sys2Proof.Machine.execMts x0 x1 x2 s
  | .vaddI8 x0 x1 x2 x3 x4 => Sys2Proof.Machine.execVaddI8 x0 x1 x2 x3 x4 s
  | .vaddI16 x0 x1 x2 x3 x4 => Sys2Proof.Machine.execVaddI16 x0 x1 x2 x3 x4 s
  | .vaddI32 x0 x1 x2 x3 x4 => Sys2Proof.Machine.execVaddI32 x0 x1 x2 x3 x4 s
  | .vaddF16 x0 x1 x2 x3 x4 => Sys2Proof.Machine.execVaddF16 x0 x1 x2 x3 x4 s
  | .vaddB16 x0 x1 x2 x3 x4 => Sys2Proof.Machine.execVaddB16 x0 x1 x2 x3 x4 s
  | .vaddF32 x0 x1 x2 x3 x4 => Sys2Proof.Machine.execVaddF32 x0 x1 x2 x3 x4 s
  | .vsubI8 x0 x1 x2 x3 x4 => Sys2Proof.Machine.execVsubI8 x0 x1 x2 x3 x4 s
  | .vsubI16 x0 x1 x2 x3 x4 => Sys2Proof.Machine.execVsubI16 x0 x1 x2 x3 x4 s
  | .vsubI32 x0 x1 x2 x3 x4 => Sys2Proof.Machine.execVsubI32 x0 x1 x2 x3 x4 s
  | .vsubF16 x0 x1 x2 x3 x4 => Sys2Proof.Machine.execVsubF16 x0 x1 x2 x3 x4 s
  | .vsubB16 x0 x1 x2 x3 x4 => Sys2Proof.Machine.execVsubB16 x0 x1 x2 x3 x4 s
  | .vsubF32 x0 x1 x2 x3 x4 => Sys2Proof.Machine.execVsubF32 x0 x1 x2 x3 x4 s
  | .vmulI8 x0 x1 x2 x3 x4 => Sys2Proof.Machine.execVmulI8 x0 x1 x2 x3 x4 s
  | .vmulI16 x0 x1 x2 x3 x4 => Sys2Proof.Machine.execVmulI16 x0 x1 x2 x3 x4 s
  | .vmulI32 x0 x1 x2 x3 x4 => Sys2Proof.Machine.execVmulI32 x0 x1 x2 x3 x4 s
  | .vmulF16 x0 x1 x2 x3 x4 => Sys2Proof.Machine.execVmulF16 x0 x1 x2 x3 x4 s
  | .vmulB16 x0 x1 x2 x3 x4 => Sys2Proof.Machine.execVmulB16 x0 x1 x2 x3 x4 s
  | .vmulF32 x0 x1 x2 x3 x4 => Sys2Proof.Machine.execVmulF32 x0 x1 x2 x3 x4 s
  | .vfmaI8 x0 x1 x2 x3 x4 => Sys2Proof.Machine.execVfmaI8 x0 x1 x2 x3 x4 s
  | .vfmaI16 x0 x1 x2 x3 x4 => Sys2Proof.Machine.execVfmaI16 x0 x1 x2 x3 x4 s
  | .vfmaI32 x0 x1 x2 x3 x4 => Sys2Proof.Machine.execVfmaI32 x0 x1 x2 x3 x4 s
  | .vfmaF16 x0 x1 x2 x3 x4 => Sys2Proof.Machine.execVfmaF16 x0 x1 x2 x3 x4 s
  | .vfmaB16 x0 x1 x2 x3 x4 => Sys2Proof.Machine.execVfmaB16 x0 x1 x2 x3 x4 s
  | .vfmaF32 x0 x1 x2 x3 x4 => Sys2Proof.Machine.execVfmaF32 x0 x1 x2 x3 x4 s
  | .vminI8 x0 x1 x2 x3 x4 => Sys2Proof.Machine.execVminI8 x0 x1 x2 x3 x4 s
  | .vminI16 x0 x1 x2 x3 x4 => Sys2Proof.Machine.execVminI16 x0 x1 x2 x3 x4 s
  | .vminI32 x0 x1 x2 x3 x4 => Sys2Proof.Machine.execVminI32 x0 x1 x2 x3 x4 s
  | .vminN8 x0 x1 x2 x3 x4 => Sys2Proof.Machine.execVminN8 x0 x1 x2 x3 x4 s
  | .vminN16 x0 x1 x2 x3 x4 => Sys2Proof.Machine.execVminN16 x0 x1 x2 x3 x4 s
  | .vminN32 x0 x1 x2 x3 x4 => Sys2Proof.Machine.execVminN32 x0 x1 x2 x3 x4 s
  | .vminF16 x0 x1 x2 x3 x4 => Sys2Proof.Machine.execVminF16 x0 x1 x2 x3 x4 s
  | .vminB16 x0 x1 x2 x3 x4 => Sys2Proof.Machine.execVminB16 x0 x1 x2 x3 x4 s
  | .vminF32 x0 x1 x2 x3 x4 => Sys2Proof.Machine.execVminF32 x0 x1 x2 x3 x4 s
  | .vmaxI8 x0 x1 x2 x3 x4 => Sys2Proof.Machine.execVmaxI8 x0 x1 x2 x3 x4 s
  | .vmaxI16 x0 x1 x2 x3 x4 => Sys2Proof.Machine.execVmaxI16 x0 x1 x2 x3 x4 s
  | .vmaxI32 x0 x1 x2 x3 x4 => Sys2Proof.Machine.execVmaxI32 x0 x1 x2 x3 x4 s
  | .vmaxN8 x0 x1 x2 x3 x4 => Sys2Proof.Machine.execVmaxN8 x0 x1 x2 x3 x4 s
  | .vmaxN16 x0 x1 x2 x3 x4 => Sys2Proof.Machine.execVmaxN16 x0 x1 x2 x3 x4 s
  | .vmaxN32 x0 x1 x2 x3 x4 => Sys2Proof.Machine.execVmaxN32 x0 x1 x2 x3 x4 s
  | .vmaxF16 x0 x1 x2 x3 x4 => Sys2Proof.Machine.execVmaxF16 x0 x1 x2 x3 x4 s
  | .vmaxB16 x0 x1 x2 x3 x4 => Sys2Proof.Machine.execVmaxB16 x0 x1 x2 x3 x4 s
  | .vmaxF32 x0 x1 x2 x3 x4 => Sys2Proof.Machine.execVmaxF32 x0 x1 x2 x3 x4 s
  | .vsaddI8 x0 x1 x2 x3 x4 => Sys2Proof.Machine.execVsaddI8 x0 x1 x2 x3 x4 s
  | .vsaddI16 x0 x1 x2 x3 x4 => Sys2Proof.Machine.execVsaddI16 x0 x1 x2 x3 x4 s
  | .vsaddI32 x0 x1 x2 x3 x4 => Sys2Proof.Machine.execVsaddI32 x0 x1 x2 x3 x4 s
  | .vsaddN8 x0 x1 x2 x3 x4 => Sys2Proof.Machine.execVsaddN8 x0 x1 x2 x3 x4 s
  | .vsaddN16 x0 x1 x2 x3 x4 => Sys2Proof.Machine.execVsaddN16 x0 x1 x2 x3 x4 s
  | .vsaddN32 x0 x1 x2 x3 x4 => Sys2Proof.Machine.execVsaddN32 x0 x1 x2 x3 x4 s
  | .vssubI8 x0 x1 x2 x3 x4 => Sys2Proof.Machine.execVssubI8 x0 x1 x2 x3 x4 s
  | .vssubI16 x0 x1 x2 x3 x4 => Sys2Proof.Machine.execVssubI16 x0 x1 x2 x3 x4 s
  | .vssubI32 x0 x1 x2 x3 x4 => Sys2Proof.Machine.execVssubI32 x0 x1 x2 x3 x4 s
  | .vssubN8 x0 x1 x2 x3 x4 => Sys2Proof.Machine.execVssubN8 x0 x1 x2 x3 x4 s
  | .vssubN16 x0 x1 x2 x3 x4 => Sys2Proof.Machine.execVssubN16 x0 x1 x2 x3 x4 s
  | .vssubN32 x0 x1 x2 x3 x4 => Sys2Proof.Machine.execVssubN32 x0 x1 x2 x3 x4 s
  | .vcmpI8 x0 x1 x2 x3 x4 x5 => Sys2Proof.Machine.execVcmpI8 x0 x1 x2 x3 x4 x5 s
  | .vcmpI16 x0 x1 x2 x3 x4 x5 => Sys2Proof.Machine.execVcmpI16 x0 x1 x2 x3 x4 x5 s
  | .vcmpI32 x0 x1 x2 x3 x4 x5 => Sys2Proof.Machine.execVcmpI32 x0 x1 x2 x3 x4 x5 s
  | .vcmpN8 x0 x1 x2 x3 x4 x5 => Sys2Proof.Machine.execVcmpN8 x0 x1 x2 x3 x4 x5 s
  | .vcmpN16 x0 x1 x2 x3 x4 x5 => Sys2Proof.Machine.execVcmpN16 x0 x1 x2 x3 x4 x5 s
  | .vcmpN32 x0 x1 x2 x3 x4 x5 => Sys2Proof.Machine.execVcmpN32 x0 x1 x2 x3 x4 x5 s
  | .vcmpF16 x0 x1 x2 x3 x4 x5 => Sys2Proof.Machine.execVcmpF16 x0 x1 x2 x3 x4 x5 s
  | .vcmpB16 x0 x1 x2 x3 x4 x5 => Sys2Proof.Machine.execVcmpB16 x0 x1 x2 x3 x4 x5 s
  | .vcmpF32 x0 x1 x2 x3 x4 x5 => Sys2Proof.Machine.execVcmpF32 x0 x1 x2 x3 x4 x5 s
  | .vshl8 x0 x1 x2 x3 x4 => Sys2Proof.Machine.execVshl8 x0 x1 x2 x3 x4 s
  | .vshl16 x0 x1 x2 x3 x4 => Sys2Proof.Machine.execVshl16 x0 x1 x2 x3 x4 s
  | .vshl32 x0 x1 x2 x3 x4 => Sys2Proof.Machine.execVshl32 x0 x1 x2 x3 x4 s
  | .vshr8 x0 x1 x2 x3 x4 => Sys2Proof.Machine.execVshr8 x0 x1 x2 x3 x4 s
  | .vshr16 x0 x1 x2 x3 x4 => Sys2Proof.Machine.execVshr16 x0 x1 x2 x3 x4 s
  | .vshr32 x0 x1 x2 x3 x4 => Sys2Proof.Machine.execVshr32 x0 x1 x2 x3 x4 s
  | .vsar8 x0 x1 x2 x3 x4 => Sys2Proof.Machine.execVsar8 x0 x1 x2 x3 x4 s
  | .vsar16 x0 x1 x2 x3 x4 => Sys2Proof.Machine.execVsar16 x0 x1 x2 x3 x4 s
  | .vsar32 x0 x1 x2 x3 x4 => Sys2Proof.Machine.execVsar32 x0 x1 x2 x3 x4 s
  | .vreds x0 x1 x2 x3 x4 => Sys2Proof.Machine.execVreds x0 x1 x2 x3 x4 s
  | .vredm x0 x1 x2 x3 x4 => Sys2Proof.Machine.execVredm x0 x1 x2 x3 x4 s
  | .vredn x0 x1 x2 x3 x4 => Sys2Proof.Machine.execVredn x0 x1 x2 x3 x4 s
  | .vabs x0 x1 x2 x3 x4 => Sys2Proof.Machine.execVabs x0 x1 x2 x3 x4 s
  | .vneg x0 x1 x2 x3 x4 => Sys2Proof.Machine.execVneg x0 x1 x2 x3 x4 s
  | .vsplat x0 x1 x2 x3 x4 => Sys2Proof.Machine.execVsplat x0 x1 x2 x3 x4 s
  | .vset8 x0 x1 x2 x3 => Sys2Proof.Machine.execVset8 x0 x1 x2 x3 s
  | .vset16 x0 x1 x2 x3 => Sys2Proof.Machine.execVset16 x0 x1 x2 x3 s
  | .vset32 x0 x1 x2 x3 => Sys2Proof.Machine.execVset32 x0 x1 x2 x3 s
  | .vand x0 x1 x2 x3 x4 => Sys2Proof.Machine.execVand x0 x1 x2 x3 x4 s
  | .vor x0 x1 x2 x3 x4 => Sys2Proof.Machine.execVor x0 x1 x2 x3 x4 s
  | .vxor x0 x1 x2 x3 x4 => Sys2Proof.Machine.execVxor x0 x1 x2 x3 x4 s
  | .vsel x0 x1 x2 x3 x4 => Sys2Proof.Machine.execVsel x0 x1 x2 x3 x4 s
  | .vperm x0 x1 x2 x3 x4 => Sys2Proof.Machine.execVperm x0 x1 x2 x3 x4 s
  | .vrot x0 x1 x2 x3 x4 => Sys2Proof.Machine.execVrot x0 x1 x2 x3 x4 s
  | .xfer x0 x1 x2 x3 => Sys2Proof.Machine.execXfer x0 x1 x2 x3 s
  | .vtest x0 x1 x2 x3 x4 => Sys2Proof.Machine.execVtest x0 x1 x2 x3 x4 s
  | .vframe x0 x1 x2 => Sys2Proof.Machine.execVframe x0 x1 x2 s
  | .kopAnd x0 x1 x2 x3 x4 => Sys2Proof.Machine.execKopAnd x0 x1 x2 x3 x4 s
  | .kopOr x0 x1 x2 x3 x4 => Sys2Proof.Machine.execKopOr x0 x1 x2 x3 x4 s
  | .kopXor x0 x1 x2 x3 x4 => Sys2Proof.Machine.execKopXor x0 x1 x2 x3 x4 s
  | .kopAndn x0 x1 x2 x3 x4 => Sys2Proof.Machine.execKopAndn x0 x1 x2 x3 x4 s
  | .kopNot x0 x1 x2 x3 => Sys2Proof.Machine.execKopNot x0 x1 x2 x3 s
  | .kopMov x0 x1 x2 x3 => Sys2Proof.Machine.execKopMov x0 x1 x2 x3 s
  | .vexp2 x0 x1 x2 x3 => Sys2Proof.Machine.execVexp2 x0 x1 x2 x3 s
  | .vlog2 x0 x1 x2 x3 => Sys2Proof.Machine.execVlog2 x0 x1 x2 x3 s
  | .vrcp x0 x1 x2 x3 => Sys2Proof.Machine.execVrcp x0 x1 x2 x3 s
  | .vrsq x0 x1 x2 x3 => Sys2Proof.Machine.execVrsq x0 x1 x2 x3 s
  | .vsclF16 x0 x1 x2 x3 x4 => Sys2Proof.Machine.execVsclF16 x0 x1 x2 x3 x4 s
  | .vsclB16 x0 x1 x2 x3 x4 => Sys2Proof.Machine.execVsclB16 x0 x1 x2 x3 x4 s
  | .vsclF32 x0 x1 x2 x3 x4 => Sys2Proof.Machine.execVsclF32 x0 x1 x2 x3 x4 s
  | .vcvtRn x0 x1 x2 x3 x4 x5 => Sys2Proof.Machine.execVcvtRn x0 x1 x2 x3 x4 x5 s
  | .vcvtRz x0 x1 x2 x3 x4 x5 => Sys2Proof.Machine.execVcvtRz x0 x1 x2 x3 x4 x5 s
  | .vcvtRu x0 x1 x2 x3 x4 x5 => Sys2Proof.Machine.execVcvtRu x0 x1 x2 x3 x4 x5 s
  | .vcvtRd x0 x1 x2 x3 x4 x5 => Sys2Proof.Machine.execVcvtRd x0 x1 x2 x3 x4 x5 s
  | .vqmxRn x0 x1 x2 x3 x4 => Sys2Proof.Machine.execVqmxRn x0 x1 x2 x3 x4 s
  | .vqmxRz x0 x1 x2 x3 x4 => Sys2Proof.Machine.execVqmxRz x0 x1 x2 x3 x4 s
  | .vqmxRu x0 x1 x2 x3 x4 => Sys2Proof.Machine.execVqmxRu x0 x1 x2 x3 x4 s
  | .vqmxRd x0 x1 x2 x3 x4 => Sys2Proof.Machine.execVqmxRd x0 x1 x2 x3 x4 s
  | .vdq x0 x1 x2 x3 x4 => Sys2Proof.Machine.execVdq x0 x1 x2 x3 x4 s
  | .ldvX x0 x1 x2 x3 x4 x5 => Sys2Proof.Machine.execLdvX x0 x1 x2 x3 x4 x5 s
  | .ldvY x0 x1 x2 x3 x4 x5 => Sys2Proof.Machine.execLdvY x0 x1 x2 x3 x4 x5 s
  | .stvX x0 x1 x2 x3 x4 x5 => Sys2Proof.Machine.execStvX x0 x1 x2 x3 x4 x5 s
  | .stvY x0 x1 x2 x3 x4 x5 => Sys2Proof.Machine.execStvY x0 x1 x2 x3 x4 x5 s
  | .lds x0 x1 x2 x3 x4 x5 => Sys2Proof.Machine.execLds x0 x1 x2 x3 x4 x5 s
  | .sts x0 x1 x2 x3 x4 x5 => Sys2Proof.Machine.execSts x0 x1 x2 x3 x4 x5 s
  | .copy x0 x1 x2 x3 x4 x5 => Sys2Proof.Machine.execCopy x0 x1 x2 x3 x4 x5 s
  | .copyo x0 x1 x2 x3 x4 x5 => Sys2Proof.Machine.execCopyo x0 x1 x2 x3 x4 x5 s
  | .copyn x0 x1 x2 x3 x4 x5 => Sys2Proof.Machine.execCopyn x0 x1 x2 x3 x4 x5 s
  | .wfill x0 x1 x2 x3 x4 x5 => Sys2Proof.Machine.execWfill x0 x1 x2 x3 x4 x5 s
  | .trel x0 x1 x2 => Sys2Proof.Machine.execTrel x0 x1 x2 s
  | .tstat x0 x1 x2 x3 => Sys2Proof.Machine.execTstat x0 x1 x2 x3 s
  | .gld x0 x1 x2 x3 x4 x5 => Sys2Proof.Machine.execGld x0 x1 x2 x3 x4 x5 s
  | .gst x0 x1 x2 x3 x4 x5 => Sys2Proof.Machine.execGst x0 x1 x2 x3 x4 x5 s
  | .aadd x0 x1 x2 x3 x4 x5 x6 => Sys2Proof.Machine.execAadd x0 x1 x2 x3 x4 x5 x6 s
  | .aswap x0 x1 x2 x3 x4 x5 x6 => Sys2Proof.Machine.execAswap x0 x1 x2 x3 x4 x5 x6 s
  | .acas x0 x1 x2 x3 x4 x5 x6 => Sys2Proof.Machine.execAcas x0 x1 x2 x3 x4 x5 x6 s
  | .amin x0 x1 x2 x3 x4 x5 x6 => Sys2Proof.Machine.execAmin x0 x1 x2 x3 x4 x5 x6 s
  | .amax x0 x1 x2 x3 x4 x5 x6 => Sys2Proof.Machine.execAmax x0 x1 x2 x3 x4 x5 x6 s
  | .aand x0 x1 x2 x3 x4 x5 x6 => Sys2Proof.Machine.execAand x0 x1 x2 x3 x4 x5 x6 s
  | .aor x0 x1 x2 x3 x4 x5 x6 => Sys2Proof.Machine.execAor x0 x1 x2 x3 x4 x5 x6 s
  | .aset x0 x1 x2 x3 => Sys2Proof.Machine.execAset x0 x1 x2 x3 s
  | .aaddi x0 x1 x2 x3 => Sys2Proof.Machine.execAaddi x0 x1 x2 x3 s
  | .astr x0 x1 x2 x3 => Sys2Proof.Machine.execAstr x0 x1 x2 x3 s
  | .cfence x0 x1 x2 => Sys2Proof.Machine.execCfence x0 x1 x2 s
  | .pref x0 x1 x2 x3 => Sys2Proof.Machine.execPref x0 x1 x2 x3 s
  | .mcfg x0 x1 x2 x3 => Sys2Proof.Machine.execMcfg x0 x1 x2 x3 s
  | .mpush x0 x1 x2 => Sys2Proof.Machine.execMpush x0 x1 x2 s
  | .mswap x0 => Sys2Proof.Machine.execMswap x0 s
  | .mshift x0 x1 x2 x3 x4 x5 => Sys2Proof.Machine.execMshift x0 x1 x2 x3 x4 x5 s
  | .mdrainF32 x0 x1 x2 x3 x4 => Sys2Proof.Machine.execMdrainF32 x0 x1 x2 x3 x4 s
  | .mdrainF16 x0 x1 x2 x3 x4 => Sys2Proof.Machine.execMdrainF16 x0 x1 x2 x3 x4 s
  | .mdrainB16 x0 x1 x2 x3 x4 => Sys2Proof.Machine.execMdrainB16 x0 x1 x2 x3 x4 s
  | .mclr x0 x1 => Sys2Proof.Machine.execMclr x0 x1 s
  | .mflush x0 => Sys2Proof.Machine.execMflush x0 s
  | .br x0 x1 => Sys2Proof.Machine.execBr x0 x1 s
  | .brx x0 x1 => Sys2Proof.Machine.execBrx x0 x1 s
  | .call x0 x1 => Sys2Proof.Machine.execCall x0 x1 s
  | .callx x0 x1 => Sys2Proof.Machine.execCallx x0 x1 s
  | .ret x0 => Sys2Proof.Machine.execRet x0 s
  | .loop x0 x1 x2 => Sys2Proof.Machine.execLoop x0 x1 x2 s
  | .loopReg x0 x1 x2 => Sys2Proof.Machine.execLoopReg x0 x1 x2 s
  | .stage x0 x1 => Sys2Proof.Machine.execStage x0 x1 s
  | .seg x0 x1 => Sys2Proof.Machine.execSeg x0 x1 s
  | .rdv x0 => Sys2Proof.Machine.execRdv x0 s
  | .waitc x0 x1 x2 => Sys2Proof.Machine.execWaitc x0 x1 x2 s
  | .yield x0 => Sys2Proof.Machine.execYield x0 s
  | .halt x0 => Sys2Proof.Machine.execHalt x0 s
  | .sys x0 x1 => Sys2Proof.Machine.execSys x0 x1 s
  | .fbreg x0 x1 => Sys2Proof.Machine.execFbreg x0 x1 s
  | .bkpt x0 x1 => Sys2Proof.Machine.execBkpt x0 x1 s
  | .vgateOn x0 x1 x2 => Sys2Proof.Machine.execVgateOn x0 x1 x2 s
  | .vgateRet x0 x1 x2 => Sys2Proof.Machine.execVgateRet x0 x1 x2 s
  | .vgateOff x0 x1 x2 => Sys2Proof.Machine.execVgateOff x0 x1 x2 s
  | .xmvm x0 x1 x2 x3 x4 x5 => Sys2Proof.Machine.execXmvm x0 x1 x2 x3 x4 x5 s
  | .xpush x0 x1 x2 x3 => Sys2Proof.Machine.execXpush x0 x1 x2 x3 s
  | .xpop x0 x1 x2 => Sys2Proof.Machine.execXpop x0 x1 x2 s
  | .xprog x0 x1 x2 x3 x4 => Sys2Proof.Machine.execXprog x0 x1 x2 x3 x4 s
  | .xver x0 x1 x2 x3 => Sys2Proof.Machine.execXver x0 x1 x2 x3 s
  | .xremap x0 x1 x2 => Sys2Proof.Machine.execXremap x0 x1 x2 s
  | .xremapClr x0 x1 => Sys2Proof.Machine.execXremapClr x0 x1 s
  | .xmon x0 x1 => Sys2Proof.Machine.execXmon x0 x1 s
  | .xcalOff x0 x1 x2 x3 x4 => Sys2Proof.Machine.execXcalOff x0 x1 x2 x3 x4 s
  | .xcalGain x0 x1 x2 x3 x4 => Sys2Proof.Machine.execXcalGain x0 x1 x2 x3 x4 s
  | .xcalMon x0 x1 => Sys2Proof.Machine.execXcalMon x0 x1 s
  | .xgate x0 => Sys2Proof.Machine.execXgate x0 s
  | .xwake x0 => Sys2Proof.Machine.execXwake x0 s
  | .xstat x0 x1 x2 => Sys2Proof.Machine.execXstat x0 x1 x2 s
  | .xldcCode x0 x1 x2 x3 => Sys2Proof.Machine.execXldcCode x0 x1 x2 x3 s
  | .xldcVer x0 x1 x2 x3 => Sys2Proof.Machine.execXldcVer x0 x1 x2 x3 s
  | .kern x0 x1 => Sys2Proof.Machine.execKern x0 x1 s
  | .gang x0 x1 => Sys2Proof.Machine.execGang x0 x1 s
  | .tcopy x0 x1 => Sys2Proof.Machine.execTcopy x0 x1 s
  | .tfill x0 x1 => Sys2Proof.Machine.execTfill x0 x1 s
  | .tdef x0 x1 => Sys2Proof.Machine.execTdef x0 x1 s
  | .tbind x0 x1 => Sys2Proof.Machine.execTbind x0 x1 s
  | .tdrop x0 x1 => Sys2Proof.Machine.execTdrop x0 x1 s
  | .tsig x0 x1 => Sys2Proof.Machine.execTsig x0 x1 s
  | .twait x0 x1 => Sys2Proof.Machine.execTwait x0 x1 s
  | .tfence x0 x1 => Sys2Proof.Machine.execTfence x0 x1 s
  | .tset x0 x1 => Sys2Proof.Machine.execTset x0 x1 s
  | .tadd x0 x1 => Sys2Proof.Machine.execTadd x0 x1 s
  | .tldq x0 x1 => Sys2Proof.Machine.execTldq x0 x1 s
  | .tloop x0 x1 => Sys2Proof.Machine.execTloop x0 x1 s
  | .tjmp x0 x1 => Sys2Proof.Machine.execTjmp x0 x1 s
  | .tbrz x0 x1 => Sys2Proof.Machine.execTbrz x0 x1 s
  | .tmark x0 x1 => Sys2Proof.Machine.execTmark x0 x1 s
  | .tpri x0 x1 => Sys2Proof.Machine.execTpri x0 x1 s
  | .thalt x0 x1 => Sys2Proof.Machine.execThalt x0 x1 s
  | .powerOn => Sys2Proof.Machine.execPowerOn s
  | .warmReset x0 => Sys2Proof.Machine.execWarmReset x0 s
  | .selfTestComplete => Sys2Proof.Machine.execSelfTestComplete s
  | .bootGo x0 => Sys2Proof.Machine.execBootGo x0 s
  | .bootVerifyComplete => Sys2Proof.Machine.execBootVerifyComplete s
  | .cmapnWrite x0 x1 x2 => Sys2Proof.Machine.execCmapnWrite x0 x1 x2 s
  | .controlRegisterWrite x0 x1 x2 => Sys2Proof.Machine.execControlRegisterWrite x0 x1 x2 s
  | .hostDeviceAccess x0 x1 x2 => Sys2Proof.Machine.execHostDeviceAccess x0 x1 x2 s
  | .hostInterrupt x0 x1 => Sys2Proof.Machine.execHostInterrupt x0 x1 s
  | .inboundRequest x0 x1 => Sys2Proof.Machine.execInboundRequest x0 x1 s
  | .diagdataRead x0 x1 => Sys2Proof.Machine.execDiagdataRead x0 x1 s
  | .diagdataWrite x0 x1 x2 => Sys2Proof.Machine.execDiagdataWrite x0 x1 x2 s
  | .cecntClear x0 x1 x2 => Sys2Proof.Machine.execCecntClear x0 x1 x2 s
  | .gctlFormatWrite x0 x1 x2 x3 => Sys2Proof.Machine.execGctlFormatWrite x0 x1 x2 x3 s
  | .retireDataBank x0 x1 x2 x3 => Sys2Proof.Machine.execRetireDataBank x0 x1 x2 x3 s
  | .retireParityBank x0 x1 x2 => Sys2Proof.Machine.execRetireParityBank x0 x1 x2 s
  | .retirementEffect x0 x1 => Sys2Proof.Machine.execRetirementEffect x0 x1 s
  | .rebuild x0 x1 x2 => Sys2Proof.Machine.execRebuild x0 x1 x2 s
  | .rebuildRowStep x0 x1 => Sys2Proof.Machine.execRebuildRowStep x0 x1 s
  | .groupDisable x0 x1 x2 => Sys2Proof.Machine.execGroupDisable x0 x1 x2 s
  | .parityDrain x0 x1 => Sys2Proof.Machine.execParityDrain x0 x1 s
  | .bundleDecode x0 => Sys2Proof.Machine.execBundleDecode x0 s
  | .heldBundleIssue x0 => Sys2Proof.Machine.execHeldBundleIssue x0 s
  | .contextReady x0 x1 => Sys2Proof.Machine.execContextReady x0 x1 s
  | .issueLimitExpiry x0 => Sys2Proof.Machine.execIssueLimitExpiry x0 s
  | .bundleChunkArrival x0 x1 => Sys2Proof.Machine.execBundleChunkArrival x0 x1 s
  | .registerResultLanding x0 x1 x2 => Sys2Proof.Machine.execRegisterResultLanding x0 x1 x2 s
  | .domainWakeComplete x0 x1 => Sys2Proof.Machine.execDomainWakeComplete x0 x1 s
  | .beatLanding x0 => Sys2Proof.Machine.execBeatLanding x0 s
  | .copyAcceptance x0 => Sys2Proof.Machine.execCopyAcceptance x0 s
  | .descriptorFetchReturn x0 => Sys2Proof.Machine.execDescriptorFetchReturn x0 s
  | .chunkTranslate x0 => Sys2Proof.Machine.execChunkTranslate x0 s
  | .holdAcquisition x0 => Sys2Proof.Machine.execHoldAcquisition x0 s
  | .holdIdleExpiry x0 => Sys2Proof.Machine.execHoldIdleExpiry x0 s
  | .parkRetry x0 => Sys2Proof.Machine.execParkRetry x0 s
  | .watchTrap x0 x1 => Sys2Proof.Machine.execWatchTrap x0 x1 s
  | .peerChunkCompletion x0 x1 => Sys2Proof.Machine.execPeerChunkCompletion x0 x1 s
  | .peerCompletionTimeout x0 x1 => Sys2Proof.Machine.execPeerCompletionTimeout x0 x1 s
  | .peerFlushComplete x0 x1 => Sys2Proof.Machine.execPeerFlushComplete x0 x1 s
  | .chunkComplete x0 x1 => Sys2Proof.Machine.execChunkComplete x0 x1 s
  | .copyRowWrite x0 x1 => Sys2Proof.Machine.execCopyRowWrite x0 x1 s
  | .copyRowRead x0 x1 => Sys2Proof.Machine.execCopyRowRead x0 x1 s
  | .coherentAccessComplete x0 => Sys2Proof.Machine.execCoherentAccessComplete x0 s
  | .writebackAck x0 x1 => Sys2Proof.Machine.execWritebackAck x0 x1 s
  | .refreshSlot x0 => Sys2Proof.Machine.execRefreshSlot x0 s
  | .waypartWrite x0 x1 x2 => Sys2Proof.Machine.execWaypartWrite x0 x1 x2 s
  | .windowGrowVisit x0 => Sys2Proof.Machine.execWindowGrowVisit x0 s
  | .windowShrinkVisit x0 => Sys2Proof.Machine.execWindowShrinkVisit x0 s
  | .commit x0 x1 => Sys2Proof.Machine.execCommit x0 x1 s
  | .timetableSwitch x0 => Sys2Proof.Machine.execTimetableSwitch x0 s
  | .swapTailWrite x0 x1 => Sys2Proof.Machine.execSwapTailWrite x0 x1 s
  | .swapCommand => Sys2Proof.Machine.execSwapCommand s
  | .swapMark => Sys2Proof.Machine.execSwapMark s
  | .swapCopyComplete => Sys2Proof.Machine.execSwapCopyComplete s
  | .replay x0 => Sys2Proof.Machine.execReplay x0 s
  | .parkend x0 x1 => Sys2Proof.Machine.execParkend x0 x1 s
  | .invalidateIdentifier x0 x1 => Sys2Proof.Machine.execInvalidateIdentifier x0 x1 s
  | .invalidateTileRange x0 x1 => Sys2Proof.Machine.execInvalidateTileRange x0 x1 s
  | .invalidateEverything x0 => Sys2Proof.Machine.execInvalidateEverything x0 s
  | .invalidationReport => Sys2Proof.Machine.execInvalidationReport s
  | .biasFlip x0 x1 => Sys2Proof.Machine.execBiasFlip x0 x1 s
  | .biasFlipMark => Sys2Proof.Machine.execBiasFlipMark s
  | .biasFlipInvert => Sys2Proof.Machine.execBiasFlipInvert s
  | .biasFlipEnd x0 => Sys2Proof.Machine.execBiasFlipEnd x0 s
  | .clockAdvance => Sys2Proof.Machine.execClockAdvance s
  | .rolloverRequest x0 => Sys2Proof.Machine.execRolloverRequest x0 s
  | .rolloverStart => Sys2Proof.Machine.execRolloverStart s
  | .rolloverEnd => Sys2Proof.Machine.execRolloverEnd s
  | .coachIssue x0 => Sys2Proof.Machine.execCoachIssue x0 s
  | .jobPlacement x0 => Sys2Proof.Machine.execJobPlacement x0 s
  | .jobStart x0 => Sys2Proof.Machine.execJobStart x0 s
  | .gangBundleSend x0 => Sys2Proof.Machine.execGangBundleSend x0 s
  | .rollback x0 x1 => Sys2Proof.Machine.execRollback x0 x1 s
  | .rollbackRestore x0 x1 => Sys2Proof.Machine.execRollbackRestore x0 x1 s
  | .preemptionRequest x0 x1 => Sys2Proof.Machine.execPreemptionRequest x0 x1 s
  | .preemptionHalt x0 => Sys2Proof.Machine.execPreemptionHalt x0 s
  | .jobSwapOut x0 => Sys2Proof.Machine.execJobSwapOut x0 s
  | .jobRestore x0 => Sys2Proof.Machine.execJobRestore x0 s
  | .coachComplete x0 x1 => Sys2Proof.Machine.execCoachComplete x0 x1 s
  | .coachRetire x0 => Sys2Proof.Machine.execCoachRetire x0 s
  | .wagonFree x0 => Sys2Proof.Machine.execWagonFree x0 s
  | .wagonFill x0 x1 => Sys2Proof.Machine.execWagonFill x0 x1 s
  | .twaitLoadReturn x0 => Sys2Proof.Machine.execTwaitLoadReturn x0 s
  | .decodeReadReturn x0 => Sys2Proof.Machine.execDecodeReadReturn x0 s
  | .tfenceComplete x0 => Sys2Proof.Machine.execTfenceComplete x0 s
  | .streamFault x0 x1 => Sys2Proof.Machine.execStreamFault x0 x1 s
  | .faultDeltaRestore x0 => Sys2Proof.Machine.execFaultDeltaRestore x0 s
  | .frameZeroing => Sys2Proof.Machine.execFrameZeroing s
  | .frameZeroed x0 => Sys2Proof.Machine.execFrameZeroed x0 s
  | .xbarOpStart x0 x1 => Sys2Proof.Machine.execXbarOpStart x0 x1 s
  | .xmvmLanding x0 x1 => Sys2Proof.Machine.execXmvmLanding x0 x1 s
  | .xbarOpComplete x0 x1 => Sys2Proof.Machine.execXbarOpComplete x0 x1 s
  | .autoMonitorRun x0 => Sys2Proof.Machine.execAutoMonitorRun x0 s
  | .bankWakeComplete x0 => Sys2Proof.Machine.execBankWakeComplete x0 s
  | .qtailWrite x0 x1 x2 => Sys2Proof.Machine.execQtailWrite x0 x1 x2 s
  | .ringLineReturn x0 => Sys2Proof.Machine.execRingLineReturn x0 s
  | .queueWake x0 x1 => Sys2Proof.Machine.execQueueWake x0 x1 s
  | .queueRequest x0 x1 x2 => Sys2Proof.Machine.execQueueRequest x0 x1 x2 s
  | .queueEnable x0 x1 => Sys2Proof.Machine.execQueueEnable x0 x1 s
  | .queueDisable x0 x1 => Sys2Proof.Machine.execQueueDisable x0 x1 s
  | .streamResume x0 x1 => Sys2Proof.Machine.execStreamResume x0 x1 s
  | .streamDiscard x0 x1 => Sys2Proof.Machine.execStreamDiscard x0 x1 s
  | .eventTake x0 => Sys2Proof.Machine.execEventTake x0 s
  | .eventDone x0 => Sys2Proof.Machine.execEventDone x0 s
  | .firmwarePairMismatch x0 => Sys2Proof.Machine.execFirmwarePairMismatch x0 s
  | .mappingDecision => Sys2Proof.Machine.execMappingDecision s
  | .mappingComplete x0 => Sys2Proof.Machine.execMappingComplete x0 s
  | .sliceExpiry x0 => Sys2Proof.Machine.execSliceExpiry x0 s
  | .unmap x0 x1 => Sys2Proof.Machine.execUnmap x0 x1 s
  | .unmapSaveComplete x0 => Sys2Proof.Machine.execUnmapSaveComplete x0 s
  | .dispatch x0 => Sys2Proof.Machine.execDispatch x0 s
  | .watchdogStage1 x0 => Sys2Proof.Machine.execWatchdogStage1 x0 s
  | .watchdogStage2 x0 => Sys2Proof.Machine.execWatchdogStage2 x0 s
  | .watchdogStage3 x0 => Sys2Proof.Machine.execWatchdogStage3 x0 s
  | .clusterMoveStart x0 x1 x2 => Sys2Proof.Machine.execClusterMoveStart x0 x1 x2 s
  | .clusterMoveSwapped x0 => Sys2Proof.Machine.execClusterMoveSwapped x0 s
  | .clusterMoveComplete x0 => Sys2Proof.Machine.execClusterMoveComplete x0 s
  | .trapResume x0 x1 => Sys2Proof.Machine.execTrapResume x0 x1 s
  | .trapFatal x0 x1 => Sys2Proof.Machine.execTrapFatal x0 x1 s
  | .knownAnswerCheck x0 => Sys2Proof.Machine.execKnownAnswerCheck x0 s
  | .dumpRequest x0 x1 => Sys2Proof.Machine.execDumpRequest x0 x1 s
  | .dumpStart => Sys2Proof.Machine.execDumpStart s
  | .dumpComplete => Sys2Proof.Machine.execDumpComplete s
  | .dumpAbort x0 => Sys2Proof.Machine.execDumpAbort x0 s
  | .dmaskWrite x0 x1 x2 => Sys2Proof.Machine.execDmaskWrite x0 x1 x2 s
  | .debugHalt x0 x1 => Sys2Proof.Machine.execDebugHalt x0 x1 s
  | .brakeVanEnable x0 => Sys2Proof.Machine.execBrakeVanEnable x0 s
  | .brakeVanDisable x0 => Sys2Proof.Machine.execBrakeVanDisable x0 s
  | .brakeVanStop x0 => Sys2Proof.Machine.execBrakeVanStop x0 s
  | .brakeVanWrite => Sys2Proof.Machine.execBrakeVanWrite s
  | .sample x0 => Sys2Proof.Machine.execSample x0 s
  | .loopCounterClear x0 x1 => Sys2Proof.Machine.execLoopCounterClear x0 x1 s
  | .freeze x0 => Sys2Proof.Machine.execFreeze x0 s
  | .attestationRequest x0 => Sys2Proof.Machine.execAttestationRequest x0 s
  | .attestationComplete => Sys2Proof.Machine.execAttestationComplete s
  | .keyLoad x0 x1 => Sys2Proof.Machine.execKeyLoad x0 x1 s
  | .keyRevoke x0 x1 => Sys2Proof.Machine.execKeyRevoke x0 x1 s
  | .keyRevokeComplete => Sys2Proof.Machine.execKeyRevokeComplete s
  | .thermalWarning x0 x1 => Sys2Proof.Machine.execThermalWarning x0 x1 s
  | .thermalCritical x0 x1 => Sys2Proof.Machine.execThermalCritical x0 x1 s
  | .thermalShutdown x0 x1 => Sys2Proof.Machine.execThermalShutdown x0 x1 s
  | .firmwareCoreAccess x0 x1 => Sys2Proof.Machine.execFirmwareCoreAccess x0 x1 s
  | .readingBelowTwarn x0 x1 => Sys2Proof.Machine.execReadingBelowTwarn x0 x1 s
  | .sidingTrim x0 x1 x2 => Sys2Proof.Machine.execSidingTrim x0 x1 x2 s

end Sys2Proof.Machine
end

