-- ==== Sys2Proof/Machine/Step.lean ====
section
/-! DEFINITION. One step of the part: the next instruction or event of the cycle, or the next phase of it. -/

namespace Sys2Proof.Machine

/-- A step: the first of the steps that the phase still holds, in the stream it concerns; when none is left, the next phase. -/
def step (s : State) : Host.Outcome State Fault Refusal :=
  match s.t.todo with
  | (f, i) :: r => if wellFormed i then exec i { s with t := { s.t with todo := r, fqueue := f } } else .fault .illFormed
  | [] => .next (refill s)

/-- A state whose next step fetches and runs one given instruction: a slot word stands in the bundle at which a context of core 0
decodes, a task in the buffer of a mapped stream. -/
def State.withFetchWord (s : State) (nbits w : Nat) : State :=
  if nbits ≤ 32 then placeWord s w else placeTask s nbits w

end Sys2Proof.Machine
end

