-- ==== Sys2Proof/Certificates/Slice0/Obligations.lean ====
section
/-! DEFINITION. The statements about the model: what a reader of a proof may rely on. Names of State and the shared operations
are those of Machine; the result of an operation is written out here from its rule. -/

namespace Sys2Proof.Claims

open Sys2Proof.Machine

/-! ## Words for the statements -/

/-- The registers of a context. -/
abbrev regs (s : State) (c x : Nat) : Regs := (getCtx s c x).r

/-- Core `c` is in focus, its context `x` runs, and the slot operation `i` has a true guard and passes every check of R433
there; `rc` names the slots that read by reconstruction. The odd core of a protected pair does not decide for itself (R165). -/
def Fires (s : State) (c x : Nat) (i : Instr) (rc : List Nat) : Prop :=
  s.t.fcore = c ∧ (getCore s c).running = some x ∧ oddOfPair c (getCtx s c x) = false ∧
    ∃ op, slotOp i = some op ∧ guardOf op.h (regs s c x) = true ∧ judge s c x [op] 0 = .go rc

/-- The state after a write of latency `lat` to s register `d`, with flags. -/
def toS (s : State) (c x lat : Nat) (d : BitVec 6) (v : Word) (fl : Flags := 0) : State :=
  postResult s c x lat (.s d.toNat) (v.setWidth 2048) (if d = 0 then 0 else fl)
/-- The state after a write of latency `lat` to vector register `d` of a file, with flags. -/
def toV (s : State) (c x lat : Nat) (file : Bool) (d : BitVec 6) (v : Wide) (fl : Flags := 0) : State :=
  postResult s c x lat (.v file (vAbs (regs s c x) file d.toNat)) v fl
/-- An s register by its field. -/
def sv (r : Regs) (n : BitVec 6) : Word := readS r n.toNat
/-- A vector register by its field. -/
def vv (s : State) (c x : Nat) (file : Bool) (n : BitVec 6) : Wide := readV (getCore s c) file (vAbs (regs s c x) file n.toNat)
/-- Whether lane `l` is active under the hold mask of a unit (R267): its bit is 0. -/
def active (s : State) (c x : Nat) (u : Unit2) (l : Nat) : Bool := !(readK (regs s c x) (vFile u) 0).getLsbD l

/-- Memory as an agent's plain read sees it: every byte the same. -/
abbrev SameMemory (s t : State) : Prop := ∀ a, rdByte t.c.mem a = rdByte s.c.mem a

/-- Task instructions (R171). -/
def isTask (i : Instr) : Bool := (taskParts i).isSome

end Sys2Proof.Claims

open Sys2Proof Sys2Proof.Machine Sys2Proof.Claims

/-! ## Encodings -/

/-- Every well-formed slot operation is read back from its word at its position, with every operand (R215 to R224). -/
def Obligations.SlotWordsRoundTrip : Prop :=
  ∀ (i : Instr) (w : BitVec 32), wellFormed i = true → encodeSlot i = some w → decodeSlot (slotPos i) w = some i

/-- The other way round: a word that the decoder accepts at a position is the word of the instruction it gives, so that no bit
of it is lost and no reserved bit is set (R216, R217, R225). -/
def Sys2Proof.Claims.SlotWordsHaveOneReading : Prop :=
  ∀ (pos : Nat) (w : BitVec 32) (i : Instr), decodeSlot pos w = some i → encodeSlot i = some w

/-- Every well-formed task is read back from its header and operand words, with every operand and box, whatever words follow
(R168, R169, R171). -/
def Obligations.TaskWordsRoundTrip : Prop :=
  ∀ (i : Instr) (w : BitVec 64) (ws more : List (BitVec 128)),
    wellFormed i = true → encodeTask i = some (w, ws) → decodeTask w (ws ++ more) = some i

/-- A bundle's decoder and the instruction decoder agree: where a word is an instruction at its position, the bundle performs that
instruction's operation; where it is none, the slot is illegal (R225). -/
def Sys2Proof.Claims.BundleSlotsAreTheDecodedOperations : Prop :=
  ∀ (pos : Nat) (w : BitVec 32), w ≠ 0 →
    match decodeSlot pos w with
    | some i => slotOpAt pos w = slotOp i
    | none => ((slotOpAt pos w).getD { pos, h := headOf w, bad := true }).bad = true

/-- Words written out from the encodings of R216 to R224 and the worked cases of R242, R243 and R237: NOP, `setw s5, 0x456, 2`,
`cmp.lt p2, s1, s2`, `astr a0, 256`, `loop 64, last` with LEN 2; and the tasks `kern.dev 0, place(2,0)` and `thalt` of R402. -/
def Obligations.WorkedWordsDecode : Prop :=
  decodeSlot 0 0x00000000 = some .nop ∧
  decodeSlot 0 0x04785456 = some (.setw2 ⟨false, 0, true⟩ 5 0x456) ∧
  decodeSlot 0 0x049C8042 = some (.cmpLt ⟨false, 0, true⟩ 2 0 1 2) ∧
  decodeSlot 4 0x075C0100 = some (.astr ⟨false, 0, true⟩ .zero 0 0x100) ∧
  decodeSlot 6 0x07A21040 = some (.loop ⟨false, 0, true⟩ 2 64) ∧
  decodeTask 0x0000000000040401 [] = some (.kern ⟨false, 2, false, false, 2, 0, 0, 0, 0⟩ []) ∧
  decodeTask 0x000000000000007F [] = some (.thalt ⟨false, 0, false, false, 0, 0, 0, 0, 0⟩ [])

/-! ## Steps -/

/-- A step runs the first instruction that its phase holds: exec of it, the rest of the list kept, its stream in focus. -/
def Obligations.StepRunsTheListedInstruction : Prop :=
  ∀ (s : State) (q : Nat) (i : Instr) (r : List (Nat × Instr)), s.t.todo = (q, i) :: r → wellFormed i = true →
    step s = exec i { s with t := { s.t with todo := r, fqueue := q } }

/-- BUNDLE_DECODE runs what the bundle at the program address decodes to: when the running context's bundle lies in the code
tensor and in the bundle cache, no hold, throttle, comparator or partner stands in the way, and the operations of its eight decoded
words pass every check, then a step at it gives the effects of those operations, each reading the state at the start of the cycle, between
what issuing clears and what follows it: the loop close, the flow of control, the counters (R203, R253, R433, R435). -/
def Obligations.StepRunsTheDecodedBundle : Prop :=
  ∀ (s : State) (q c x : Nat) (r : List (Nat × Instr)) (rc : List Nat),
    let s1 := { s with t := { s.t with todo := r, fqueue := q } }
    let v := getCtx s c x
    let words := bundleWords s (codeOfP v.j) v.r.pc
    let ops := slotsFrom v.r.donemask 0 words
    s.t.todo = (q, .bundleDecode c) :: r → c < 80 →
    followDue s c = none → (getCore s c).running = some x → v.status = .running → v.heldUntil = none →
    (getCore s c).nextIssue ≤ s.t.now → broadcast s v = false → mayRun s v = true →
    codeHas s (codeOfP v.j) (32 * v.r.pc.toNat) 32 = true → cacheHas (getCore s c) v.j.code.toNat v.r.pc = true →
    judge s1 c x ops 0 = .go rc →
    (ops.any (·.heavy) && decide ((getCore s c).phi < (getCore s c).thrl.toNat)) = false →
    comparator (modCore s1 c (fun k => { k with phi := (k.phi + 1) % 8 })) c x words = none →
    let s2 := modCore s1 c (fun k => { k with phi := (k.phi + 1) % 8 })
    step s = .next (afterIssue s2 c x ops words (effects s2 c x ops rc (beforeIssue s2 c x)))

/-- What a slot operation does alone is what it does as the only operation of a bundle: with its checks passed, exec gives the
effects of a bundle that holds it and seven NOPs (R216, R433). -/
def Sys2Proof.Claims.SlotOperationIsABundleOfOne : Prop :=
  ∀ (s : State) (c x : Nat) (i : Instr) (rc : List Nat) (op : SlotOp), slotOp i = some op →
    s.t.fcore = c → (getCore s c).running = some x → judge s c x [op] 0 = .go rc →
    exec i s = .next (effects s c x [op] rc s)

/-- A slot is decoded as its instruction and performed alone as in a bundle (R216, R225, R433). -/
def Sys2Proof.Claims.SlotDecodingIsTheBundlesAndAloneIsABundleOfOne : Prop :=
  Sys2Proof.Claims.BundleSlotsAreTheDecodedOperations ∧ Sys2Proof.Claims.SlotOperationIsABundleOfOne

/-- A slot word has one reading, and its operation acts alone as in a bundle (R215, R216, R225, R433). -/
def Obligations.SlotWordsHaveOneReadingAndAloneAreABundleOfOne : Prop :=
  Sys2Proof.Claims.SlotWordsHaveOneReading ∧ Sys2Proof.Claims.SlotDecodingIsTheBundlesAndAloneIsABundleOfOne

/-- With nothing listed a step goes on to the next phase of the cycle: the decodes after the inputs, then the engines, the
end of the cycle, and the next cycle, whose FCYC is one more (R79). -/
def Obligations.StepsGoThroughThePhases : Prop :=
  ∀ s : State, s.t.todo = [] → ∃ t, step s = .next t ∧
    (s.t.phase = 3 → t.t.phase = 2) ∧ (s.t.phase = 2 → t.t.phase = 1) ∧ (s.t.phase = 1 → t.t.phase = 0) ∧
    (s.t.phase = 0 → s.t.frozen = false → t.t.phase = 3 ∧ t.t.now = s.t.now + 1)

/-- NOP changes nothing (R216). -/
def Sys2Proof.Claims.NopChangesNothing : Prop :=
  ∀ (s : State) (x : Nat), (getCore s s.t.fcore).running = some x → exec .nop s = .next s

/-! ## Registers and results -/

/-- s0 reads zero and discards writes, P0 reads true and discards writes; every other s register, predicate, mask and address
register reads back what was written and no other one changes (R199). -/
def Sys2Proof.Claims.RegistersReadBackWhatWasWritten : Prop :=
  (∀ r : Regs, readS r 0 = 0 ∧ readP r 0 = true ∧ (∀ v, writeS r 0 v = r) ∧ (∀ b, writeP r 0 b = r)) ∧
  (∀ (r : Regs) (n m : Nat) (v : Word), 0 < n → n < 64 → readS (writeS r n v) m = if m = n then v else readS r m) ∧
  (∀ (r : Regs) (n m : Nat) (b : Bool), 0 < n → n < 16 → m < 16 → readP (writeP r n b) m = if m = n then b else readP r m) ∧
  (∀ (r : Regs) (f g : Bool) (n m : Nat) (v : Word), n < 16 → m < 16 →
    readA (writeA r f n v) g m = if f = g ∧ n = m then v else readA r g m) ∧
  (∀ (r : Regs) (f g : Bool) (n m : Nat) (v : Word), n < 8 → m < 8 →
    readK (writeK r f n v) g m = if f = g ∧ n = m then v else readK r g m)

/-- A write of latency 1 stands at the end of its cycle and its register is full; one of a greater latency marks its register
empty, and REGISTER_RESULT_LANDING in its last cycle writes the value and marks it full (R203). -/
def Sys2Proof.Claims.ResultsLand : Prop :=
  ∀ (s : State) (c x lat : Nat) (d : BitVec 6) (v : Word) (fl : Flags), d ≠ 0 →
    (lat ≤ 1 → let t := toS s c x lat d v fl
      sv (regs t c x) d = v ∧ emptyS (regs t c x) d.toNat = false) ∧
    (1 < lat → (∀ l ∈ (getCtx s c x).landings, l.id < s.t.nextId) →
      let t := toS s c x lat d v fl
      emptyS (regs t c x) d.toNat = true ∧ sv (regs t c x) d = sv (regs s c x) d ∧
      (s.t.now + lat - 1, Instr.registerResultLanding c x s.t.nextId) ∈ t.t.agenda ∧
      ∀ now, s.t.now + lat - 1 ≤ now → ∃ u, exec (.registerResultLanding c x s.t.nextId) { t with t := { t.t with now } } = .next u ∧
        sv (regs u c x) d = v ∧ emptyS (regs u c x) d.toNat = false ∧ (regs u c x).fpstat = (regs s c x).fpstat ||| fl)

/-- A write squashes the older producers of its register: the register keeps the younger result, and the squashed one's flags still
reach FPSTAT when it would have landed (R205). -/
def Sys2Proof.Claims.YoungerWriteSquashesOlder : Prop :=
  ∀ (s : State) (c x lat : Nat) (d : BitVec 6) (v : Word) (l : Landing), d ≠ 0 → lat ≤ 1 →
    (getCtx s c x).landings.find? (fun m => m.id = l.id) = some l → l.dst = .s d.toNat → l.req = none → l.ue = none → l.due ≤ s.t.now →
    ∃ u, exec (.registerResultLanding c x l.id) (toS s c x lat d v) = .next u ∧
      sv (regs u c x) d = v ∧ (regs u c x).fpstat = (regs s c x).fpstat ||| l.flags

/-- Results stand or land after their latency, and a younger write squashes an older one (R203, R205). -/
def Obligations.ResultsLandAfterTheirLatency : Prop :=
  Sys2Proof.Claims.ResultsLand ∧ Sys2Proof.Claims.YoungerWriteSquashesOlder

/-- What a result changes: nothing in memory, no other context's registers, no s register but its own, no predicate, mask, address
register or counter, no control register, queue or job. -/
def Sys2Proof.Claims.ResultsChangeOnlyTheirRegister : Prop :=
  ∀ (s : State) (c x lat : Nat) (d : BitVec 6) (v : Word) (fl : Flags), let t := toS s c x lat d v fl
    t.c = s.c ∧ t.creg = s.creg ∧ t.f = s.f ∧ t.w = s.w ∧ t.h = s.h ∧ t.x = s.x ∧
    (∀ c' x', (c', x') ≠ (c, x) → getCtx t c' x' = getCtx s c' x') ∧
    (∀ n, n ≠ d.toNat → readS (regs t c x) n = readS (regs s c x) n) ∧
    (regs t c x).preds = (regs s c x).preds ∧ (regs t c x).masks = (regs s c x).masks ∧ (regs t c x).aregs = (regs s c x).aregs ∧
    (regs t c x).ctrs = (regs s c x).ctrs ∧ (regs t c x).pc = (regs s c x).pc ∧ (regs t c x).loops = (regs s c x).loops

/-- Registers read back what was written, and a result changes its register and no other (R34, R199, R203). -/
def Obligations.RegistersReadBackAndResultsChangeOnlyTheirs : Prop :=
  Sys2Proof.Claims.RegistersReadBackWhatWasWritten ∧ Sys2Proof.Claims.ResultsChangeOnlyTheirRegister

/-- A slot that reads an empty s register with W = 1 blocks its context, and with W = 0 takes the empty-source trap, which names
the register (R204); shown on ADD, whose first source is looked at first. -/
def Sys2Proof.Claims.EmptySourceWaitsOrTraps : Prop :=
  ∀ (s : State) (c x : Nat) (h : Hd) (d a b : BitVec 6), s.t.fcore = c → (getCore s c).running = some x →
    guardOf h (regs s c x) = true → stepOne (getCtx s c x) [opAdd h d a b] = none → emptyS (regs s c x) a.toNat = true →
    (h.w = true → exec (.add h d a b) s = .next (blockCtx s c x 0 0 a.toNat)) ∧
    (h.w = false → exec (.add h d a b) s = .next (takeTrap s c x 3 0 0 a.toNat (regs s c x).pc))

/-- A slot whose guard is false reads no source and has no effect, in every operation but SEL, the compares, and the copies
and WFILL (R206). -/
def Sys2Proof.Claims.FalseGuardDoesNothing : Prop :=
  ∀ (s : State) (c x : Nat) (i : Instr) (op : SlotOp), slotOp i = some op → s.t.fcore = c → (getCore s c).running = some x →
    guardOf op.h (regs s c x) = false → stepOne (getCtx s c x) [op] = none →
    (match i with
      | .sel .. | .cmpEq .. | .cmpNe .. | .cmpLt .. | .cmpLe .. | .cmpLtn .. | .cmpLen .. | .cmpEqImm .. | .cmpNeImm ..
      | .cmpLtImm .. | .cmpLeImm .. | .cmpLtnImm .. | .cmpLenImm .. | .fcmpEqF32 .. | .fcmpEqF16 .. | .fcmpEqB16 ..
      | .fcmpLtF32 .. | .fcmpLtF16 .. | .fcmpLtB16 .. | .fcmpLeF32 .. | .fcmpLeF16 .. | .fcmpLeB16 ..
      | .copy .. | .copyo .. | .copyn .. | .wfill .. => False
      | _ => True) →
    exec i s = .next s

/-- NOP, and a slot with a false guard but for those the rule names, have no effect (R206, R216). -/
def Obligations.FalseGuardsAndNopsDoNothing : Prop :=
  Sys2Proof.Claims.NopChangesNothing ∧ Sys2Proof.Claims.FalseGuardDoesNothing

/-- Two slots of one bundle that write one register raise the illegal-bundle trap, class 2 cause 0, whatever their guards (R205, R226;
that guards play no part is the model's reading, log entry 25). -/
def Sys2Proof.Claims.TwoWritersTrap : Prop :=
  ∀ (s : State) (c x : Nat) (h h' : Hd) (d a b : BitVec 6) (bk : BitVec 5) (ar : BitVec 4) (i : BitVec 3), d ≠ 0 →
    judge s c x [opAdd h d a b, opLds h' .zero d bk ar i] 0 = .trap 2 0 4 0

/-- An empty source waits or traps; two writers of one register trap (R204, R205, R226). -/
def Obligations.SourcesAndDestinationsAreChecked : Prop :=
  Sys2Proof.Claims.EmptySourceWaitsOrTraps ∧ Sys2Proof.Claims.TwoWritersTrap

/-! ## Scalar operations (R238 to R249) -/

namespace Sys2Proof.Claims

open Sys2Proof.Machine

/-- A number as a 64-bit word, modulo 2^64. -/
abbrev w64 (n : Int) : Word := BitVec.ofInt 64 n
/-- The format-`f` value of an s register (R238). -/
def fval (f : Ff) (v : Word) : FV := unpack f (v.toNat % 2 ^ f.width)
/-- The word of a result encoding, with its flags. -/
def fres (r : Res) : Word × Flags := (BitVec.ofNat 64 r.1, r.2)
/-- The types of CVT's X and Y (R217). -/
def cvtT (x : BitVec 2) : Ff := if x = 0 then .f32 else if x = 1 then .f16 else .b16
/-- Bits 12k+11 down to 12k of a word replaced (R242). -/
def setField (k : Nat) (d : Word) (i : Nat) : Word :=
  w64 (d.toNat % 2 ^ (12 * k) + i * 2 ^ (12 * k) + d.toNat / 2 ^ (12 * k + 12) * 2 ^ (12 * k + 12) : Nat)
/-- The quotient toward zero, 0 for a zero divisor (R240). -/
def quot (a b : Int) : Int := if b = 0 then 0 else a.tdiv b
/-- What the quotient leaves: a - q b (R240). -/
def remnd (a b : Int) : Int := a - quot a b * b

/-- What an integer operation on s registers writes: latency, register and value (R239 to R242, R248, R249). -/
def intResult (r : Regs) (i : Instr) : Option (Nat × BitVec 6 × Word) :=
  let u (n : BitVec 6) : Int := (sv r n).toNat
  let z (n : BitVec 6) : Int := (sv r n).toInt
  let p (n : BitVec 6) : Nat := 2 ^ ((sv r n).toNat % 64)
  match i with
  | .add _ d a b => some (1, d, w64 (u a + u b))
  | .sub _ d a b => some (1, d, w64 (u a - u b))
  | .and _ d a b => some (1, d, sv r a &&& sv r b)
  | .or _ d a b => some (1, d, sv r a ||| sv r b)
  | .xor _ d a b => some (1, d, sv r a ^^^ sv r b)
  | .andn _ d a b => some (1, d, sv r a &&& ~~~sv r b)
  | .shl _ d a b => some (1, d, w64 (u a * p b))
  | .shr _ d a b => some (1, d, w64 (u a / p b))
  | .sar _ d a b => some (1, d, w64 (z a / p b))
  | .mul _ d a b => some (3, d, w64 (z a * z b))
  | .mulh _ d a b => some (3, d, w64 (z a * z b / 2 ^ 64))
  | .mulhn _ d a b => some (3, d, w64 (u a * u b / 2 ^ 64))
  | .div _ d a b => some (18, d, w64 (quot (z a) (z b)))
  | .divn _ d a b => some (18, d, w64 (quot (u a) (u b)))
  | .rem _ d a b => some (18, d, w64 (remnd (z a) (z b)))
  | .remn _ d a b => some (18, d, w64 (remnd (u a) (u b)))
  | .min _ d a b => some (1, d, w64 (min (z a) (z b)))
  | .max _ d a b => some (1, d, w64 (max (z a) (z b)))
  | .minn _ d a b => some (1, d, w64 (min (u a) (u b)))
  | .maxn _ d a b => some (1, d, w64 (max (u a) (u b)))
  | .addImm _ d a k => some (1, d, w64 (u a + k.toInt))
  | .andImm _ d a k => some (1, d, sv r a &&& w64 k.toInt)
  | .orImm _ d a k => some (1, d, sv r a ||| w64 k.toInt)
  | .xorImm _ d a k => some (1, d, sv r a ^^^ w64 k.toInt)
  | .shlImm _ d a k => some (1, d, w64 (u a * 2 ^ k.toNat))
  | .shrImm _ d a k => some (1, d, w64 (u a / 2 ^ k.toNat))
  | .sarImm _ d a k => some (1, d, w64 (z a / 2 ^ k.toNat))
  | .setw0 _ d k => some (1, d, setField 0 (sv r d) k.toNat)
  | .setw1 _ d k => some (1, d, setField 1 (sv r d) k.toNat)
  | .setw2 _ d k => some (1, d, setField 2 (sv r d) k.toNat)
  | .setw3 _ d k => some (1, d, setField 3 (sv r d) k.toNat)
  | .setw4 _ d k => some (1, d, setField 4 (sv r d) k.toNat)
  | .setw5 _ d k => some (1, d, setField 5 (sv r d) k.toNat)
  | .sext _ d a k => some (1, d, w64 ((sv r a).setWidth (8 * 2 ^ k.toNat)).toInt)
  | .clz _ d a => some (1, d, w64 ((List.range 64).takeWhile (fun i => !(sv r a).getLsbD (63 - i))).length)
  | .popc _ d a => some (1, d, w64 ((List.range 64).filter (fun i => (sv r a).getLsbD i)).length)
  | .sel _ d a _ => some (1, d, sv r a)
  | .mova _ d f k => some (1, d, readA r (f = 1) k.toNat)
  | _ => none

/-- The formats' codes of the three forms of a floating-point operation, the operation and its operands (R244). -/
inductive FForm where
  | bin (f : Ff) (d a b : BitVec 6) (op : FV → FV → FV × Flags)
  | fma (f : Ff) (d a b : BitVec 6)
  | pick (f : Ff) (d a b : BitVec 6) (isMax : Bool)

/-- Which floating-point operation an instruction is (R244). -/
def fForm : Instr → Option FForm
  | .faddF32 _ d a b => some (.bin .f32 d a b fvAdd)
  | .faddF16 _ d a b => some (.bin .f16 d a b fvAdd)
  | .faddB16 _ d a b => some (.bin .b16 d a b fvAdd)
  | .fsubF32 _ d a b => some (.bin .f32 d a b (fun x y => fvAdd x y.neg))
  | .fsubF16 _ d a b => some (.bin .f16 d a b (fun x y => fvAdd x y.neg))
  | .fsubB16 _ d a b => some (.bin .b16 d a b (fun x y => fvAdd x y.neg))
  | .fmulF32 _ d a b => some (.bin .f32 d a b fvMul)
  | .fmulF16 _ d a b => some (.bin .f16 d a b fvMul)
  | .fmulB16 _ d a b => some (.bin .b16 d a b fvMul)
  | .ffmaF32 _ d a b => some (.fma .f32 d a b)
  | .ffmaF16 _ d a b => some (.fma .f16 d a b)
  | .ffmaB16 _ d a b => some (.fma .b16 d a b)
  | .fminF32 _ d a b => some (.pick .f32 d a b false)
  | .fminF16 _ d a b => some (.pick .f16 d a b false)
  | .fminB16 _ d a b => some (.pick .b16 d a b false)
  | .fmaxF32 _ d a b => some (.pick .f32 d a b true)
  | .fmaxF16 _ d a b => some (.pick .f16 d a b true)
  | .fmaxB16 _ d a b => some (.pick .b16 d a b true)
  | _ => none

/-- What a floating-point operation on s registers writes: register, value and flags; its latency is 4 (R244, R246). -/
def floatResult (r : Regs) (i : Instr) : Option (BitVec 6 × Word × Flags) :=
  match fForm i with
  | some (.bin f d a b op) =>
    let (v, fl) := op (fval f (sv r a)) (fval f (sv r b))
    some (d, BitVec.ofNat 64 (roundFV f 0 v).1, (roundFV f 0 v).2 ||| fl)
  | some (.fma f d a b) =>
    let (v, fl) := fvFma (fval f (sv r a)) (fval f (sv r b)) (fval f (sv r d))
    some (d, BitVec.ofNat 64 (roundFV f 0 v).1, (roundFV f 0 v).2 ||| fl)
  | some (.pick f d a b m) =>
    let p := fMinMax m f ((sv r a).toNat % 2 ^ f.width) ((sv r b).toNat % 2 ^ f.width)
    some (d, BitVec.ofNat 64 p.1, p.2)
  | none => match i with
    | .fcvt _ d a rm x y => some (d, fres (roundFV (cvtT y) rm (fval (cvtT x) (sv r a))))
    | .itof _ d a rm u y => some (d, fres (roundFV (cvtT y) rm (.ofInt (if u = 1 then ((sv r a).toNat : Int) else (sv r a).toInt))))
    | .ftoi _ d a rm x z =>
      let w := 8 * 2 ^ z.toNat
      let p := cvtInt (-(2 ^ (w - 1) : Int)) (2 ^ (w - 1) - 1) rm (.real (fval (cvtT x) (sv r a)))
      some (d, w64 p.1, p.2)
    | .ftoiN _ d a rm x z =>
      let w := 8 * 2 ^ z.toNat
      let p := cvtInt 0 (2 ^ w - 1) rm (.real (fval (cvtT x) (sv r a)))
      some (d, w64 p.1, p.2)
    | _ => none

/-- The condition of a compare, its pair and mode, and its flags (R243, R245). -/
def condOf (r : Regs) (i : Instr) : Option (BitVec 4 × BitVec 2 × Bool × Flags) :=
  let u (n : BitVec 6) : Int := (sv r n).toNat
  let z (n : BitVec 6) : Int := (sv r n).toInt
  let fc (f : Ff) (a b : BitVec 6) (loud : Bool) (k : FV → FV → Bool) : Bool × Flags :=
    let x := fval f (sv r a)
    let y := fval f (sv r b)
    (!x.isNan && !y.isNan && k x y, if (if loud then x.isNan || y.isNan else x.isSig || y.isSig) then fNV else 0)
  match i with
  | .cmpEq _ p m a b => some (p, m, u a = u b, 0)
  | .cmpNe _ p m a b => some (p, m, u a ≠ u b, 0)
  | .cmpLt _ p m a b => some (p, m, z a < z b, 0)
  | .cmpLe _ p m a b => some (p, m, z a ≤ z b, 0)
  | .cmpLtn _ p m a b => some (p, m, u a < u b, 0)
  | .cmpLen _ p m a b => some (p, m, u a ≤ u b, 0)
  | .cmpEqImm _ p m a k => some (p, m, z a = k.toInt, 0)
  | .cmpNeImm _ p m a k => some (p, m, z a ≠ k.toInt, 0)
  | .cmpLtImm _ p m a k => some (p, m, z a < k.toInt, 0)
  | .cmpLeImm _ p m a k => some (p, m, z a ≤ k.toInt, 0)
  | .cmpLtnImm _ p m a k => some (p, m, u a < k.toNat, 0)
  | .cmpLenImm _ p m a k => some (p, m, u a ≤ k.toNat, 0)
  | .fcmpEqF32 _ p m a b => some (p, m, fc .f32 a b false fvEq)
  | .fcmpEqF16 _ p m a b => some (p, m, fc .f16 a b false fvEq)
  | .fcmpEqB16 _ p m a b => some (p, m, fc .b16 a b false fvEq)
  | .fcmpLtF32 _ p m a b => some (p, m, fc .f32 a b true fvLt)
  | .fcmpLtF16 _ p m a b => some (p, m, fc .f16 a b true fvLt)
  | .fcmpLtB16 _ p m a b => some (p, m, fc .b16 a b true fvLt)
  | .fcmpLeF32 _ p m a b => some (p, m, fc .f32 a b true (fun x y => fvLt x y || fvEq x y))
  | .fcmpLeF16 _ p m a b => some (p, m, fc .f16 a b true (fun x y => fvLt x y || fvEq x y))
  | .fcmpLeB16 _ p m a b => some (p, m, fc .b16 a b true (fun x y => fvLt x y || fvEq x y))
  | _ => none

/-- A predicate operation's predicate and value (R247). -/
def predOf (r : Regs) (i : Instr) : Option (BitVec 4 × Bool) :=
  let q (n : BitVec 4) : Bool := readP r n.toNat
  match i with
  | .pand _ p a b => some (p, q a && q b)
  | .por _ p a b => some (p, q a || q b)
  | .pxor _ p a b => some (p, q a != q b)
  | .pandn _ p a b => some (p, q a && !q b)
  | .pmov _ p a => some (p, q a)
  | _ => none

/-- The predicates after a write of some of them, P0 as ever; nothing else of the registers changes but FPSTAT, which gains flags. -/
abbrev PredsBecome (r r' : Regs) (fl : Flags) (f : Nat → Bool) : Prop :=
  (∀ n, n < 16 → readP r' n = if n = 0 then true else f n) ∧ r' = { r with preds := r'.preds, fpstat := r.fpstat ||| fl }

/-- Only the registers of one context change. -/
abbrev OnlyRegs (s t : State) (c x : Nat) : Prop := t = modRegs s c x (fun _ => regs t c x)

/-- The S-slot operations whose sources are s registers or none, with the registers they read (R238). -/
def sSources : Instr → Option (Hd × List (BitVec 6))
  | .add h _ a b | .sub h _ a b | .and h _ a b | .or h _ a b | .xor h _ a b | .andn h _ a b | .shl h _ a b | .shr h _ a b
  | .sar h _ a b | .mul h _ a b | .mulh h _ a b | .mulhn h _ a b | .div h _ a b | .divn h _ a b | .rem h _ a b
  | .remn h _ a b | .min h _ a b | .max h _ a b | .minn h _ a b | .maxn h _ a b => some (h, [a, b])
  | .faddF32 h _ a b | .faddF16 h _ a b | .faddB16 h _ a b | .fsubF32 h _ a b | .fsubF16 h _ a b | .fsubB16 h _ a b
  | .fmulF32 h _ a b | .fmulF16 h _ a b | .fmulB16 h _ a b | .fminF32 h _ a b | .fminF16 h _ a b | .fminB16 h _ a b
  | .fmaxF32 h _ a b | .fmaxF16 h _ a b | .fmaxB16 h _ a b => some (h, [a, b])
  | .ffmaF32 h d a b | .ffmaF16 h d a b | .ffmaB16 h d a b => some (h, [a, b, d])
  | .addImm h _ a _ | .andImm h _ a _ | .orImm h _ a _ | .xorImm h _ a _ | .shlImm h _ a _ | .shrImm h _ a _ | .sarImm h _ a _
  | .clz h _ a | .popc h _ a => some (h, [a])
  | .setw0 h d _ | .setw1 h d _ | .setw2 h d _ | .setw3 h d _ | .setw4 h d _ | .setw5 h d _ => some (h, [d])
  | .sext h _ a z => if z = 3 then none else some (h, [a])
  | .cmpEq h _ _ a b | .cmpNe h _ _ a b | .cmpLt h _ _ a b | .cmpLe h _ _ a b | .cmpLtn h _ _ a b | .cmpLen h _ _ a b
  | .fcmpEqF32 h _ _ a b | .fcmpEqF16 h _ _ a b | .fcmpEqB16 h _ _ a b | .fcmpLtF32 h _ _ a b | .fcmpLtF16 h _ _ a b
  | .fcmpLtB16 h _ _ a b | .fcmpLeF32 h _ _ a b | .fcmpLeF16 h _ _ a b | .fcmpLeB16 h _ _ a b => some (h, [a, b])
  | .cmpEqImm h _ _ a _ | .cmpNeImm h _ _ a _ | .cmpLtImm h _ _ a _ | .cmpLeImm h _ _ a _ | .cmpLtnImm h _ _ a _
  | .cmpLenImm h _ _ a _ => some (h, [a])
  | .fcvt h _ a _ x y => if x = 3 ∨ y = 3 then none else some (h, [a])
  | .itof h _ a _ _ y => if y = 3 then none else some (h, [a])
  | .ftoi h _ a _ x _ | .ftoiN h _ a _ x _ => if x = 3 then none else some (h, [a])
  | .pand h _ _ _ | .por h _ _ _ | .pxor h _ _ _ | .pandn h _ _ _ | .pmov h _ _ => some (h, [])
  | .sel h _ a _ => some (h, [a])
  | _ => none

/-- The loop levels that are active at the program address: at the target of a taken BR or BRX, those whose body holds it (R257). -/
def levels (r : Regs) : List LoopLvl :=
  if r.redirectPops = true ∧ r.redirect = none then r.loops.dropWhile (fun l => !decide (l.start ≤ r.pc ∧ r.pc ≤ l.fin)) else r.loops

/-- The program address is no place where R226 stops every bundle: one of the two delay bundles after a taken branch, and the
last bundle of the innermost loop body. -/
abbrev PlainPlace (r : Regs) : Prop :=
  r.redirect.any (fun p => decide (p.1 = 1 ∨ p.1 = 2)) = false ∨ (levels r).head?.any (fun l => decide (l.fin = r.pc)) = false

end Sys2Proof.Claims

/-- The scalar operations have no condition but full sources: with a true guard, every source s register full and the program
address in no forbidden place, the operation passes every check of R433. -/
def Obligations.ScalarOperationsIssueWhenSourcesAreFull : Prop :=
  ∀ (s : State) (c x : Nat) (i : Instr) (h : Hd) (l : List (BitVec 6)), sSources i = some (h, l) →
    s.t.fcore = c → (getCore s c).running = some x → oddOfPair c (getCtx s c x) = false → guardOf h (regs s c x) = true →
    PlainPlace (regs s c x) → (∀ n ∈ l, emptyS (regs s c x) n.toNat = false) → Fires s c x i []

/-- The integer operations' results, with their latencies; SEL with a true guard and MOVA (R239 to R242, R248, R249). -/
def Sys2Proof.Claims.IntegerResults : Prop :=
  ∀ (s : State) (c x : Nat) (i : Instr) (rc : List Nat) (lat : Nat) (d : BitVec 6) (v : Word),
    Fires s c x i rc → intResult (regs s c x) i = some (lat, d, v) → exec i s = .next (toS s c x lat d v)

/-- SEL with a false guard writes its other source, and reads that one alone (R248). -/
def Sys2Proof.Claims.SelWritesTheOtherSource : Prop :=
  ∀ (s : State) (c x : Nat) (h : Hd) (d a b : BitVec 6), s.t.fcore = c → (getCore s c).running = some x →
    guardOf h (regs s c x) = false → PlainPlace (regs s c x) → emptyS (regs s c x) b.toNat = false →
    exec (.sel h d a b) s = .next (toS s c x 1 d (sv (regs s c x) b))

/-- The scalar integer results, SEL with either guard among them (R239 to R242, R248, R249). -/
def Obligations.ScalarIntegerResults : Prop :=
  Sys2Proof.Claims.IntegerResults ∧ Sys2Proof.Claims.SelWritesTheOtherSource

/-- The floating-point operations' results with their flags, written after 4 cycles; nothing is flagged for s0 (R238, R244, R246). -/
def Obligations.ScalarFloatResults : Prop :=
  ∀ (s : State) (c x : Nat) (i : Instr) (rc : List Nat) (d : BitVec 6) (v : Word) (fl : Flags),
    Fires s c x i rc → floatResult (regs s c x) i = some (d, v, fl) → exec i s = .next (toS s c x 4 d v fl)

/-- A compare writes its pair by its mode: the destination and its partner, nothing when the name is P0, and the flags of a
floating-point compare (R207, R243, R245). -/
def Sys2Proof.Claims.ComparesWriteTheirPair : Prop :=
  ∀ (s : State) (c x : Nat) (i : Instr) (rc : List Nat) (p : BitVec 4) (m : BitVec 2) (k : Bool) (fl : Flags),
    Fires s c x i rc → condOf (regs s c x) i = some (p, m, k, fl) →
    ∃ t, exec i s = .next t ∧ OnlyRegs s t c x ∧
      PredsBecome (regs s c x) (regs t c x) fl (fun n =>
        let old := readP (regs s c x) n
        if n = p.toNat then (if m = 1 then old && k else if m = 2 then old || k else k)
        else if n = (p ^^^ 1).toNat then (if m = 1 then old || !k else if m = 2 then old && !k else !k)
        else old)

/-- A compare whose guard is false clears its pair in unconditional mode and does nothing otherwise (R206, R207). -/
def Sys2Proof.Claims.FalseGuardedComparesClearTheirPair : Prop :=
  ∀ (s : State) (c x : Nat) (i : Instr) (op : SlotOp) (p : BitVec 4) (m : BitVec 2) (k : Bool) (fl : Flags),
    slotOp i = some op → condOf (regs s c x) i = some (p, m, k, fl) →
    s.t.fcore = c → (getCore s c).running = some x → guardOf op.h (regs s c x) = false → PlainPlace (regs s c x) →
    ∃ t, exec i s = .next t ∧ OnlyRegs s t c x ∧
      PredsBecome (regs s c x) (regs t c x) 0 (fun n =>
        if m = 3 ∧ (n = p.toNat ∨ n = (p ^^^ 1).toNat) then false else readP (regs s c x) n)

/-- A predicate operation writes its predicate and not the partner (R247). -/
def Sys2Proof.Claims.PredicateOperationsWriteOnePredicate : Prop :=
  ∀ (s : State) (c x : Nat) (i : Instr) (rc : List Nat) (p : BitVec 4) (k : Bool),
    Fires s c x i rc → predOf (regs s c x) i = some (p, k) →
    ∃ t, exec i s = .next t ∧ OnlyRegs s t c x ∧
      PredsBecome (regs s c x) (regs t c x) 0 (fun n => if n = p.toNat then k else readP (regs s c x) n)

/-- Compares, their false-guarded forms and the predicate operations (R206, R207, R243, R245, R247). -/
def Obligations.PredicatesAreWritten : Prop :=
  Sys2Proof.Claims.ComparesWriteTheirPair ∧ Sys2Proof.Claims.FalseGuardedComparesClearTheirPair ∧ Sys2Proof.Claims.PredicateOperationsWriteOnePredicate

/-! ## Vector operations (R266 to R285) -/

namespace Sys2Proof.Claims

open Sys2Proof.Machine

/-- What is written of element `e` in an active lane, with its flags (R267). -/
structure VSpec where
  u : Unit2
  lat : Nat
  /-- element width -/
  w : Nat
  d : BitVec 6
  val : Nat → Res

/-- A vector register `V` and its flags `fl` follow a specification: held lanes keep what `old` has, each element of an active lane has
its value modulo 2^w, and the flags are those of active lanes (R267). -/
abbrev Follows (s : State) (c x : Nat) (p : VSpec) (V : Wide) (fl : Flags) : Prop :=
  (∀ e, e < 2048 / p.w → el p.w V e =
    if active s c x p.u (e * p.w / 32) then (p.val e).1 % 2 ^ p.w else el p.w (vv s c x (vFile p.u) p.d) e) ∧
  (∀ j, j < 6 → (fl.getLsbD j = true ↔ ∃ e, e < 2048 / p.w ∧ active s c x p.u (e * p.w / 32) = true ∧ (p.val e).2.getLsbD j = true))

/-- The operations with a type of their own (R269). -/
inductive VKind where
  | add | sub | mul | fma | min | max | sadd | ssub

/-- The typed operations: kind, type, unit, destination and sources (R268). -/
def vTyped : Instr → Option (VKind × ElTy × Unit2 × BitVec 6 × BitVec 6 × BitVec 6)
  | .vaddI8 _ u d a b => some (.add, .i 8, u, d, a, b)
  | .vaddI16 _ u d a b => some (.add, .i 16, u, d, a, b)
  | .vaddI32 _ u d a b => some (.add, .i 32, u, d, a, b)
  | .vaddF16 _ u d a b => some (.add, .f .f16, u, d, a, b)
  | .vaddB16 _ u d a b => some (.add, .f .b16, u, d, a, b)
  | .vaddF32 _ u d a b => some (.add, .f .f32, u, d, a, b)
  | .vsubI8 _ u d a b => some (.sub, .i 8, u, d, a, b)
  | .vsubI16 _ u d a b => some (.sub, .i 16, u, d, a, b)
  | .vsubI32 _ u d a b => some (.sub, .i 32, u, d, a, b)
  | .vsubF16 _ u d a b => some (.sub, .f .f16, u, d, a, b)
  | .vsubB16 _ u d a b => some (.sub, .f .b16, u, d, a, b)
  | .vsubF32 _ u d a b => some (.sub, .f .f32, u, d, a, b)
  | .vmulI8 _ u d a b => some (.mul, .i 8, u, d, a, b)
  | .vmulI16 _ u d a b => some (.mul, .i 16, u, d, a, b)
  | .vmulI32 _ u d a b => some (.mul, .i 32, u, d, a, b)
  | .vmulF16 _ u d a b => some (.mul, .f .f16, u, d, a, b)
  | .vmulB16 _ u d a b => some (.mul, .f .b16, u, d, a, b)
  | .vmulF32 _ u d a b => some (.mul, .f .f32, u, d, a, b)
  | .vfmaI8 _ u d a b => some (.fma, .i 8, u, d, a, b)
  | .vfmaI16 _ u d a b => some (.fma, .i 16, u, d, a, b)
  | .vfmaI32 _ u d a b => some (.fma, .i 32, u, d, a, b)
  | .vfmaF16 _ u d a b => some (.fma, .f .f16, u, d, a, b)
  | .vfmaB16 _ u d a b => some (.fma, .f .b16, u, d, a, b)
  | .vfmaF32 _ u d a b => some (.fma, .f .f32, u, d, a, b)
  | .vminI8 _ u d a b => some (.min, .i 8, u, d, a, b)
  | .vminI16 _ u d a b => some (.min, .i 16, u, d, a, b)
  | .vminI32 _ u d a b => some (.min, .i 32, u, d, a, b)
  | .vminN8 _ u d a b => some (.min, .n 8, u, d, a, b)
  | .vminN16 _ u d a b => some (.min, .n 16, u, d, a, b)
  | .vminN32 _ u d a b => some (.min, .n 32, u, d, a, b)
  | .vminF16 _ u d a b => some (.min, .f .f16, u, d, a, b)
  | .vminB16 _ u d a b => some (.min, .f .b16, u, d, a, b)
  | .vminF32 _ u d a b => some (.min, .f .f32, u, d, a, b)
  | .vmaxI8 _ u d a b => some (.max, .i 8, u, d, a, b)
  | .vmaxI16 _ u d a b => some (.max, .i 16, u, d, a, b)
  | .vmaxI32 _ u d a b => some (.max, .i 32, u, d, a, b)
  | .vmaxN8 _ u d a b => some (.max, .n 8, u, d, a, b)
  | .vmaxN16 _ u d a b => some (.max, .n 16, u, d, a, b)
  | .vmaxN32 _ u d a b => some (.max, .n 32, u, d, a, b)
  | .vmaxF16 _ u d a b => some (.max, .f .f16, u, d, a, b)
  | .vmaxB16 _ u d a b => some (.max, .f .b16, u, d, a, b)
  | .vmaxF32 _ u d a b => some (.max, .f .f32, u, d, a, b)
  | .vsaddI8 _ u d a b => some (.sadd, .i 8, u, d, a, b)
  | .vsaddI16 _ u d a b => some (.sadd, .i 16, u, d, a, b)
  | .vsaddI32 _ u d a b => some (.sadd, .i 32, u, d, a, b)
  | .vsaddN8 _ u d a b => some (.sadd, .n 8, u, d, a, b)
  | .vsaddN16 _ u d a b => some (.sadd, .n 16, u, d, a, b)
  | .vsaddN32 _ u d a b => some (.sadd, .n 32, u, d, a, b)
  | .vssubI8 _ u d a b => some (.ssub, .i 8, u, d, a, b)
  | .vssubI16 _ u d a b => some (.ssub, .i 16, u, d, a, b)
  | .vssubI32 _ u d a b => some (.ssub, .i 32, u, d, a, b)
  | .vssubN8 _ u d a b => some (.ssub, .n 8, u, d, a, b)
  | .vssubN16 _ u d a b => some (.ssub, .n 16, u, d, a, b)
  | .vssubN32 _ u d a b => some (.ssub, .n 32, u, d, a, b)
  | _ => none

/-- An integer element's value: two's complement for the .i types (R266). -/
def intVal (t : ElTy) (b : Nat) : Int :=
  match t with
  | .i w => if 2 ^ (w - 1) ≤ b then (b : Int) - 2 ^ w else b
  | _ => b
/-- The least and the greatest value of an integer type (R124). -/
def intLo : ElTy → Int
  | .i w => -(2 ^ (w - 1) : Int)
  | _ => 0
def intHi : ElTy → Int
  | .i w => 2 ^ (w - 1) - 1
  | .n w => 2 ^ w - 1
  | .f _ => 0

/-- An integer operation's value before it is stored modulo 2^w (R269). -/
def intOp (k : VKind) (t : ElTy) (x y z : Int) : Int :=
  match k with
  | .add => x + y
  | .sub => x - y
  | .mul => x * y
  | .fma => x * y + z
  | .min => min x y
  | .max => max x y
  | .sadd => max (intLo t) (min (intHi t) (x + y))
  | .ssub => max (intLo t) (min (intHi t) (x - y))

/-- A floating-point operation's encoding and flags (R126, R127, R269). -/
def floatOp (k : VKind) (f : Ff) (x y z : Nat) : Res :=
  let r (p : FV × Flags) : Res := ((roundFV f 0 p.1).1, (roundFV f 0 p.1).2 ||| p.2)
  match k with
  | .add => r (fvAdd (unpack f x) (unpack f y))
  | .sub => r (fvAdd (unpack f x) (unpack f y).neg)
  | .mul => r (fvMul (unpack f x) (unpack f y))
  | .fma => r (fvFma (unpack f x) (unpack f y) (unpack f z))
  | .min => fMinMax false f x y
  | .max => fMinMax true f x y
  | _ => (0, 0)

/-- The remainder of an integer by 2^w, as stored. -/
def stored (w : Nat) (n : Int) : Nat := (n % 2 ^ w).toNat

/-- The integer forms of R269 and R270 with the latency 2 of R227. -/
def vIntSpec (s : State) (c x : Nat) (i : Instr) : Option VSpec :=
  let g (u : Unit2) (w : Nat) (n : BitVec 6) (e : Nat) : Nat := el w (vv s c x (vFile u) n) e
  let sh (u : Unit2) (w : Nat) (d a b : BitVec 6) (f : Nat → Nat → Int) : Option VSpec :=
    some ⟨u, 2, w, d, fun e => (stored w (f (g u w a e) (g u w b e % w)), 0)⟩
  match vTyped i with
  | some (_, .f _, _) => none
  | some (k, t, u, d, a, b) =>
    let w := t.width
    let y (n : BitVec 6) (e : Nat) : Int := intVal t (g u w n e)
    some ⟨u, 2, w, d, fun e => (stored w (intOp k t (y a e) (y b e) (y d e)), 0)⟩
  | none => match i with
    | .vshl8 _ u d a b => sh u 8 d a b (fun x n => x * 2 ^ n)
    | .vshl16 _ u d a b => sh u 16 d a b (fun x n => x * 2 ^ n)
    | .vshl32 _ u d a b => sh u 32 d a b (fun x n => x * 2 ^ n)
    | .vshr8 _ u d a b => sh u 8 d a b (fun x n => (x : Int) / 2 ^ n)
    | .vshr16 _ u d a b => sh u 16 d a b (fun x n => (x : Int) / 2 ^ n)
    | .vshr32 _ u d a b => sh u 32 d a b (fun x n => (x : Int) / 2 ^ n)
    | .vsar8 _ u d a b => sh u 8 d a b (fun x n => intVal (.i 8) x / 2 ^ n)
    | .vsar16 _ u d a b => sh u 16 d a b (fun x n => intVal (.i 16) x / 2 ^ n)
    | .vsar32 _ u d a b => sh u 32 d a b (fun x n => intVal (.i 32) x / 2 ^ n)
    | _ => none

/-- The type that TY names (R219). -/
def tyOf (t : BitVec 4) : ElTy :=
  match t.toNat with
  | 0 => .i 8
  | 1 => .i 16
  | 2 => .i 32
  | 3 => .n 8
  | 4 => .n 16
  | 5 => .n 32
  | 6 => .f .f16
  | 7 => .f .b16
  | _ => .f .f32

/-- VABS and VNEG: an integer modulo 2^w, or the sign bit of a floating-point element cleared or inverted (R127, R269). -/
def absOp (t : ElTy) (b : Nat) : Nat :=
  match t with
  | .f _ => b % 2 ^ (t.width - 1)
  | _ => stored t.width (max (intVal t b) (-(intVal t b)))
def negOp (t : ElTy) (b : Nat) : Nat :=
  match t with
  | .f _ => (b + 2 ^ (t.width - 1)) % 2 ^ t.width
  | _ => stored t.width (-(intVal t b))

/-- The floating-point forms of R269, VABS and VNEG, and the functions of one element: VEXP2 to VRSQ, VSCL (R278, R281). -/
def vFloatSpec (s : State) (c x : Nat) (i : Instr) : Option VSpec :=
  let g (u : Unit2) (w : Nat) (n : BitVec 6) (e : Nat) : Nat := el w (vv s c x (vFile u) n) e
  let scl (u : Unit2) (f : Ff) (d a b : BitVec 6) : Option VSpec :=
    some ⟨u, 4, f.width, d, fun e => match unpack f (g u f.width a e) with
      | .fin n m q => roundFV f 0 (.fin n m (q + intVal (.i f.width) (g u f.width b e)))
      | v => roundFV f 0 v⟩
  match vTyped i with
  | some (k, .f f, u, d, a, b) => some ⟨u, 4, f.width, d, fun e => floatOp k f (g u f.width a e) (g u f.width b e) (g u f.width d e)⟩
  | some _ => none
  | none => match i with
    | .vabs _ u d a t => some ⟨u, 2, (tyOf t).width, d, fun e => (absOp (tyOf t) (g u (tyOf t).width a e), 0)⟩
    | .vneg _ u d a t => some ⟨u, 2, (tyOf t).width, d, fun e => (negOp (tyOf t) (g u (tyOf t).width a e), 0)⟩
    | .vexp2 _ u d a => some ⟨u, 8, 32, d, fun e => fExp2 (g u 32 a e)⟩
    | .vlog2 _ u d a => some ⟨u, 8, 32, d, fun e => fLog2 (g u 32 a e)⟩
    | .vrcp _ u d a => some ⟨u, 8, 32, d, fun e => fRcp (g u 32 a e)⟩
    | .vrsq _ u d a => some ⟨u, 8, 32, d, fun e => fRsq (g u 32 a e)⟩
    | .vsclF16 _ u d a b => scl u .f16 d a b
    | .vsclB16 _ u d a b => scl u .b16 d a b
    | .vsclF32 _ u d a b => scl u .f32 d a b
    | _ => none

/-- The operations that move bits: VSET, VSPLAT, VAND, VOR, VXOR, VSEL, VPERM, VROT, XFER (R271, R272, R274, R283, R284). -/
def vMoveSpec (s : State) (c x : Nat) (i : Instr) : Option VSpec :=
  let g (u : Unit2) (w : Nat) (n : BitVec 6) (e : Nat) : Nat := el w (vv s c x (vFile u) n) e
  let one (u : Unit2) (lat w : Nat) (d : BitVec 6) (f : Nat → Nat) : Option VSpec := some ⟨u, lat, w, d, fun e => (f e, 0)⟩
  match i with
  | .vset8 _ u d k => one u 2 8 d (fun _ => stored 8 k.toInt)
  | .vset16 _ u d k => one u 2 16 d (fun _ => stored 16 k.toInt)
  | .vset32 _ u d k => one u 2 32 d (fun _ => stored 32 k.toInt)
  | .vsplat _ u d a t => one u 2 (tyOf t).width d (fun _ => (sv (regs s c x) a).toNat)
  | .vand _ u d a b => one u 2 32 d (fun e => g u 32 a e &&& g u 32 b e)
  | .vor _ u d a b => one u 2 32 d (fun e => g u 32 a e ||| g u 32 b e)
  | .vxor _ u d a b => one u 2 32 d (fun e => g u 32 a e ^^^ g u 32 b e)
  | .vsel _ u d a k => one u 2 32 d (fun e => if (readK (regs s c x) (vFile u) k.toNat).getLsbD e then g u 32 a e else g u 32 d e)
  | .vperm _ u d a b => one u 3 8 d (fun j => g u 8 a (g u 8 b j))
  | .vrot _ u d a k => one u 2 32 d (fun l => g u 32 a ((l + k.toNat) % 64))
  | .xfer _ u d a => one u 2 32 d (fun l => el 32 (vv s c x (!vFile u) a) l)
  | _ => none

/-- The class of a VCVT code (R219). -/
def clsOf (t : BitVec 3) : ElTy :=
  match t.toNat with
  | 0 => .i 8
  | 1 => .i 16
  | 2 => .i 32
  | 3 => .n 8
  | 4 => .n 16
  | 5 => .f .f16
  | 6 => .f .b16
  | _ => .f .f32

/-- The conversion of R131 between two classes of VCVT. -/
def cvtCls (dt st : ElTy) (rm : BitVec 2) (b : Nat) : Res :=
  match st, dt with
  | .f f, .f g => roundFV g rm (unpack f b)
  | .f f, t => let p := cvtInt (intLo t) (intHi t) rm (.real (unpack f b)); (stored t.width p.1, p.2)
  | t, .f g => roundFV g rm (.ofInt (intVal t b))
  | t, t' => let p := cvtInt (intLo t') (intHi t') rm (.int (intVal t b)); (stored t'.width p.1, p.2)

/-- VCVT: the conversion of as many elements as both classes hold, the rest of the register zero (R277). -/
def vCvtSpec (s : State) (c x : Nat) (i : Instr) : Option VSpec :=
  let go (rm : BitVec 2) (u : Unit2) (d a : BitVec 6) (dc sc : BitVec 3) : Option VSpec :=
    let dt := clsOf dc
    let st := clsOf sc
    some ⟨u, 4, dt.width, d, fun e =>
      if e < min (2048 / st.width) (2048 / dt.width) then cvtCls dt st rm (el st.width (vv s c x (vFile u) a) e) else (0, 0)⟩
  match i with
  | .vcvtRn _ u d a dc sc => go 0 u d a dc sc
  | .vcvtRz _ u d a dc sc => go 1 u d a dc sc
  | .vcvtRu _ u d a dc sc => go 2 u d a dc sc
  | .vcvtRd _ u d a dc sc => go 3 u d a dc sc
  | _ => none

/-- VDQ: element `e` of two Q4 blocks at a byte offset, in FP16 (R280, R136 to R139). -/
def vDqSpec (s : State) (c x : Nat) (i : Instr) : Option VSpec :=
  match i with
  | .vdq _ u d a b =>
    let A := vv s c x (vFile u) a
    let B := vv s c x (vFile u) b
    let byte (j k : Nat) : Nat := el 8 A ((el 8 B 4 + 34 * j + k) % 256)
    some ⟨u, 4, 16, d, fun e =>
      let j := e / 64
      let k := e % 64
      let bs := q4Scale (el 32 B 0) (byte j 0) (byte j 1 % 4)
      let code := if k % 2 = 0 then byte j (2 + k / 2) % 16 else byte j (2 + k / 2) / 16
      let p := fvMul (unpack .f32 bs.1) (.ofInt (q4Level (byte j 1 % 4) code))
      let r := roundFV .f16 0 p.1
      (r.1, r.2 ||| p.2 ||| (if bs.2.getLsbD 0 then 1 else 0))⟩
  | _ => none

/-- The element conditions of VCMP with their flags (R127, R273). -/
def vCond (t : ElTy) (k : BitVec 3) (x y : Nat) : Bool × Flags :=
  match t with
  | .f f => fCompare k.toNat f x y
  | _ =>
    let a := intVal t x
    let b := intVal t y
    (if k = 0 then decide (a = b) else if k = 1 then decide (a ≠ b) else if k = 2 then decide (a < b) else decide (a ≤ b), 0)

/-- The typed compares. -/
def vCmps : Instr → Option (ElTy × Unit2 × BitVec 3 × BitVec 3 × BitVec 6 × BitVec 6)
  | .vcmpI8 _ u d k a b => some (.i 8, u, d, k, a, b)
  | .vcmpI16 _ u d k a b => some (.i 16, u, d, k, a, b)
  | .vcmpI32 _ u d k a b => some (.i 32, u, d, k, a, b)
  | .vcmpN8 _ u d k a b => some (.n 8, u, d, k, a, b)
  | .vcmpN16 _ u d k a b => some (.n 16, u, d, k, a, b)
  | .vcmpN32 _ u d k a b => some (.n 32, u, d, k, a, b)
  | .vcmpF16 _ u d k a b => some (.f .f16, u, d, k, a, b)
  | .vcmpB16 _ u d k a b => some (.f .b16, u, d, k, a, b)
  | .vcmpF32 _ u d k a b => some (.f .f32, u, d, k, a, b)
  | _ => none

/-- KOP: unit, destination and value (R275). -/
def kopOf (r : Regs) (i : Instr) : Option (Unit2 × BitVec 3 × Word) :=
  let k (u : Unit2) (n : BitVec 3) : Word := readK r (vFile u) n.toNat
  match i with
  | .kopAnd _ u d a b => some (u, d, k u a &&& k u b)
  | .kopOr _ u d a b => some (u, d, k u a ||| k u b)
  | .kopXor _ u d a b => some (u, d, k u a ^^^ k u b)
  | .kopAndn _ u d a b => some (u, d, k u a &&& ~~~k u b)
  | .kopNot _ u d a => some (u, d, ~~~k u a)
  | .kopMov _ u d a => some (u, d, k u a)
  | _ => none

/-- A reduction: its kind, unit, destination, source and type (R282). -/
def vRed : Instr → Option (RedKind × Unit2 × BitVec 6 × BitVec 6 × ElTy)
  | .vreds _ u d a t => some (.sum, u, d, a, tyOf t)
  | .vredm _ u d a t => some (.max, u, d, a, tyOf t)
  | .vredn _ u d a t => some (.min, u, d, a, tyOf t)
  | _ => none

/-- The node `i` of level `n` of the tree over leaves `f` (R144): level 0 are the leaves. -/
def treeNode (op : Res → Res → Res) (f : Nat → Res) : Nat → Nat → Res
  | 0, i => f i
  | n + 1, i => op (treeNode op f n (2 * i)) (treeNode op f n (2 * i + 1))

/-- An integer sum, maximum or minimum of 32-bit words read as a type reads them (R282). -/
def redInt (k : RedKind) (signed : Bool) (x y : Nat) : Nat :=
  let v (n : Nat) : Int := if signed then intVal (.i 32) n else n
  match k with
  | .sum => (x + y) % 2 ^ 32
  | .max => stored 32 (max (v x) (v y))
  | .min => stored 32 (min (v x) (v y))

/-- A node of a reduction, flags gathered (R282). -/
def redOp (k : RedKind) (t : ElTy) (a b : Res) : Res :=
  match t with
  | .f _ =>
    let o : VKind := (match k with
      | .sum => VKind.add
      | .max => VKind.max
      | .min => VKind.min)
    let p : Res := floatOp o .f32 a.1 b.1 0
    (p.1, p.2 ||| a.2 ||| b.2)
  | .i _ => (redInt k true a.1 b.1, a.2 ||| b.2)
  | .n _ => (redInt k false a.1 b.1, a.2 ||| b.2)

/-- The value of the magnitude bits `b` of a format, the place of infinity taken as the next power of two. -/
def magnitude (f : Ff) (b : Nat) : Rat :=
  let ex := b / 2 ^ f.fb
  let fr := b % 2 ^ f.fb
  if ex = 0 then (fr : Rat) * 2 ^ (1 - (f.bias : Int) - f.fb) else ((fr + 2 ^ f.fb : Nat) : Rat) * 2 ^ ((ex : Int) - f.bias - f.fb)

end Sys2Proof.Claims

/-- The integer element operations: add, subtract, multiply, multiply-add, minimum, maximum, saturating sums and shifts, element by
element on active lanes; held lanes keep the destination (R266, R267, R269, R270). -/
def Sys2Proof.Claims.VectorIntegerResults : Prop :=
  ∀ (s : State) (c x : Nat) (i : Instr) (rc : List Nat) (p : VSpec), Fires s c x i rc → vIntSpec s c x i = some p →
    ∃ V, exec i s = .next (toV s c x p.lat (vFile p.u) p.d V 0) ∧ Follows s c x p V 0

/-- The floating-point element operations, VABS and VNEG, the four functions and VSCL, one rounding each, flags from active lanes
(R267, R269, R278, R281). -/
def Sys2Proof.Claims.VectorFloatResults : Prop :=
  ∀ (s : State) (c x : Nat) (i : Instr) (rc : List Nat) (p : VSpec), Fires s c x i rc → vFloatSpec s c x i = some p →
    ∃ V fl, exec i s = .next (toV s c x p.lat (vFile p.u) p.d V fl) ∧ Follows s c x p V fl

/-- The moves: immediates, splats, bitwise operations, selection by a mask, byte permutation, lane rotation and the transfer from
the other file (R271, R272, R274, R283, R284). -/
def Sys2Proof.Claims.VectorMoveResults : Prop :=
  ∀ (s : State) (c x : Nat) (i : Instr) (rc : List Nat) (p : VSpec), Fires s c x i rc → vMoveSpec s c x i = some p →
    ∃ V, exec i s = .next (toV s c x p.lat (vFile p.u) p.d V 0) ∧ Follows s c x p V 0

/-- The vector integer operations and the moves. -/
def Obligations.VectorIntegerAndMoveResults : Prop :=
  Sys2Proof.Claims.VectorIntegerResults ∧ Sys2Proof.Claims.VectorMoveResults

/-- VCVT in its four rounding modes and VDQ (R277, R280). -/
def Sys2Proof.Claims.VectorConversionResults : Prop :=
  ∀ (s : State) (c x : Nat) (i : Instr) (rc : List Nat) (p : VSpec), Fires s c x i rc →
    (vCvtSpec s c x i = some p ∨ vDqSpec s c x i = some p) →
    ∃ V fl, exec i s = .next (toV s c x p.lat (vFile p.u) p.d V fl) ∧ Follows s c x p V fl

/-- The vector floating-point operations and the conversions. -/
def Obligations.VectorFloatAndConversionResults : Prop :=
  Sys2Proof.Claims.VectorFloatResults ∧ Sys2Proof.Claims.VectorConversionResults

/-- VQMX: each 32 of the 128 FP32 values of a and b become a block of R134: its bytes at its places, its scale at byte 128 + q, zero
above byte 131; the hold mask plays no part (R279). -/
def Obligations.QuantiseResults : Prop :=
  ∀ (s : State) (c x : Nat) (i : Instr) (rc : List Nat) (h : Hd) (u : Unit2) (d a b : BitVec 6) (rm : BitVec 2), Fires s c x i rc →
    (i = .vqmxRn h u d a b ∧ rm = 0 ∨ i = .vqmxRz h u d a b ∧ rm = 1 ∨ i = .vqmxRu h u d a b ∧ rm = 2 ∨ i = .vqmxRd h u d a b ∧ rm = 3) →
    let val (n : Nat) : FV := unpack .f32 (if n < 64 then el 32 (vv s c x (vFile u) a) n else el 32 (vv s c x (vFile u) b) (n - 64))
    let blk (q : Nat) : Nat × List Nat × Flags := mxQuant rm ((List.range 32).map (fun k => val (32 * q + k)))
    ∃ V, exec i s = .next (toV s c x 6 (vFile u) d V ((blk 0).2.2 ||| (blk 1).2.2 ||| (blk 2).2.2 ||| (blk 3).2.2)) ∧
      (∀ q k, q < 4 → k < 32 → el 8 V (32 * q + k) = (blk q).2.1.getD k 0 % 256) ∧
      (∀ q, q < 4 → el 8 V (128 + q) = (blk q).1 % 256) ∧ (∀ k, 132 ≤ k → k < 256 → el 8 V k = 0)

/-- VCMP: a bit of the lane mask is 1 where the condition holds for every element of the lane, and keeps its value where the lane is
held (R273). -/
def Sys2Proof.Claims.VectorCompareResults : Prop :=
  ∀ (s : State) (c x : Nat) (i : Instr) (rc : List Nat) (t : ElTy) (u : Unit2) (d k : BitVec 3) (a b : BitVec 6), Fires s c x i rc →
    vCmps i = some (t, u, d, k, a, b) →
    let w := t.width
    let cond (e : Nat) : Bool × Flags := vCond t k (el w (vv s c x (vFile u) a) e) (el w (vv s c x (vFile u) b) e)
    ∃ K fl, exec i s = .next (postResult s c x 2 (.k (vFile u) d.toNat) (BitVec.setWidth 2048 (K : Word)) fl) ∧
      (∀ l, l < 64 → (K.getLsbD l = true ↔
        if active s c x u l then ∀ j, j < 32 / w → (cond (l * (32 / w) + j)).1 = true
        else (readK (regs s c x) (vFile u) d.toNat).getLsbD l = true)) ∧
      (∀ j, j < 6 → (fl.getLsbD j = true ↔ ∃ e, e < 2048 / w ∧ active s c x u (e * w / 32) = true ∧ (cond e).2.getLsbD j = true))

/-- VTEST counts the set and the active lanes at issue and writes its predicates and VCOUNT two cycles later, in its order: any,
none, all (R209, R276). -/
def Sys2Proof.Claims.VectorTestResults : Prop :=
  (∀ (s : State) (c x : Nat) (rc : List Nat) (h : Hd) (u : Unit2) (p q : BitVec 4) (a : BitVec 6),
    Fires s c x (.vtest h u p q a) rc →
    let act := (List.range 64).filter (active s c x u)
    exec (.vtest h u p q a) s = .next (postResult s c x 3
      (.vtest p q (act.filter (fun l => el 32 (vv s c x (vFile u) a) l ≠ 0)).length act.length) 0)) ∧
  (∀ (s : State) (c x id n m : Nat) (p q : BitVec 4) (l : Landing),
    (getCtx s c x).landings.find? (fun l => l.id = id) = some l → l.dst = .vtest p q n m → l.req = none → l.ue = none →
    l.due ≤ s.t.now → l.flags = 0 →
    ∃ t, exec (.registerResultLanding c x id) s = .next t ∧ (regs t c x).vcount = n ∧
      ∀ k, k < 16 → readP (regs t c x) k =
        if k = 0 then true else if k = q.toNat then decide (n = m) else if k = (p ^^^ 1).toNat then decide (n = 0)
        else if k = p.toNat then decide (n ≠ 0) else readP (regs s c x) k)

/-- KOP works on whole lane masks at once and ignores the hold mask; its destination is never empty (R275). -/
def Sys2Proof.Claims.MaskOperationResults : Prop :=
  ∀ (s : State) (c x : Nat) (i : Instr) (rc : List Nat) (u : Unit2) (d : BitVec 3) (v : Word), Fires s c x i rc →
    kopOf (regs s c x) i = some (u, d, v) →
    ∃ t, exec i s = .next t ∧ readK (regs t c x) (vFile u) d.toNat = v ∧ emptyK (regs t c x) (vFile u) d.toNat = false ∧
      t = postResult s c x 1 (.k (vFile u) d.toNat) (v.setWidth 2048)

/-- The operations that read or write lane masks, and VTEST. -/
def Sys2Proof.Claims.VectorMaskResults : Prop :=
  Sys2Proof.Claims.VectorCompareResults ∧ Sys2Proof.Claims.VectorTestResults ∧ Sys2Proof.Claims.MaskOperationResults

/-- VREDS, VREDM and VREDN: the pairwise tree of R144 over the elements, held lanes giving the identity; lane 0 gets the result, the
other lanes zero (R282). -/
def Sys2Proof.Claims.VectorReductionResults : Prop :=
  ∀ (s : State) (c x : Nat) (i : Instr) (rc : List Nat) (k : RedKind) (u : Unit2) (d a : BitVec 6) (t : ElTy), Fires s c x i rc →
    vRed i = some (k, u, d, a, t) →
    let w := t.width
    let leaf (e : Nat) : Res :=
      (if active s c x u (e * w / 32) then redLeaf t (el w (vv s c x (vFile u) a) e) else redIdent k t, 0)
    let r := treeNode (redOp k t) leaf (2048 / w).log2 0
    ∃ V, exec i s = .next (toV s c x 6 (vFile u) d V r.2) ∧ el 32 V 0 = r.1 % 2 ^ 32 ∧ ∀ l, 1 ≤ l → l < 64 → el 32 V l = 0

/-- The vector operations on masks and over lanes (R275, R276, R282). -/
def Obligations.VectorMaskAndReductionResults : Prop :=
  Sys2Proof.Claims.VectorMaskResults ∧ Sys2Proof.Claims.VectorReductionResults

/-- VFRAME moves its file's frame base by 64 registers a step; where the frame would leave the grant it takes the privileged trap, class
12, and the base stays (R34, R285). -/
def Obligations.FrameMovesInsideTheGrant : Prop :=
  ∀ (s : State) (c x : Nat) (h : Hd) (u : Unit2) (st : BitVec 7), s.t.fcore = c → (getCore s c).running = some x →
    oddOfPair c (getCtx s c x) = false → guardOf h (regs s c x) = true → PlainPlace (regs s c x) →
    let f := vFile u
    let g := if f then (getCtx s c x).j.granty else (getCtx s c x).j.grantx
    let new : Int := (vfb (regs s c x) f).toNat + 64 * st.toInt
    if (g.1 : Int) ≤ new ∧ new + 64 ≤ g.1 + g.2 then
      ∃ t, exec (.vframe h u st) s = .next t ∧ OnlyRegs s t c x ∧
        regs t c x = (if f then { regs s c x with vfby := BitVec.ofInt 12 new } else { regs s c x with vfbx := BitVec.ofInt 12 new })
    else exec (.vframe h u st) s = .next (takeTrap s c x 12 0 (if f then 2 else 1) 0 (regs s c x).pc)

/-- The one rounding to a format, to nearest even, is right for every exact magnitude m x 2^e: neither neighbour of the result is
nearer, a tie goes to the even one, and NX tells exactly whether the result differs from the value (R126, R128). -/
def Obligations.RoundingIsToNearestEven : Prop :=
  ∀ (f : Ff) (neg : Bool) (m : Nat) (e : Int), m ≠ 0 →
    ∃ b, (roundMag f 0 neg m e false).1 = f.zero neg + b ∧ b ≤ f.inf false ∧
      let v : Rat := (m : Rat) * 2 ^ e
      (b ≠ 0 → magnitude f (b - 1) + magnitude f b ≤ 2 * v ∧ (magnitude f (b - 1) + magnitude f b = 2 * v → b % 2 = 0)) ∧
      (b ≠ f.inf false → 2 * v ≤ magnitude f b + magnitude f (b + 1) ∧ (2 * v = magnitude f b + magnitude f (b + 1) → b % 2 = 0)) ∧
      ((roundMag f 0 neg m e false).2.getLsbD 4 = true ↔ (b = f.inf false ∨ magnitude f b ≠ v)) ∧
      ((roundMag f 0 neg m e false).2.getLsbD 2 = true ↔ b = f.inf false)

/-! ## Matrix array (R286 to R301) -/

namespace Sys2Proof.Claims

open Sys2Proof.Machine

/-- The matrix array of a core. -/
abbrev mx (s : State) (c : Nat) : Matrix := (getCore s c).mx
/-- Unit and column that WBU selects under a B format (R289). -/
def unitCol (bf : BitVec 4) (wbu : BitVec 12) : Nat × Nat :=
  if bf = 8 then (wbu.toNat / 64, wbu.toNat % 64) else if bf = 10 then (wbu.toNat / 256, wbu.toNat % 256)
  else (wbu.toNat / 128, wbu.toNat % 128)
/-- Level `i` of a column under a B format (R289, R290). -/
def levelOf (m : Matrix) (bf : BitVec 4) (u p i : Nat) : Int :=
  let byte (o : Nat) : Nat := unitByte m u o
  let nib (b k : Nat) : Nat := if k % 2 = 0 then b % 16 else b / 16
  if bf = 9 then q4Level (byte (68 * p + 34 * (i / 64) + 1) % 4) (nib (byte (68 * p + 34 * (i / 64) + 2 + i % 64 / 2)) i)
  else if bf = 10 then (nib (byte (64 * p + i / 2)) i : Int) - 8
  else intVal (.i 8) (byte (128 * p + i))
/-- Block scale `b` of a column in FP32, with its flags (R290). -/
def scaleOf (m : Matrix) (bf : BitVec 4) (u p b : Nat) : Res :=
  let byte (o : Nat) : Nat := unitByte m u o
  if bf = 8 then
    let x := byte (8192 + 4 * p + b)
    (if x = 255 then 0x7FC00000 else (roundFV .f32 0 (.fin false 1 ((x : Int) - 133))).1, 0)
  else if bf = 9 then
    q4Scale (byte 8704 + 256 * byte 8705 + 65536 * byte 8706 + 16777216 * byte 8707) (byte (68 * p + 34 * b)) (byte (68 * p + 34 * b + 1) % 4)
  else (0x3F800000, 0)

end Sys2Proof.Claims

/-- The M operations that set the array up: MCFG the formats and the default operation, MPUSH one decoded column of the shadow set,
MSWAP the exchange of the sets, MCLR a tile of zeros, MFLUSH nothing but its wait (R289, R290, R292 to R294, R300, R301). -/
def Sys2Proof.Claims.MatrixSetUpResults : Prop :=
  (∀ (s : State) (c x : Nat) (rc : List Nat) (h : Hd) (a b : BitVec 4) (o : BitVec 2), Fires s c x (.mcfg h a b o) rc →
    exec (.mcfg h a b o) s = .next (modCore s c (fun k => { k with mx := { k.mx with
      mAF := a, mBF := b, mDEF := if o = 0 then .mad else if o = 1 then .ada else .csl } }))) ∧
  (∀ (s : State) (c x : Nat) (rc : List Nat) (h : Hd) (col : BitVec 6) (w : BitVec 12), Fires s c x (.mpush h col w) rc →
    let bf := (mx s c).mBF
    bf = 0 ∨ bf = 8 ∨ bf = 9 ∨ bf = 10 →
    let u := (unitCol bf w).1
    let p := (unitCol bf w).2
    ∃ new, exec (.mpush h col w) s = .next (modRegs (modCore s c (fun k => { k with mx := { k.mx with shadow := smPut k.mx.shadow col.toNat new } }))
        c x (fun r => { r with fpstat := r.fpstat |||
          (if bf = 9 then ((scaleOf (mx s c) bf u p 0).2 ||| (scaleOf (mx s c) bf u p 1).2) &&& 1 else 0) })) ∧
      new.two = decide (bf = 9) ∧ (∀ i, i < 128 → new.level i = levelOf (mx s c) bf u p i) ∧
      (∀ b, b < (if bf = 9 then 2 else 4) → new.scale b = (scaleOf (mx s c) bf u p b).1)) ∧
  (∀ (s : State) (c x : Nat) (rc : List Nat) (h : Hd), Fires s c x (.mswap h) rc →
    exec (.mswap h) s = .next (modCore s c (fun k => { k with mx := { k.mx with shadow := k.mx.active, active := k.mx.shadow } }))) ∧
  (∀ (s : State) (c x : Nat) (rc : List Nat) (h : Hd) (t : BitVec 2), Fires s c x (.mclr h t) rc →
    ∃ acc, exec (.mclr h t) s = .next (modCore s c (fun k => { k with mx := { k.mx with acc } })) ∧
      ∀ n r, r < 128 → smGet (0 : Wide) acc (128 * n + r) = if n = t.toNat then 0 else accRow (mx s c) n r) ∧
  (∀ (s : State) (c x : Nat) (rc : List Nat) (h : Hd), Fires s c x (.mflush h) rc → exec (.mflush h) s = .next s)

/-- MSHIFT issues one beat that lands at the end of cycle t + 19 with the values its cell operation forms from the vector and the active
columns at issue; BEAT_LANDING adds it to its row, or takes the maximum; MDRAIN reads a row into a vector register, converted, and
leaves the row (R295 to R297, R299). -/
def Sys2Proof.Claims.MatrixBeatResults : Prop :=
  (∀ (s : State) (c x : Nat) (rc : List Nat) (h : Hd) (v : BitVec 6) (f : BitVec 1) (o t : BitVec 2) (r : BitVec 7),
    Fires s c x (.mshift h v f o t r) rc →
    let m := mx s c
    let op : CellOp := if o = 3 then m.mDEF else if o = 0 then .mad else if o = 1 then .ada else .csl
    let a := vv s c x (f = 1) v
    ∃ b : Beat, exec (.mshift h v f o t r) s =
        .next (schedule (modCore s c (fun k => { k with mx := { k.mx with beats := k.mx.beats ++ [b] } })) (s.t.now + 19) (.beatLanding c)) ∧
      b.due = s.t.now + 19 ∧ b.ctx = x ∧ b.tile = t.toNat ∧ b.row = r.toNat ∧ b.op = op ∧
      ∀ n, n < 64 → el 32 b.val n = (match op with
        | .mad => madCol m.mAF a (smGet {} m.active n)
        | .ada => adaCol m.mAF a (smGet {} m.active n)
        | .csl => cslCol m.mAF a (smGet {} m.active n)).1 % 2 ^ 32) ∧
  (∀ (s : State) (c : Nat) (b : Beat) (l : List Beat), (mx s c).beats = b :: l → b.due ≤ s.t.now → (∀ b' ∈ l, s.t.now < b'.due) →
    b.row < 128 →
    ∃ t, exec (.beatLanding c) s = .next t ∧ (mx t c).beats = l ∧
      (∀ n, n < 64 → el 32 (accRow (mx t c) b.tile b.row) n =
        (let old := el 32 (accRow (mx s c) b.tile b.row) n
         if b.op = .csl then fMinMax true .f32 old (el 32 b.val n) else fAdd .f32 old (el 32 b.val n)).1 % 2 ^ 32) ∧
      (∀ i j, j < 128 → (i, j) ≠ (b.tile, b.row) → accRow (mx t c) i j = accRow (mx s c) i j)) ∧
  (∀ (s : State) (c x : Nat) (rc : List Nat) (i : Instr) (fmt : Ff) (h : Hd) (d : BitVec 6) (f : BitVec 1) (t : BitVec 2) (r : BitVec 7),
    Fires s c x i rc →
    (i = .mdrainF32 h d f t r ∧ fmt = .f32 ∨ i = .mdrainF16 h d f t r ∧ fmt = .f16 ∨ i = .mdrainB16 h d f t r ∧ fmt = .b16) →
    let row := accRow (mx s c) t.toNat r.toNat
    let one (k : Nat) : Res := if fmt = .f32 then (el 32 row k, 0) else roundFV fmt 0 (unpack .f32 (el 32 row k))
    ∃ V fl, exec i s = .next (toV s c x 4 (f = 1) d V fl) ∧
      (∀ k, k < 64 → el fmt.width V k = (one k).1) ∧ (∀ k, 64 ≤ k → k < 2048 / fmt.width → el fmt.width V k = 0) ∧
      (∀ j, j < 6 → (fl.getLsbD j = true ↔ ∃ k, k < 64 ∧ (one k).2.getLsbD j = true)))

/-- The matrix array's operations (R286 to R303). -/
def Obligations.MatrixResults : Prop :=
  Sys2Proof.Claims.MatrixSetUpResults ∧ Sys2Proof.Claims.MatrixBeatResults

/-- The multiply-add value of an INT8 vector and a column of scale 1.0 is the FP32 encoding of their exact integer product, which is
exact: no flag is raised in any of its steps (R143, R290, R295). -/
def Obligations.IntegerProductsAreExact : Prop :=
  ∀ (a : Wide) (w : WCol), w.two = false → (∀ b, b < 4 → w.scale b = 0x3F800000) →
    let n : Int := (List.range 128).foldl (fun s k => s + intVal (.i 8) (el 8 a k) * w.level k) 0
    madCol 0 a w = ((roundFV .f32 0 (.ofInt n)).1, 0) ∧ (roundFV .f32 0 (.ofInt n)).2 = 0

/-! ## Scratchpad, tiles and address registers (R200, R305 to R308, R317) -/

namespace Sys2Proof.Claims

open Sys2Proof.Machine

/-- The address register of a C slot, the row and the byte it names with a displacement, and its value afterwards (R200). -/
abbrev areg (s : State) (c x : Nat) (u : Unit2) (r : BitVec 4) : Word := readA (regs s c x) (cFile u) r.toNat
def rowAt (s : State) (c x : Nat) (u : Unit2) (r : BitVec 4) (i : BitVec 3) : Nat := (areg s c x u r).toNat / 256 % 512 + i.toNat
def byteAt (s : State) (c x : Nat) (u : Unit2) (r : BitVec 4) : Nat := (areg s c x u r).toNat % 256
def stepped (s : State) (c x : Nat) (u : Unit2) (r : BitVec 4) : Word :=
  areg s c x u r + (strideOf (regs s c x) (cFile u) r.toNat).signExtend 64

/-- The XOR of a row over the banks of a group. -/
def xorData (k : Core) (g row : Nat) : Wide :=
  rowOf k (4 * g) row ^^^ rowOf k (4 * g + 1) row ^^^ rowOf k (4 * g + 2) row ^^^ rowOf k (4 * g + 3) row
/-- A row as parity tells it: the other three data rows and the parity row (R49). -/
def rebuilt (k : Core) (bank row : Nat) : Wide :=
  rowOf k (32 + bank / 4) row ^^^ xorData k (bank / 4) row ^^^ rowOf k bank row
/-- The queued deltas of a row, together. -/
def deltas (q : List PEntry) (row : Nat) : Wide := q.foldl (fun a e => if e.row = row then a ^^^ e.delta else a) 0
/-- A group's parity covers its data: the parity row with the deltas on their way is the XOR of the data rows (R50). -/
abbrev ParityCovers (k : Core) (g : Nat) : Prop :=
  (∀ e ∈ (getGrp k g).queue, e.row < 512) ∧ ∀ row, row < 512 → rowOf k (32 + g) row ^^^ deltas (getGrp k g).queue row = xorData k g row

/-- What a load may change beside its registers: which banks were used, and the counts of corrected errors. -/
abbrev BankUse (s t : State) (c : Nat) : Prop :=
  t = modCore s c (fun k => { k with sp := (getCore t c).sp }) ∧ (getCore t c).sp.rows = (getCore s c).sp.rows ∧
    (getCore t c).sp.badRows = (getCore s c).sp.badRows ∧ (getCore t c).sp.softRows = (getCore s c).sp.softRows ∧
    (getCore t c).sp.tiles = (getCore s c).sp.tiles ∧ ∀ g, (getGrp (getCore t c) g).queue = (getGrp (getCore s c) g).queue

/-- The width in bytes of the element format of a group, and whether LDS extends its sign (R306). -/
def elWidth (fmt : Nat) : Nat := if fmt = 1 ∨ fmt = 5 ∨ fmt = 6 then 2 else if fmt = 2 ∨ fmt = 7 then 4 else if fmt = 3 then 8 else if fmt ≤ 8 then 1 else 0
def elSigned (fmt o : Nat) : Bool := decide (fmt ≤ 3) || (decide (fmt = 8) && decide (o < 128))

/-- The loads: their file or LDS, unit, destination, bank, address register and displacement. -/
def loadOf : Instr → Option (Option Bool × Unit2 × BitVec 6 × BitVec 5 × BitVec 4 × BitVec 3)
  | .ldvX _ u d b r i => some (some false, u, d, b, r, i)
  | .ldvY _ u d b r i => some (some true, u, d, b, r, i)
  | .lds _ u d b r i => some (none, u, d, b, r, i)
  | _ => none
/-- The stores. -/
def storeOf : Instr → Option (Option Bool × Unit2 × BitVec 6 × BitVec 5 × BitVec 4 × BitVec 3)
  | .stvX _ u d b r i => some (some false, u, d, b, r, i)
  | .stvY _ u d b r i => some (some true, u, d, b, r, i)
  | .sts _ u d b r i => some (none, u, d, b, r, i)
  | _ => none

end Sys2Proof.Claims

/-- LDV and LDS: the row, or one element of it extended by the group's format, 6 cycles later, 8 where the slot reads by
reconstruction; the address register takes its stride at once; no row and no delta changes (R200, R305, R306). -/
def Sys2Proof.Claims.ScratchpadLoadResults : Prop :=
  ∀ (s : State) (c x : Nat) (i : Instr) (rc : List Nat) (k : Option Bool) (u : Unit2) (d : BitVec 6) (b : BitVec 5) (r : BitVec 4)
    (m : BitVec 3), Fires s c x i rc → loadOf i = some (k, u, d, b, r, m) →
    let core := getCore s c
    let row := rowAt s c x u r m
    let recon : Bool := rc.contains (if u = .zero then 4 else 5)
    let content := if recon then rebuilt core b.toNat row else rowOf core b.toNat row
    let o := byteAt s c x u r
    let w := elWidth (getGrp core (b.toNat / 4)).fmt.toNat
    let n := content.toNat / 2 ^ (8 * o) % 2 ^ (8 * w)
    let v : Word := if elSigned (getGrp core (b.toNat / 4)).fmt.toNat o then w64 (intVal (.i (8 * w)) n) else w64 n
    ∃ s' ue, BankUse s s' c ∧ (recon = false → badRow core b.toNat row = false → ue = none) ∧
      exec i s = .next (postResult (match k with
        | some f => postResult s' c x (if recon then 8 else 6) (.v f (vAbs (regs s c x) f d.toNat)) content 0 true ue
        | none => postResult s' c x (if recon then 8 else 6) (.s d.toNat) (v.setWidth 2048) 0 true ue)
        c x 1 (.a (cFile u) r.toNat) ((stepped s c x u r).setWidth 2048))

/-- STV and STS: the row holds the vector register, or the element at its bytes and all else as before; in a retired bank parity tells
it; no other data row changes, and of the registers only the address register, which takes its stride (R56, R200, R305, R306). -/
def Sys2Proof.Claims.ScratchpadStoreResults : Prop :=
  ∀ (s : State) (c x : Nat) (i : Instr) (rc : List Nat) (k : Option Bool) (u : Unit2) (d : BitVec 6) (b : BitVec 5) (r : BitVec 4)
    (m : BitVec 3), Fires s c x i rc → storeOf i = some (k, u, d, b, r, m) →
    let row := rowAt s c x u r m
    let o := byteAt s c x u r
    let w := elWidth (getGrp (getCore s c) (b.toNat / 4)).fmt.toNat
    let gone : Bool := retBank (getCore s c) (b.toNat / 4) = some b.toNat
    let content (t : State) : Wide := if gone then rebuilt (getCore t c) b.toNat row else rowOf (getCore t c) b.toNat row
    ∃ t, exec i s = .next t ∧
      (match k with
        | some f => content t = vv s c x f d
        | none => ∀ n, n < 256 → el 8 (content t) n =
            if o ≤ n ∧ n < o + w then (sv (regs s c x) d).toNat / 256 ^ (n - o) % 256 else el 8 (content s) n) ∧
      (∀ b' r', b' < 32 → r' < 512 → (b' ≠ b.toNat ∨ r' ≠ row ∨ gone = true) →
        rowOf (getCore t c) b' r' = rowOf (getCore s c) b' r') ∧
      regs t c x = writeA (regs s c x) (cFile u) r.toNat (stepped s c x u r) ∧ (getCore t c).vf = (getCore s c).vf ∧
      (getCore t c).sp.tiles = (getCore s c).sp.tiles ∧ ∀ c', c' ≠ c → getCore t c' = getCore s c'

/-- Scratchpad loads and stores (R42, R50, R304 to R308). -/
def Obligations.ScratchpadResults : Prop :=
  Sys2Proof.Claims.ScratchpadLoadResults ∧ Sys2Proof.Claims.ScratchpadStoreResults

/-- Parity keeps covering the data of a group with no bank retired: a store queues the delta that its row needs, and a drained delta
goes into the parity row; this holds in every step of a store and of PARITY_DRAIN (R50). -/
def Obligations.ParityKeepsCovering : Prop :=
  ∀ (s t : State) (c g : Nat) (i : Instr), g < 8 → (getGrp (getCore s c) g).ret = none → (getGrp (getCore s c) g).pret = false →
    ((∃ a, storeOf i = some a) ∧ s.t.fcore = c ∨ i = .parityDrain c g) →
    exec i s = .next t → ParityCovers (getCore s c) g → ParityCovers (getCore t c) g

/-- ASET, AADDI and ASTR: the value or the stride of one address register, at once, the other as before (R308). -/
def Sys2Proof.Claims.AddressRegisterResults : Prop :=
  (∀ (s : State) (c x : Nat) (rc : List Nat) (h : Hd) (u : Unit2) (d : BitVec 4) (a : BitVec 6), Fires s c x (.aset h u d a) rc →
    exec (.aset h u d a) s = .next (postResult s c x 1 (.a (cFile u) d.toNat) ((sv (regs s c x) a).setWidth 2048))) ∧
  (∀ (s : State) (c x : Nat) (rc : List Nat) (h : Hd) (u : Unit2) (d : BitVec 4) (i : BitVec 12), Fires s c x (.aaddi h u d i) rc →
    exec (.aaddi h u d i) s = .next (postResult s c x 1 (.a (cFile u) d.toNat) ((w64 ((areg s c x u d).toNat + i.toInt)).setWidth 2048))) ∧
  (∀ (s : State) (c x : Nat) (rc : List Nat) (h : Hd) (u : Unit2) (d : BitVec 4) (i : BitVec 12), Fires s c x (.astr h u d i) rc →
    ∃ t, exec (.astr h u d i) s = .next t ∧ OnlyRegs s t c x ∧ regs t c x = { regs s c x with strides := (regs t c x).strides } ∧
      ∀ f n, n < 16 → strideOf (regs t c x) f n = if f = cFile u ∧ n = d.toNat then i else strideOf (regs s c x) f n) ∧
  (∀ (s : State) (c x : Nat) (f : Bool) (n : Nat) (v : Word), n < 16 →
    let t := postResult s c x 1 (.a f n) (v.setWidth 2048)
    readA (regs t c x) f n = v ∧ emptyA (regs t c x) f n = false ∧ (regs t c x).strides = (regs s c x).strides ∧
      ∀ g m, m < 16 → (g, m) ≠ (f, n) → readA (regs t c x) g m = readA (regs s c x) g m)

/-- TREL makes an empty or ready tile empty, and changes no other; TSTAT writes its predicate pair from the tile's state (R317). -/
def Sys2Proof.Claims.TileOperationResults : Prop :=
  (∀ (s : State) (c x : Nat) (rc : List Nat) (h : Hd) (u : Unit2) (n : BitVec 8), Fires s c x (.trel h u n) rc →
    let e := (getCtx s c x).j.tbase + n.toNat
    ∃ t, exec (.trel h u n) s = .next t ∧ t = modCore s c (fun k => { k with sp := { k.sp with tiles := (getCore t c).sp.tiles } }) ∧
      (∀ m, tileStOf (getCore s c) m ≠ none → m = e → tileStOf (getCore t c) m = some .empty) ∧
      (∀ m, m ≠ e → getTile (getCore t c) m = getTile (getCore s c) m)) ∧
  (∀ (s : State) (c x : Nat) (rc : List Nat) (h : Hd) (u : Unit2) (p : BitVec 4) (n : BitVec 8), Fires s c x (.tstat h u p n) rc →
    let st := tileStOf (getCore s c) ((getCtx s c x).j.tbase + n.toNat)
    ∃ t, exec (.tstat h u p n) s = .next t ∧ OnlyRegs s t c x ∧
      PredsBecome (regs s c x) (regs t c x) 0 (fun k =>
        if k = (p ^^^ 1).toNat then decide (st = some .empty) else if k = p.toNat then decide (st = some .ready) else readP (regs s c x) k))

/-- ASET, AADDI, ASTR, TREL and TSTAT. -/
def Obligations.AddressRegisterAndTileResults : Prop :=
  Sys2Proof.Claims.AddressRegisterResults ∧ Sys2Proof.Claims.TileOperationResults

/-! ## Copies and coherent accesses (R310, R315, R316, R318 to R321) -/

namespace Sys2Proof.Claims

open Sys2Proof.Machine

/-- The layout unit of a C slot's core port. -/
def unitNo (c : Nat) (u : Unit2) : Nat := 2 * c + (if u = .one then 1 else 0)

/-- The request that a C slot makes at issue: its identifier is the next one, its box is what its quad names (R218). -/
def request (s : State) (c x : Nat) (u : Unit2) (kind : ReqKind) (hint q : BitVec 2) : Req :=
  let v := getCtx s c x
  let b := quadOf v.r (cFile u) q
  let j := (v.j.job.map (getJob s)).getD {}
  { id := s.t.nextId, kind, core := c, ctx := x, job := v.j.job, port := if u = .one then 1 else 0, part := v.j.part
    secure := v.j.secure, tid := b.tid, origin := b.coord, ext := b.ext, hint, issued := s.t.now, clk := v.lc, baddr := v.r.pc
    slot := if u = .one then 5 else 4, seq := s.t.now, mirror := v.j.prot, rank := v.j.rank
    queue := j.queue, coach := j.coach, cores := if j.members = [] then [c] else jobCores j }

/-- A copy's instruction: its unit, counter and request (R310, R315, R316). -/
def copyOf (s : State) (c x : Nat) : Instr → Option (Unit2 × BitVec 4 × Req)
  | .copy _ u n t hint q => some (u, n, { request s c x u .copy hint q with ctr := n.toNat, tile := (getCtx s c x).j.tbase + t.toNat })
  | .copyo _ u n t hint q => some (u, n, { request s c x u .copyo hint q with ctr := n.toNat, tile := (getCtx s c x).j.tbase + t.toNat })
  | .wfill _ u n t hint q => some (u, n, { request s c x u .wfill hint q with ctr := n.toNat, tile := t.toNat })
  | .copyn _ u n t hint q => match nestAt s (codeOfP (getCtx s c x).j) t.toNat with
    | some w => if (nestOf w).dir ≤ 1 then
        some (u, n, { request s c x u .copyn hint q with ctr := n.toNat, tile := (getCtx s c x).j.tbase + (nestOf w).stile, nest := some w })
      else none
    | none => none
  | _ => none

/-- An access's instruction: its unit, its address register and its request (R318 to R320). -/
def accessOf (s : State) (c x : Nat) (i : Instr) : Option (Unit2 × BitVec 4 × Req) :=
  let a (u : Unit2) (n : BitVec 4) : Word := areg s c x u n
  let at_ (k : ReqKind) (u : Unit2) (d e : BitVec 4) (hint q : BitVec 2) (z : BitVec 1) : Option (Unit2 × BitVec 4 × Req) :=
    some (u, d, { request s c x u k hint q with lw := 2 + z.toNat, val := a u e })
  match i with
  | .gld _ u d hint q z => some (u, d, { request s c x u .gld hint q with lw := z.toNat })
  | .gst _ u d hint q z => some (u, d, { request s c x u .gst hint q with lw := z.toNat, val := a u d })
  | .aadd _ u d e hint q z => at_ .aadd u d e hint q z
  | .aswap _ u d e hint q z => at_ .aswap u d e hint q z
  | .acas _ u d e hint q z => some (u, d, { request s c x u .acas hint q with lw := 2 + z.toNat, val := a u e, cmp := a u d })
  | .amin _ u d e hint q z => at_ .amin u d e hint q z
  | .amax _ u d e hint q z => at_ .amax u d e hint q z
  | .aand _ u d e hint q z => at_ .aand u d e hint q z
  | .aor _ u d e hint q z => at_ .aor u d e hint q z
  | _ => none

/-- A version made by the context of a job, wherever the job stood then (R107, R111). -/
abbrev MadeBy (s : State) (c x j : Nat) (v : Version) : Prop := v.job = some j ∧ v.rank = (getCtx s c x).j.rank
/-- The greatest timestamp that a context's accesses and the copies it has issued have taken (R111). -/
def fencedTs (s : State) (c x : Nat) : Nat :=
  let v := getCtx s c x
  s.x.reqs.foldl (fun m p => if p.2.core = c ∧ p.2.ctx = x ∧ p.2.job = v.j.job ∧ p.2.st ≠ .held then max m p.2.maxTs else m) v.maxTs

/-- The new word of an atomic on `n` bytes (R319). -/
def atomWord (k : AccKind) (w old : Nat) : Nat :=
  let z (v : Nat) : Int := intVal (.i w) v
  match k with
  | .load => old
  | .store v => v.toNat % 2 ^ w
  | .aadd v => (old + v.toNat) % 2 ^ w
  | .aswap v => v.toNat % 2 ^ w
  | .acas c v => if old = c.toNat % 2 ^ w then v.toNat % 2 ^ w else old
  | .amin v => stored w (min (z old) (z (v.toNat % 2 ^ w)))
  | .amax v => stored w (max (z old) (z (v.toNat % 2 ^ w)))
  | .aand v => old &&& (v.toNat % 2 ^ w)
  | .aor v => old ||| (v.toNat % 2 ^ w)

end Sys2Proof.Claims

/-- A copy whose descriptor is cached and whose acceptance checks pass takes its issue effects: the counter goes up by 1, the tile
or unit becomes filling or draining, the request stands with all its operands, running in its unit's queue or held for its segment; no
byte of memory changes. Where a check fails, its context takes the illegal-operation trap with DONEMASK showing every slot but its own
(R288, R310, R315, R316). -/
def Sys2Proof.Claims.AcceptedCopiesTakeTheirEffects : Prop :=
  ∀ (s : State) (c x : Nat) (i : Instr) (rc : List Nat) (u : Unit2) (n : BitVec 4) (r : Req) (d : Desc), Fires s c x i rc →
    copyOf s c x i = some (u, n, r) → r.tid ≠ 0 → descIn s (unitNo c u) r.tid = some d →
    let out := writesMem r false
    match acceptBad s r (some d) with
    | none => ∃ t, exec i s = .next t ∧
        getReq t s.t.nextId = { r with unaccepted := !acceptable r d, st := if out then .held else .running, geo := if r.kind = .wfill then none else getTile (getCore s c) r.tile } ∧
        readC (regs t c x) n.toNat = readC (regs s c x) n.toNat + 1 ∧
        (r.kind = .wfill → smGet .empty (mx t c).units r.tile = .filling) ∧
        (r.kind ≠ .wfill → tileStOf (getCore s c) r.tile ≠ none →
          tileStOf (getCore t c) r.tile = some (if out then .draining else .filling)) ∧
        (getUnit t (unitNo c u)).queue = (getUnit s (unitNo c u)).queue ++ (if out then [] else [s.t.nextId]) ∧
        t.c = s.c ∧ t.t.nextId = s.t.nextId + 1
    | some cause => (getCtx s c x).status = .running → (getCtx s c x).cast = [] → (∀ p ∈ s.x.reqs, p.2.st ≠ .accepting) →
        ∃ t τ, exec i s = .next t ∧ (getCtx t c x).status = .trapped ∧ (getCtx t c x).trap = some τ ∧
          τ.cls = 1 ∧ τ.cause = cause ∧ τ.slot = r.slot ∧ τ.done = BitVec.ofNat 8 (255 - 2 ^ r.slot) ∧ t.c = s.c

/-- Copies whose guard is false move nothing: an empty tile, or an empty unit for WFILL, becomes ready; a COPYN changes nothing
(R66, R288, R310). -/
def Sys2Proof.Claims.FalseGuardedCopiesMakeReady : Prop :=
  ∀ (s : State) (c x : Nat) (i : Instr) (h : Hd) (u : Unit2) (n : BitVec 4) (m : BitVec 8) (m6 : BitVec 6) (hint q : BitVec 2),
    s.t.fcore = c → (getCore s c).running = some x → guardOf h (regs s c x) = false → PlainPlace (regs s c x) → hint ≠ 3 →
    let e := (getCtx s c x).j.tbase + m.toNat
    (i = .copy h u n m hint q ∨ i = .copyo h u n m hint q → m.toNat < (getCtx s c x).j.ntiles →
      ∃ t, exec i s = .next t ∧ (tileStOf (getCore s c) e = some .empty → tileStOf (getCore t c) e = some .ready) ∧
        (tileStOf (getCore s c) e ≠ some .empty → t = s) ∧ t.x = s.x ∧ regs t c x = regs s c x ∧ t.c = s.c) ∧
    (i = .wfill h u n m6 hint q →
      ∃ t, exec i s = .next t ∧ (smGet .empty (mx s c).units m6.toNat = .empty → smGet .empty (mx t c).units m6.toNat = .ready) ∧
        (smGet .empty (mx s c).units m6.toNat ≠ .empty → t = s) ∧ t.x = s.x ∧ regs t c x = regs s c x ∧ t.c = s.c) ∧
    (i = .copyn h u n m hint q → exec i s = .next s)

/-- Copies and WFILL at issue, with either guard. -/
def Sys2Proof.Claims.CopiesTakeTheirIssueEffects : Prop :=
  Sys2Proof.Claims.AcceptedCopiesTakeTheirEffects ∧ Sys2Proof.Claims.FalseGuardedCopiesMakeReady

/-- GLD and the atomics leave the core as requests with all their operands and leave their register empty until the answer; GST and PREF
leave the registers as they are; a PREF with a hint does nothing; no byte of memory changes at issue (R318 to R320). -/
def Sys2Proof.Claims.AccessesLeaveTheCoreAtIssue : Prop :=
  (∀ (s : State) (c x : Nat) (i : Instr) (rc : List Nat) (u : Unit2) (d : BitVec 4) (r : Req), Fires s c x i rc →
    accessOf s c x i = some (u, d, r) →
    ∃ t, exec i s = .next t ∧ getReq t s.t.nextId = r ∧ t.c = s.c ∧
      (r.kind = .gst → regs t c x = regs s c x) ∧
      (r.kind ≠ .gst → emptyA (regs t c x) (cFile u) d.toNat = true ∧ (regs t c x).aregs = (regs s c x).aregs ∧
        ∃ l ∈ (getCtx t c x).landings, l.req = some s.t.nextId ∧ l.dst = .a (cFile u) d.toNat)) ∧
  (∀ (s : State) (c x : Nat) (rc : List Nat) (h : Hd) (u : Unit2) (hint q : BitVec 2), Fires s c x (.pref h u hint q) rc →
    ∃ t, exec (.pref h u hint q) s = .next t ∧ (hint ≠ 0 → t = s) ∧ t.c = s.c ∧ regs t c x = regs s c x ∧
      (hint = 0 → getReq t s.t.nextId = request s c x u .pref hint q))

/-- What copies and accesses do when they issue (R309, R310, R318, R320). -/
def Obligations.CopiesAndAccessesAtIssue : Prop :=
  Sys2Proof.Claims.CopiesTakeTheirIssueEffects ∧ Sys2Proof.Claims.AccessesLeaveTheCoreAtIssue

/-- CFENCE at the core or cluster scope publishes every version of its context there and changes no byte of memory; at a wider scope
none of them is left unpublished; the clock rises above what the context's accesses took (R110, R111, R321). -/
def Obligations.FencesPublishTheContextsVersions : Prop :=
  ∀ (s : State) (c x : Nat) (rc : List Nat) (h : Hd) (u : Unit2) (sc : BitVec 2), Fires s c x (.cfence h u sc) rc → c < 80 → x < 4 →
    ∃ t, exec (.cfence h u sc) s = .next t ∧ regs t c x = regs s c x ∧
      (∀ m, m = fencedTs s c x → (getCtx t c x).lc = (if m = 0 then (getCtx s c x).lc else max (getCtx s c x).lc (m + 1))) ∧
      (∀ j, (getCtx s c x).j.job = some j →
        (sc = 0 → t.c.mem = s.c.mem ∧ ∀ v ∈ t.c.versions, MadeBy s c x j v → Pub.core c ∈ v.pub) ∧
        (sc = 1 → t.c.mem = s.c.mem ∧ ∀ v ∈ t.c.versions, MadeBy s c x j v → Pub.cluster (c / 8) ∈ v.pub) ∧
        (sc = 2 ∨ sc = 3 → (s.c.versions.map (·.id)).Nodup → ∀ v ∈ t.c.versions, ¬ MadeBy s c x j v))

/-- A coherent access performed at its line's home, all versions published and the line in plaintext: a load returns the word, a
store and an atomic write theirs and an atomic returns the old word; every other byte stands; a write stamps the line above the
writer's clock and every earlier read (R103, R318, R319). -/
def Sys2Proof.Claims.AccessesReadAndWriteTheirWord : Prop :=
  ∀ (s : State) (agent lc a lw : Nat) (k : AccKind), s.c.versions = [] → lw ≤ 3 → a % 2 ^ lw = 0 →
    (∀ p ∈ s.c.lineKeys, p.1 ≠ lineOf a) → leaseHit s agent lc (lineOf a) = none →
    let n := 2 ^ lw
    let old := rdNat s.c.mem a n
    let p := performAccess s agent lc a lw k 0
    let t := p.2.2
    let reads : Bool := match k with
      | .store _ => false
      | _ => true
    (reads = true → p.1 = old) ∧ (k = .load → t.c.mem = s.c.mem ∧ p.2.1 = max lc (stampOf s (lineOf a)).wts) ∧
    rdNat t.c.mem a n = atomWord k (8 * n) old ∧ (∀ b, b < a ∨ a + n ≤ b → rdByte t.c.mem b = rdByte s.c.mem b) ∧
    (k ≠ .load → p.2.1 = max (lc + 1) ((stampOf s (lineOf a)).rts + 1) ∧ stampOf t (lineOf a) = { wts := p.2.1, rts := p.2.1 })

/-- COHERENT_ACCESS_COMPLETE performs a context's access once it has come back, having met no leased copy, and no older one is left: the register that waits gets
the word and is full, and the request is gone (R102, R318, R319). -/
def Sys2Proof.Claims.AccessesDeliverTheirWord : Prop :=
  ∀ (s : State) (id : Nat) (r : Req), s.x.reqs.find? (fun p => p.1 = id) = some (id, r) → r.id = id → r.fe = none → r.mirror = false →
    r.kind ≠ .tsig → r.core < 80 → r.ctx < 4 → r.st ≠ .stopped → accessBack s r = true → olderAccess s r = false → poisoned s r.addr = false →
    (∀ k, r.tick = some k → (smGet {} s.x.tickets k).met = []) →
    ∃ t, exec (.coherentAccessComplete id) s = .next t ∧ (∀ p ∈ t.x.reqs, p.1 ≠ id) ∧
      ∀ l f n, r.kind ≠ .gst → (getCtx s r.core r.ctx).landings.find? (fun l => l.req = some id) = some l → l.dst = .a f n →
        (getCtx s r.core r.ctx).j.job = r.job →
        (readA (regs t r.core r.ctx) f n).toNat = (performAccess s (4 * r.core + r.ctx) (getCtx s r.core r.ctx).lc r.addr r.lw
            (accKind r) (matAt s r.addr r.key)).1 % 2 ^ 64 ∧
        emptyA (regs t r.core r.ctx) f n = false

/-- An access reads and writes its word at the line's home and delivers it (R102, R103, R318, R319). -/
def Obligations.AccessesReadWriteAndDeliverTheirWord : Prop :=
  Sys2Proof.Claims.AccessesReadAndWriteTheirWord ∧ Sys2Proof.Claims.AccessesDeliverTheirWord

/-! ## Crossbar bank (R323 to R346) -/

namespace Sys2Proof.Claims

open Sys2Proof.Machine

/-- The crossbar bank of a core. -/
abbrev xb (s : State) (c : Nat) : XBank := (getCore s c).xb
/-- The state with a change of the bank, and the segment marked as one that cannot be replayed (R159). -/
def bankBecomes (s : State) (c x : Nat) (b : XBank) : State := modXb (markNonReplay s c x) c (fun _ => b)

/-- An operation that waits in the queue of the bank (R330): number, kind, array, column, step and vector. -/
def queued (s : State) (x : Nat) (kind : XKind) (a pcol step : Nat) (vec : Wide) : XOp :=
  { id := s.t.nextId, kind, arr := a, issued := s.t.now, ctx := x, pcol, step, vec }
/-- The column that XCTL of an array names (R324). -/
def pcolOf (b : XBank) (a : BitVec 6) : Nat := (smGet (0 : BitVec 16) b.xctl a.toNat).toNat % 1024
/-- The nominal part of an array in a column's value (R327, R328). -/
def nominalPart (b : XBank) (o : XOp) (i j : Nat) (xs : List Int) : Int :=
  let a := o.arr + i
  let dep := 64 * 2 ^ o.dep
  let p := physCol (((o.remap.find? (fun r => r.1 = a)).map (·.2)).getD []) j
  let x := (xs.drop (i * dep)).take dep
  let phase (f : Int → Nat) : Int :=
    if x.all (fun v => f v = 0) then 0 else nominal ((columnOf b.cells a p).filter (fun w => w.1 < dep)) (x.map f) o.rs
  let w := ((columnOf b.image a p).filter (fun y => y.1 < dep)).foldl (fun (n : Int) y => n + ((y.2 : Int) - 8)) 0
  16 * phase (fun v => (v + 128).toNat / 16) * 2 ^ o.rs + phase (fun v => (v + 128).toNat % 16) * 2 ^ o.rs - 128 * w

end Sys2Proof.Claims

/-- XPUSH appends an entry to the coupling: 256 bytes as they stand, or 128 BF16 elements aligned to the largest (R325, R335); XPOP takes
the landed head of the results into a vector register (R336); XMVM takes the fewest head entries that reach its need, reserves its results
and enters the queue with its snapshots (R326, R332, R337), or falls back where an array of its chain has drifted (R338). -/
def Sys2Proof.Claims.CrossbarProductResults : Prop :=
  (∀ (s : State) (c x : Nat) (rc : List Nat) (h : Hd) (v : BitVec 6) (f cv : BitVec 1), Fires s c x (.xpush h v f cv) rc →
    ∃ t en, exec (.xpush h v f cv) s = .next t ∧ xb t c = { xb s c with coupling := (xb s c).coupling ++ [en] } ∧
      (cv = 0 → en = { n := 256, q := vv s c x (f = 1) v, e := 0 }) ∧
      (cv = 1 → en.n = 128 ∧
        let e (k : Nat) : FV := unpack .b16 (el 16 (vv s c x (f = 1) v) k)
        (en.e = match topLog (((List.range 128).map e).filter FV.isFin) with
          | some m => m - 6
          | none => 0) ∧
        ∀ k, k < 128 → intVal (.i 8) (el 8 en.q k) = match e k with
          | .nan _ => 0
          | .inf neg => if neg then -128 else 127
          | .fin neg m p => max (-128) (min 127 (roundInt 0 neg m (p - en.e)).1))) ∧
  (∀ (s : State) (c x : Nat) (rc : List Nat) (h : Hd) (v : BitVec 6) (f : BitVec 1), Fires s c x (.xpop h v f) rc →
    ∃ r l, (xb s c).results = r :: l ∧ r.landed = true ∧
      exec (.xpop h v f) s = .next (toV (bankBecomes s c x { xb s c with results := l }) c x 2 (f = 1) v r.data)) ∧
  (∀ (s : State) (c x : Nat) (rc : List Nat) (h : Hd) (a : BitVec 6) (d : BitVec 2) (rs : BitVec 3) (ch : BitVec 4) (o : BitVec 2),
    Fires s c x (.xmvm h a d rs ch o) rc →
    let b := xb s c
    let need := (ch.toNat + 1) * 64 * 2 ^ d.toNat
    let xctl := (smGet (0 : BitVec 16) b.xctl a.toNat).toNat
    ∃ n t, exec (.xmvm h a d rs ch o) s = .next t ∧ n ≤ b.coupling.length ∧ need ≤ entrySum (b.coupling.take n) ∧
      (∀ k, k < n → entrySum (b.coupling.take k) < need) ∧
      ((∀ k, k ≤ ch.toNat → (arrOf b (a.toNat + k)).drift = false) →
        ∃ op : XOp, xb t c = { b with
            coupling := b.coupling.drop n, xq := b.xq ++ [op]
            results := b.results ++ List.replicate (xctl / 8192 % 8 + 1) { op := s.t.nextId } } ∧
          op.id = s.t.nextId ∧ op.kind = .xmvm ∧ op.arr = a.toNat ∧ op.ch = ch.toNat ∧ op.dep = d.toNat ∧ op.rs = rs.toNat ∧
          op.ofmt = o.toNat ∧ op.ogrp = xctl / 1024 % 8 ∧ op.ong = xctl / 8192 % 8 ∧ op.entries = b.coupling.take n ∧ op.ctx = x ∧
          op.issued = s.t.now ∧ op.start = none ∧ op.holds = n ∧ op.off = (arrOf b a.toNat).off ∧ op.gain = (arrOf b a.toNat).gain) ∧
      ((∃ k, k ≤ ch.toNat ∧ (arrOf b (a.toNat + k)).drift = true) →
        (getCtx s c x).j.fbk = true ∧ (regs s c x).fbTarget ≠ 0xFFFFFFFF ∧
        xb t c = { b with coupling := b.coupling.drop n } ∧ (regs t c x).redirect = some (3, (regs s c x).fbTarget)))

/-- The operations that enter the bank's queue: XPROG, XVER, XMON and XCAL.mon with their operands (R330, R339, R341, R342, R345). -/
def Sys2Proof.Claims.CrossbarQueueResults : Prop :=
  ∀ (s : State) (c x : Nat) (i : Instr) (rc : List Nat) (op : XOp), Fires s c x i rc →
    ((∃ h a f v k, i = .xprog h a f v k ∧ op = queued s x .xprog a.toNat (pcolOf (xb s c) a) k.toNat (vv s c x (f = 1) v)) ∨
     (∃ h a f v, i = .xver h a f v ∧ op = queued s x .xver a.toNat (pcolOf (xb s c) a) 0 (vv s c x (f = 1) v)) ∨
     (∃ h a, i = .xmon h a ∧ op = queued s x .xmon a.toNat 0 0 0) ∨
     (∃ h a, i = .xcalMon h a ∧ op = queued s x .xcalmon a.toNat 0 0 0)) →
    ∃ t, exec i s = .next t ∧ xb t c = { xb s c with xq := (xb s c).xq ++ [op] } ∧ t.t.nextId = s.t.nextId + 1 ∧ t.c = s.c ∧
      regs t c x = regs s c x

/-- The operations on the bank's tables and power: XREMAP and its clear, XCAL.off and XCAL.gain, XGATE and XWAKE (R343, R345, R346). -/
def Sys2Proof.Claims.CrossbarTableResults : Prop :=
  (∀ (s : State) (c x : Nat) (rc : List Nat) (h : Hd) (a : BitVec 6) (k : BitVec 5), Fires s c x (.xremap h a k) rc →
    let l := pcolOf (xb s c) a
    ∃ t, exec (.xremap h a k) s = .next t ∧ smGet 999 (arrOf (xb t c) a.toNat).remap k.toNat = l ∧
      (∀ r ∈ (arrOf (xb t c) a.toNat).remap, r.2 = l → r.1 = k.toNat) ∧
      (∀ b, b ≠ a.toNat → arrOf (xb t c) b = arrOf (xb s c) b)) ∧
  (∀ (s : State) (c x : Nat) (rc : List Nat) (h : Hd) (a : BitVec 6), Fires s c x (.xremapClr h a) rc →
    let l := pcolOf (xb s c) a
    ∃ t, exec (.xremapClr h a) s = .next t ∧
      (arrOf (xb t c) a.toNat).remap = (arrOf (xb s c) a.toNat).remap.filter (fun r => r.2 ≠ l) ∧
      (∀ b, b ≠ a.toNat → arrOf (xb t c) b = arrOf (xb s c) b)) ∧
  (∀ (s : State) (c x : Nat) (i : Instr) (rc : List Nat) (h : Hd) (a : BitVec 6) (f : BitVec 1) (v : BitVec 6) (g : BitVec 3),
    Fires s c x i rc → (i = .xcalOff h a f v g ∨ i = .xcalGain h a f v g) →
    ∃ t, exec i s = .next t ∧
      (∀ j, let lane := BitVec.ofNat 32 (el 32 (vv s c x (f = 1) v) (j % 64))
        smGet 0 (arrOf (xb t c) a.toNat).off j =
          (if i = .xcalOff h a f v g ∧ j / 64 = g.toNat then lane else smGet 0 (arrOf (xb s c) a.toNat).off j) ∧
        smGet 0x3F800000 (arrOf (xb t c) a.toNat).gain j =
          (if i = .xcalGain h a f v g ∧ j / 64 = g.toNat then lane else smGet 0x3F800000 (arrOf (xb s c) a.toNat).gain j)) ∧
      (∀ b, b ≠ a.toNat → arrOf (xb t c) b = arrOf (xb s c) b)) ∧
  (∀ (s : State) (c x : Nat) (rc : List Nat) (h : Hd), Fires s c x (.xgate h) rc →
    exec (.xgate h) s = .next (bankBecomes s c x { xb s c with bank := match (xb s c).bank with
      | .on => if (xb s c).xq.all (fun o => o.auto) then .gated else .gating
      | .gating => .gating
      | .gated => .gated
      | .waking due _ => .waking due true })) ∧
  (∀ (s : State) (c x : Nat) (rc : List Nat) (h : Hd), Fires s c x (.xwake h) rc →
    ∃ t, exec (.xwake h) s = .next t ∧ xb t c = { xb s c with bank := match (xb s c).bank with
      | .on => .on
      | .gating => .on
      | .gated => .waking (s.t.now + 1999) false
      | .waking due g => .waking due g } ∧
      ((xb s c).bank = .gated → (s.t.now + 1999, Instr.bankWakeComplete c) ∈ t.t.agenda))

/-- The reads of the bank: XSTAT the status word of an array, XLDC the 512 codes of a column or the verify record (R344, R345). -/
def Sys2Proof.Claims.CrossbarReadResults : Prop :=
  (∀ (s : State) (c x : Nat) (rc : List Nat) (h : Hd) (d a : BitVec 6), Fires s c x (.xstat h d a) rc →
    let b := xb s c
    let v := arrOf b a.toNat
    let bit (p : Bool) : Nat := if p then 1 else 0
    let state : Nat := match b.bank with
      | .on => 0
      | .gating => 1
      | .gated => 2
      | .waking _ _ => 3
    exec (.xstat h d a) s = .next (postResult s c x 4 (.s d.toNat) (BitVec.ofNat 2048 (
      bit (b.xq.any (fun o => !o.auto && decide (o.arr ≤ a.toNat) && decide (a.toNat ≤ o.arr + o.ch))) + 2 * bit v.drift + 4 * state
      + 16 * v.monerr + 256 * v.remap.length + 8192 * bit v.vvalid + 16384 * v.vcnt + 16777216 * v.verified.toNat)))) ∧
  (∀ (s : State) (c x : Nat) (rc : List Nat) (h : Hd) (a : BitVec 6) (f : BitVec 1) (v : BitVec 6), Fires s c x (.xldcCode h a f v) rc →
    ∃ V, exec (.xldcCode h a f v) s = .next (toV s c x 12 (f = 1) v V) ∧
      ∀ w, w < 512 → el 4 V w = (smGet (8 : BitVec 4) (xb s c).image (a.toNat * 2 ^ 19 + w * 2 ^ 10 + pcolOf (xb s c) a)).toNat) ∧
  (∀ (s : State) (c x : Nat) (rc : List Nat) (h : Hd) (a : BitVec 6) (f : BitVec 1) (v : BitVec 6), Fires s c x (.xldcVer h a f v) rc →
    let r := arrOf (xb s c) a.toNat
    ∃ V, exec (.xldcVer h a f v) s = .next (toV s c x 12 (f = 1) v V) ∧
      (r.vcnt ≤ 512 → V = r.vmask.setWidth 2048 ||| (BitVec.ofNat 2048 r.vcnt <<< 512) ||| (if r.vvalid then 1#2048 <<< 528 else 0)))

/-- The crossbar bank's queue, tables, power and reads. -/
def Sys2Proof.Claims.CrossbarTableAndReadResults : Prop :=
  Sys2Proof.Claims.CrossbarQueueResults ∧ Sys2Proof.Claims.CrossbarTableResults ∧ Sys2Proof.Claims.CrossbarReadResults

/-- The crossbar's A-slot operations (R334 to R346). -/
def Obligations.CrossbarResults : Prop :=
  Sys2Proof.Claims.CrossbarProductResults ∧ Sys2Proof.Claims.CrossbarTableAndReadResults

/-- What the converters deliver for an array within its limit (`true`) lies within 17 x 2^rs of the nominal value, whatever they deliver:
the free values of the conversion are bounded as the rule says (R327 to R329). -/
def Obligations.ConvertedValuesStayNearNominal : Prop :=
  ∀ (b : XBank) (o : XOp) (i j : Nat) (xs : List Int) (f : Nat),
    (arrayPart true b o i j xs f - nominalPart b o i j xs).natAbs ≤ 17 * 2 ^ o.rs

/-! ## Control (R250 to R265) -/

namespace Sys2Proof.Claims

open Sys2Proof.Machine

/-- The bundle address `o` bundles on, modulo 2^32. -/
def addr (b : BitVec 32) (o : Int) : BitVec 32 := BitVec.ofInt 32 (b.toNat + o)
/-- A taken branch at a bundle: its two delay bundles follow, then the target; BR and BRX leave loops (R250, R257). -/
def taken (r : Regs) (target : BitVec 32) (pops : Bool) : Regs := { r with redirect := some (3, target), redirectPops := pops }
/-- What the operations of control do to their context's registers (R251, R252, R256). -/
def flowOf (r : Regs) (i : Instr) : Option Regs :=
  match i with
  | .br _ o => some (taken r (addr r.pc o.toInt) true)
  | .brx _ a => some (taken r ((sv r a).extractLsb' 0 32) true)
  | .call _ o => some (taken { r with rstack := addr r.pc 3 :: r.rstack } (addr r.pc o.toInt) false)
  | .callx _ a => some (taken { r with rstack := addr r.pc 3 :: r.rstack } ((sv r a).extractLsb' 0 32) false)
  | .ret _ => some (taken { r with rstack := r.rstack.tail } (r.rstack.headD 0) false)
  | .fbreg _ o => some { r with fbTarget := addr r.pc o.toInt }
  | .stage _ e => some { r with pend := some e }
  | _ => none
/-- The trip count and the length of a LOOP (R254). -/
def loopOf (r : Regs) (i : Instr) : Option (Nat × Nat) :=
  match i with
  | .loop _ l n => some (l.toNat, n.toNat)
  | .loopReg _ l a => some (l.toNat, (sv r a).toNat)
  | _ => none
/-- What a LOOP over `len + 1` bundles does with `n` trips (R254). -/
def looped (r : Regs) (len n : Nat) : Regs :=
  let e : Nat := (r.pend.map (·.toNat)).getD 0
  if n = 0 then { r with pend := none, redirect := if r.redirect = none then some (0, addr r.pc (len + 2)) else r.redirect }
  else
    let level : LoopLvl := { start := addr r.pc 1, fin := addr r.pc (len + 1), rem := n + e, stage := r.pend.isSome, epi := r.pend.getD 0 }
    { r with pend := none, loops := level :: r.loops
             preds := if r.pend.isSome then (r.preds &&& 0x00FF) ||| 0x0100 else r.preds }

end Sys2Proof.Claims

/-- BR, BRX, CALL, CALLX, RET, FBREG and STAGE: where flow goes after the two delay bundles, what the return stack holds, and what is set
for later; nothing else changes. A CALL on 16 entries and a RET on none take the return-stack trap (R250 to R252, R256). -/
def Sys2Proof.Claims.BranchesAndCallsRedirectFlow : Prop :=
  (∀ (s : State) (c x : Nat) (i : Instr) (rc : List Nat) (r : Regs), Fires s c x i rc → flowOf (regs s c x) i = some r →
    exec i s = .next (modRegs s c x (fun _ => r))) ∧
  (∀ (s : State) (c x : Nat) (h : Hd) (o : BitVec 18), s.t.fcore = c → (getCore s c).running = some x → guardOf h (regs s c x) = true →
    stepOne (getCtx s c x) [opCall h o] = none →
    ((regs s c x).rstack.length ≥ 16 → exec (.call h o) s = .next (takeTrap s c x 1 2 6 0 (regs s c x).pc)) ∧
    ((regs s c x).rstack = [] → exec (.ret h) s = .next (takeTrap s c x 1 2 6 0 (regs s c x).pc)))

/-- LOOP pushes a level with its trips, the epilogue count added where STAGE is pending, or skips its body; the close at the last bundle
of the innermost level counts its trips, rotates the predicates and goes back to the first bundle, or leaves (R208, R254, R255). -/
def Sys2Proof.Claims.LoopsCountTheirTrips : Prop :=
  (∀ (s : State) (c x : Nat) (i : Instr) (rc : List Nat) (len n : Nat), Fires s c x i rc → loopOf (regs s c x) i = some (len, n) →
    exec i s = .next (modRegs s c x (fun r => looped r len n))) ∧
  (∀ (r : Regs) (l : LoopLvl) (ls : List LoopLvl), r.loops = l :: ls → 1 ≤ l.rem →
    let t := loopClose r
    (l.rem = 1 → t.loops = ls ∧ t.redirect = some (0, l.fin + 1)) ∧
    (1 < l.rem → t.loops = { l with rem := l.rem - 1 } :: ls ∧ t.redirect = some (0, l.start)) ∧
    (l.stage = false → t.preds = r.preds) ∧
    (l.stage = true → ∀ n, 1 ≤ n → n < 16 → readP t n =
      if n < 8 then readP r n else if n = 8 then decide (l.epi.toNat < l.rem - 1) else readP r (n - 1)))

/-- Branches, calls and loops (R250 to R257). -/
def Obligations.ControlFlowResults : Prop :=
  Sys2Proof.Claims.BranchesAndCallsRedirectFlow ∧ Sys2Proof.Claims.LoopsCountTheirTrips

/-- The operations of B that order a context: SEG opens a segment with its checkpoint and mask (replays are counted from 0 again, but for
a SEG that is replayed as its own segment's first bundle), RDV passes its barrier, WAITC passes at or
below its limit, YIELD gives way to a ready context, SYS posts its event, VGATE on a grant of size 0 does nothing, and HALT ends the
issue of a context: with the last one of its job the job ends (R148, R156, R214, R258 to R263). -/
def Sys2Proof.Claims.ContextsAreOrdered : Prop :=
  (∀ (s : State) (c x : Nat) (rc : List Nat) (h : Hd) (a : BitVec 6), Fires s c x (.seg h a) rc →
    ∃ t, exec (.seg h a) s = .next t ∧
      (getCtx t c x).g = { (getCtx s c x).g with
        segMask := (sv (regs s c x) a).extractLsb' 0 32, chk := checkpointOf (settlePops (regs s c x)) (getCtx s c x).rdvCount, nonReplay := false,
        replays := if (getCtx s c x).g.entryAt = some (getCtx s c x).nissued then (getCtx s c x).g.replays else 0 } ∧
      regs t c x = regs s c x ∧ (∀ p ∈ t.x.reqs, p.2.core = c → p.2.ctx = x → p.2.preSeg = true)) ∧
  (∀ (s : State) (c x : Nat) (rc : List Nat) (h : Hd), Fires s c x (.rdv h) rc →
    exec (.rdv h) s = .next (modCtx s c x (fun v => { v with rdvAt := none, rdvCount := v.rdvCount + 1, g := { v.g with
      solo := v.g.solo && (membersOf s c x).any (fun m => decide ((getCtx s c x).rdvCount < (getCtx s m x).rdvCount)) } }))) ∧
  (∀ (s : State) (c x : Nat) (rc : List Nat) (h : Hd) (n : BitVec 4) (lim : BitVec 14), Fires s c x (.waitc h n lim) rc →
    (readC (regs s c x) n.toNat).toNat ≤ lim.toNat ∧ exec (.waitc h n lim) s = .next s) ∧
  (∀ (s : State) (c x : Nat) (rc : List Nat) (h : Hd), Fires s c x (.yield h) rc →
    ((∃ y, y < 4 ∧ y ≠ x ∧ (getCtx s c y).status = .ready ∧ oddOfPair c (getCtx s c y) = false) →
      ∃ t, exec (.yield h) s = .next t ∧ (getCore t c).running = none ∧ (getCore t c).lastCtx = x ∧
        (getCore t c).nextIssue = s.t.now + 2 ∧ (getCtx t c x).status = .ready ∧ regs t c x = regs s c x) ∧
    ((∀ y, y < 4 → y ≠ x → (getCtx s c y).status ≠ .ready ∨ oddOfPair c (getCtx s c y) = true) → exec (.yield h) s = .next s)) ∧
  (∀ (s : State) (c x : Nat) (rc : List Nat) (h : Hd) (k : BitVec 12), Fires s c x (.sys h k) rc →
    ∃ t e, exec (.sys h k) s = .next t ∧ t.w.events = s.w.events ++ [e] ∧ e.type = 3 ∧ e.time = timebase s ∧
      e.part = (getCtx s c x).j.part ∧ (getCtx t c x).g.nonReplay = true ∧ regs t c x = regs s c x) ∧
  (∀ (s : State) (c x : Nat) (i : Instr) (rc : List Nat) (h : Hd) (f : BitVec 1) (m : BitVec 8), Fires s c x i rc →
    (i = .vgateOn h f m ∨ i = .vgateRet h f m ∨ i = .vgateOff h f m) →
    (if f = 1 then (getCtx s c x).j.granty else (getCtx s c x).j.grantx).2 = 0 → exec i s = .next s) ∧
  (∀ (s : State) (c x : Nat) (rc : List Nat) (h : Hd), Fires s c x (.halt h) rc → (getCtx s c x).j.job = none →
    (∀ p ∈ s.x.reqs, p.2.st ≠ .accepting) →
    ∃ t, exec (.halt h) s = .next t ∧ (getCtx t c x).status = .free ∧ (getCtx t c x).landings = [] ∧ (getCore t c).running = none) ∧
  (∀ (s : State) (c x : Nat) (rc : List Nat) (h : Hd) (id : Nat), Fires s c x (.halt h) rc → (getCtx s c x).j.job = some id →
    (∀ p ∈ s.x.reqs, p.2.st ≠ .accepting) →
    ((∃ m ∈ (getJob s id).members, (m, (getJob s id).ctx) ≠ (c, x) ∧ (getCtx s m (getJob s id).ctx).status ≠ .ended) →
      ∃ t, exec (.halt h) s = .next t ∧ (getCtx t c x).status = .ended ∧ (getCtx t c x).landings = [] ∧ regs t c x = regs s c x ∧
        (getCore t c).running = none ∧ (getCore t c).lastCtx = x ∧ (getCore t c).nextIssue = s.t.now + 2) ∧
    ((∀ m ∈ (getJob s id).members, (m, (getJob s id).ctx) ≠ (c, x) → (getCtx s m (getJob s id).ctx).status = .ended) →
      c ∈ jobCores (getJob s id) → (getJob s id).ctx = x →
      ∃ t, exec (.halt h) s = .next t ∧ (getJob t id).st = .ended ∧ (getCtx t c x).status = .free ∧ (getCore t c).running = none))

/-- VGATE sets the domains of the banks of its mask over the blocks of the grant: off at once and its registers lost, but for those that a mirror
keeps elsewhere (R213; the model's reading, log entry 56), into retention, or on 32 cycles later (R214). -/
def Sys2Proof.Claims.DomainsFollowVgate : Prop :=
  ∀ (s : State) (c x : Nat) (i : Instr) (rc : List Nat) (h : Hd) (f : BitVec 1) (m : BitVec 8) (b k : Nat), Fires s c x i rc →
    let g := if f = 1 then (getCtx s c x).j.granty else (getCtx s c x).j.grantx
    let d := ((if f = 1 then 8 else 0) + b) * 64 + g.1 / 64 + k
    b < 8 → m.getLsbD b = true → k < g.2 / 64 → g.1 / 64 + g.2 / 64 ≤ 64 →
    ∃ t, (i = .vgateOn h f m ∨ i = .vgateRet h f m ∨ i = .vgateOff h f m → exec i s = .next t) ∧
      (i = .vgateOff h f m → domPower (getCore t c) d = .off ∧
        ∀ abs, abs < 4096 → domOf (f = 1) abs = d →
          (∀ p ∈ (getCore s c).ctxs, mirrored p.2.j (f = 1) abs = false) ∨ domPower (getCore t c) (mirDom (f = 1) abs) = .off →
          readV (getCore t c) (f = 1) abs = 0) ∧
      (i = .vgateRet h f m → domPower (getCore t c) d = (if domPower (getCore s c) d = .off then .off else .ret)) ∧
      (i = .vgateOn h f m → domPower (getCore t c) d = (match domPower (getCore s c) d with
        | .on => .on
        | .waking due z => .waking due z
        | p => .waking (s.t.now + 31) (decide (p = .off))))

/-- The operations of B that order a context, and VGATE's domains. -/
def Obligations.SegmentsBarriersAndHalts : Prop :=
  Sys2Proof.Claims.ContextsAreOrdered ∧ Sys2Proof.Claims.DomainsFollowVgate

/-! ## Special registers and traps (R35, R201, R249, R264, R366 to R369) -/

namespace Sys2Proof.Claims

open Sys2Proof.Machine

/-- What MFS reads, by number (R35, R201): the fields of each register at their places. -/
def special (s : State) (c x n : Nat) : Option Nat :=
  let v := getCtx s c x
  let b := xb s (if oddOfPair c v then c - 1 else c)
  let l := getCl s (c / 8)
  let bit (p : Bool) : Nat := if p then 1 else 0
  let power (file : Bool) : Nat :=
    let g := if file then v.j.granty else v.j.grantx
    if g.2 / 64 ≤ v.r.vpwrsel.toNat then 65535
    else (List.range 8).foldr (fun bank n => 4 * n + match domPower (getCore s c) (512 * bit file + 64 * bank + g.1 / 64 + v.r.vpwrsel.toNat) with
      | .on => 0
      | .off => 2
      | _ => 1) 0
  match n with
  | 0x000 => some (x + 4 * c + 512 * v.j.part.toNat + 8192 * bit v.j.secure)
  | 0x001 => some v.j.rank
  | 0x002 => some v.j.gsize
  | 0x003 => some v.r.vfbx.toNat
  | 0x004 => some v.r.vfby.toNat
  | 0x005 => some v.r.fpstat.toNat
  | 0x006 => some (match levels v.r with
    | l :: _ => l.rem
    | [] => 0)
  | 0x007 => some v.r.vcount
  | 0x008 => some v.r.donemask.toNat
  | 0x009 => some v.r.olcnt
  | 0x00A => some v.r.rstack.length
  | 0x00B => some (levels v.r).length
  | 0x00C => some (power false)
  | 0x00D => some (power true)
  | 0x00E => some (bit v.j.strict + 2 * bit v.j.prot + 4 * bit v.j.fbk)
  | 0x00F => some v.r.vpwrsel.toNat
  | 0x100 => some (getCore s c).thrl.toNat
  | 0x101 => some (16 - b.coupling.length - b.xq.foldl (fun n o => n + o.holds) 0)
  | 0x102 => some (xbstat b s.t.now)
  | 0x103 => some (BitVec.ofNat 64 ((List.range 64).foldr (fun a n => bit (arrOf b a).drift + 2 * n) 0)).toNat
  | 0x104 => some b.monlim.toNat
  | 0x105 => some b.monper.toNat
  | 0x200 => some (waypart l)
  | 0x201 => some l.cmap.toNat
  | 0x202 => some l.cmapn.toNat
  | n => if 0x180 ≤ n ∧ n ≤ 0x1BF then some (smGet (0 : BitVec 16) b.xctl (n - 0x180)).toNat else none

/-- The numbers that MTS may write from some context (R35, R201). -/
abbrev writable (n : Nat) : Prop :=
  n = 0x003 ∨ n = 0x004 ∨ n = 0x005 ∨ n = 0x008 ∨ n = 0x00F ∨ n = 0x100 ∨ n = 0x104 ∨ n = 0x105 ∨ n = 0x200 ∨ n = 0x202 ∨ (0x180 ≤ n ∧ n ≤ 0x1BF)

end Sys2Proof.Claims

/-- MFS reads a special register into an s register one cycle later; MTS writes one whose value fits, and the write of a core's or a
cluster's register makes the segment non-replayable; a number that is not listed, or not writable, is an illegal operation, sub-cause 19;
CMAPN, and WAYPART outside partition 0, are privileged (R35, R159, R201, R249). -/
def Obligations.SpecialRegisterResults : Prop :=
  (∀ (s : State) (c x : Nat) (rc : List Nat) (h : Hd) (d : BitVec 6) (n : BitVec 12), Fires s c x (.mfs h d n) rc →
    ∃ v, special s c x n.toNat = some v ∧ exec (.mfs h d n) s = .next (postResult s c x 1 (.s d.toNat) (BitVec.ofNat 2048 v))) ∧
  (∀ (s : State) (c x : Nat) (rc : List Nat) (h : Hd) (a : BitVec 6) (n : BitVec 12), Fires s c x (.mts h a n) rc →
    let v := (sv (regs s c x) a).toNat
    let fits (g : Nat × Nat) : Prop := v % 64 = 0 ∧ g.1 ≤ v ∧ v + 64 ≤ g.1 + g.2
    let gx := (getCtx s c x).j.grantx
    let gy := (getCtx s c x).j.granty
    ∃ t, exec (.mts h a n) s = .next t ∧
      (n = 0x003 → fits gx ∧ t = modRegs s c x (fun r => { r with vfbx := BitVec.ofNat 12 v })) ∧
      (n = 0x004 → fits gy ∧ t = modRegs s c x (fun r => { r with vfby := BitVec.ofNat 12 v })) ∧
      (n = 0x005 → v < 64 ∧ t = modRegs s c x (fun r => { r with fpstat := BitVec.ofNat 6 v })) ∧
      (n = 0x008 → v < 256 ∧ t = modRegs s c x (fun r => { r with donemask := BitVec.ofNat 8 v })) ∧
      (n = 0x00F → v < 64 ∧ t = modRegs s c x (fun r => { r with vpwrsel := BitVec.ofNat 6 v })) ∧
      (0x100 ≤ n.toNat → (getCtx t c x).g.nonReplay = true ∧ regs t c x = regs s c x ∧ t.c = s.c) ∧
      (n = 0x100 → v < 8 ∧ (getCore t c).thrl = (if (getCore s c).hot then (getCore s c).thrl else BitVec.ofNat 3 v)) ∧
      (n = 0x104 → v < 16 ∧ xb t c = { xb s c with monlim := BitVec.ofNat 4 v }) ∧
      (n = 0x105 → v < 2 ^ 32 ∧ xb t c = { xb s c with monper := BitVec.ofNat 32 v, lastMon := timebase s }) ∧
      (n = 0x200 → (getCtx s c x).j.part = 0 ∧ (v = 0 ∨ v = 4 ∨ v = 8 ∨ v = 12) ∧
        getCl t (c / 8) = { getCl s (c / 8) with wayNew := if v = (getCl s (c / 8)).present then (getCl s (c / 8)).wayNew else some v }) ∧
      (0x180 ≤ n.toNat → n.toNat ≤ 0x1BF → v < 2 ^ 16 ∧ v % 1024 ≤ 543 ∧ v / 1024 % 8 + v / 8192 ≤ 7 ∧
        xb t c = { xb s c with xctl := smPut (xb s c).xctl (n.toNat - 0x180) (BitVec.ofNat 16 v) })) ∧
  (∀ (s : State) (c x : Nat) (h : Hd) (d a : BitVec 6) (n : BitVec 12), s.t.fcore = c → (getCore s c).running = some x →
    guardOf h (regs s c x) = true → PlainPlace (regs s c x) →
    let stop (cls cause : Nat) : State := takeTrap s c x cls cause 0 0 (regs s c x).pc
    (special s c x n.toNat = none → exec (.mfs h d n) s = .next (stop 1 19)) ∧
    (¬ writable n.toNat → exec (.mts h a n) s = .next (stop 1 19)) ∧
    (n = 0x202 → exec (.mts h a n) s = .next (stop 12 0)) ∧
    (n = 0x200 → (getCtx s c x).j.part ≠ 0 → exec (.mts h a n) s = .next (stop 12 0)))

/-- Taking a trap: a context that has issued all that its gang's sequencer sent it leaves the slot and is neither running nor ready; its
registers stand but for DONEMASK and the program address, the record has its fields of R367 and stands at the agent's place, one event of
TYPE 11 is posted and no byte of memory changes. Every other member of its gang that runs on traps with class 9 at its own bundle, naming
the rank of origin; a member that still has sent bundles to issue traps once it has issued them; every other context stays as it is
(R155, R367 to R369). -/
def Sys2Proof.Claims.TrapsWriteTheirRecords : Prop :=
  ∀ (s : State) (c x cls cause slot detail : Nat) (baddr : BitVec 32) (done : BitVec 8),
    let v := getCtx s c x
    let t := takeTrap s c x cls cause slot detail baddr done
    let rec_ : TrapRec := { cls, cause, slot, done, rank := v.j.rank, prot := v.j.prot, origin := 0, baddr, detail, time := timebase s, seq := (v.seq + 1) % 2 ^ 16 }
    let runsOn (m : Nat) : Prop := m ≠ c ∧ m ∈ membersOf s c x ∧ (getCtx s m x).status ≠ .trapped ∧ (getCtx s m x).status ≠ .ended ∧
      (getCtx s m x).status ≠ .free
    t.c = s.c ∧
    (s.w.events.length < 1024 → s.w.backlog = [] → ∃ e, t.w.events = s.w.events ++ [e] ∧ e.type = 11 ∧ e.part = v.j.part ∧ e.time = timebase s) ∧
    (v.cast = [] →
      (getCtx t c x).status = .trapped ∧ (getCtx t c x).trap = some rec_ ∧
      regs t c x = { regs s c x with donemask := done, pc := baddr } ∧ (getCtx t c x).landings = v.landings ∧
      ((getCore s c).running = some x → (getCore t c).running = none ∧ (getCore t c).lastCtx = x) ∧
      smGet {} t.w.traprecs (4 * c + x) = rec_) ∧
    (v.cast ≠ [] → (getCtx t c x).status = v.status ∧ (getCtx t c x).stopWith = some { cls, cause, slot, detail, origin := 0 }) ∧
    (∀ m, runsOn m → (getCtx s m x).cast = [] →
      ∃ r, (getCtx t m x).status = .trapped ∧ (getCtx t m x).trap = some r ∧ r.cls = 9 ∧ r.cause = cls ∧ r.origin = v.j.rank ∧ r.slot = 255 ∧
        r.baddr = (regs s m x).pc) ∧
    (∀ m, runsOn m → (getCtx s m x).cast ≠ [] →
      (getCtx t m x).status = (getCtx s m x).status ∧
        (getCtx t m x).stopWith = some { cls := 9, cause := cls, slot := 255, detail := 0, origin := v.j.rank }) ∧
    ∀ c' x', (c', x') ≠ (c, x) → (x' = x → ¬ runsOn c') → getCtx t c' x' = getCtx s c' x'

/-- BKPT with a true guard traps: class 13, its number in DETAIL (R264). -/
def Sys2Proof.Claims.BreakpointsTrap : Prop :=
  ∀ (s : State) (c x : Nat) (h : Hd) (n : BitVec 12), s.t.fcore = c → (getCore s c).running = some x → guardOf h (regs s c x) = true →
    PlainPlace (regs s c x) → exec (.bkpt h n) s = .next (takeTrap s c x 13 0 6 n.toNat (regs s c x).pc)

/-- Traps: what taking one writes and what it leaves as it is; BKPT takes one. -/
def Obligations.TrapsSaveTheirRecord : Prop := Sys2Proof.Claims.TrapsWriteTheirRecords ∧ Sys2Proof.Claims.BreakpointsTrap

/-! ## Tasks (R168 to R183, R187 to R190) -/

namespace Sys2Proof.Claims

open Sys2Proof.Machine

/-- A stream decodes a task in this cycle: it is in focus, mapped, neither loading nor unmapping nor stopped, with room in its window. -/
abbrev Decodes (s : State) (n : Nat) : Prop := s.t.fqueue = n ∧ canDecode (getQ s n) = true

/-- A task enters the window as the youngest coach, under the next number, at the task's address (R189). -/
abbrev Entered (s u : State) (n : Nat) (i : Instr) (c : Coach) : Prop :=
  (getQ u n).coaches = (getQ s n).coaches ++ [c] ∧ (getQ u n).count = (getQ s n).count + 1 ∧
  c.num = (getQ s n).count % 2 ^ 32 ∧ c.taddr = (getQ s n).taddr ∧ c.task = some i

/-- The address after a task: 8 bytes of header, 16 for an operand of at most two boxes, 32 for another (R168, R169). -/
def nextAddr (q : Queue) (ops : List Operand) : Nat :=
  (q.taddr + 8 + 16 * ops.foldl (fun n o => n + (if o.boxes.length > 2 then 2 else 1)) 0) % 65536

/-- A task register. -/
def qreg (q : Queue) (k : Nat) : Word := smGet 0 q.q k

/-- The control tasks: header, operands, the value that q[QD] takes, and the task address of a taken jump (R182). -/
def control (q : Queue) (i : Instr) : Option (TaskHdr × List Operand × Option Word × Option Nat) :=
  let jump (t : TaskHdr) : Nat := (((q.taddr : Int) + 8 * t.imm.toInt) % 65536).toNat
  match i with
  | .tset t ops => some (t, ops, some (t.imm.signExtend 64), none)
  | .tadd t ops => some (t, ops, some (qreg q t.qd.toNat + t.imm.signExtend 64), none)
  | .tloop t ops => some (t, ops, some (qreg q t.qd.toNat - 1), if qreg q t.qd.toNat - 1 = 0 then none else some (jump t))
  | .tjmp t ops => some (t, ops, none, some (jump t))
  | .tbrz t ops => some (t, ops, none, if qreg q t.qd.toNat = 0 then some (jump t) else none)
  | _ => none

/-- The tasks that act when their coach is oldest, and TFENCE: header, operands and why decode stops (R179, R183). -/
def waiting (i : Instr) (num : Nat) : Option (List Operand × CoachSt × Option DecStop) :=
  match i with
  | .tmark _ ops => some (ops, .decoded, none)
  | .tpri _ ops => some (ops, .decoded, none)
  | .thalt _ ops => some (ops, .decoded, some .halted)
  | .tfence _ ops => some (ops, .issued, some (.fence num))
  | _ => none

/-- The tasks that name tensors, with their operands (R172 to R175, R178, R180, R181). -/
def placed : Instr → Option (TaskHdr × List Operand)
  | .kern t ops | .gang t ops | .tcopy t ops | .tfill t ops => some (t, ops)
  | _ => none
def signalOps : Instr → Option (List Operand)
  | .tsig _ ops | .twait _ ops => some ops
  | .tldq t ops => if t.fb then none else some ops
  | _ => none

/-- What a read operand that names a bound wagon puts into s1 to s8: the wagon's identifier and the first tile (R173, R187). -/
def wagonArg (q : Queue) (o : Operand) : Option (Nat × Word) :=
  match smGet .none q.names o.ref.toNat with
  | .wagon img _ w => if o.kind = false ∧ o.mode = 1 then
      (boxesOf (descOf img) (boxOffset q o) o).map (fun b => (w, BitVec.ofNat 64 (0xE000 + w + 2 ^ 16 * ((b.1.map (·.1)).headD 0))))
    else none
  | _ => none

end Sys2Proof.Claims

/-- TSET, TADD, TLOOP, TJMP and TBRZ act at decode: q[QD] takes its value, decode goes on at the next task or at the target, and their
coach is complete with the old value as its delta; a target outside what the buffer holds faults with cause 5 and changes no register
(R182, R189). -/
def Obligations.ControlTasksActAtDecode : Prop :=
  ∀ (s : State) (n : Nat) (i : Instr) (t : TaskHdr) (ops : List Operand) (w : Option Word) (j : Option Nat), Decodes s n →
    control (getQ s n) i = some (t, ops, w, j) →
    ∃ u c, exec i s = .next u ∧ Entered s u n i c ∧ u.c = s.c ∧
      (j.all (validTarget (getQ s n)) = true →
        c.st = .completed ∧ (getQ u n).taddr = j.getD (nextAddr (getQ s n) ops) ∧ (getQ u n).stop = none ∧
        c.deltas = (if w.isSome then [.q t.qd.toNat (qreg (getQ s n) t.qd.toNat)] else []) ∧
        ∀ k, qreg (getQ u n) k = if k = t.qd.toNat then w.getD (qreg (getQ s n) k) else qreg (getQ s n) k) ∧
      (j.all (validTarget (getQ s n)) = false →
        c.fault = some (5, 255, 0, 0xFFFF, 0) ∧ (getQ u n).stop = some .fault ∧ (getQ u n).q = (getQ s n).q)

/-- The tasks that only enter the window, with what they stop; TBIND and TDROP, which change a name and keep the old entry as a delta, a
wagon that it held being released with them; and the reads of descriptors that tasks with raw operands and TDEF start before they
decode (R176, R178 to R181, R183, R189, R190). -/
def Obligations.TasksEnterTheWindow : Prop :=
  (∀ (s : State) (n : Nat) (i : Instr) (ops : List Operand) (st : CoachSt) (stop : Option DecStop), Decodes s n →
    waiting i ((getQ s n).count % 2 ^ 32) = some (ops, st, stop) →
    ∃ u c, exec i s = .next u ∧ Entered s u n i c ∧ c.st = st ∧ c.deltas = [] ∧ c.ops = [] ∧ (getQ u n).stop = stop ∧
      (getQ u n).taddr = nextAddr (getQ s n) ops ∧ (getQ u n).q = (getQ s n).q ∧ (getQ u n).names = (getQ s n).names ∧ u.c = s.c) ∧
  (∀ (s : State) (n : Nat) (i : Instr) (t : TaskHdr) (o : Operand) (l : List Operand), Decodes s n →
    let old := smGet .none (getQ s n).names o.ref.toNat
    let tid := t.imm.toNat % 2 ^ 16
    (i = .tbind t (o :: l) ∧ tid ≠ 0 ∧ tid < 0xE000) ∨ i = .tdrop t (o :: l) →
    let new : NameEnt := match i, old with
      | .tbind .., _ => .raw tid
      | _, .wagon img cls _ => .template img cls
      | _, .raw _ => .none
      | _, e => e
    ∃ u c, exec i s = .next u ∧ Entered s u n i c ∧ c.st = .completed ∧ (getQ u n).taddr = nextAddr (getQ s n) (o :: l) ∧
      (∀ k, smGet .none (getQ u n).names k = if k = o.ref.toNat then new else smGet .none (getQ s n).names k) ∧
      (∀ img cls w, old = .wagon img cls w → c.frees = [w]) ∧ (new ≠ old → c.deltas = [.name o.ref.toNat old]) ∧ u.c = s.c) ∧
  (∀ (s : State) (n : Nat) (i : Instr) (l : List (Nat × Nat)), Decodes s n → l ≠ [] →
    ((∃ t ops, placed i = some (t, ops) ∧ l = rawOps (getQ s n) ops) ∨ (∃ ops, signalOps i = some ops ∧ l = rawOps (getQ s n) ops) ∨
      ∃ t ops, i = .tdef t ops ∧ l = [(255, t.imm.toNat % 2 ^ 16)]) →
    ((∀ p ∈ l, lineReach s (getQ s n).part.toNat none (dtBase s + 64 * p.2) = true) →
      ∃ u k, exec i s = .next u ∧ (getQ u n).stop = some (.read k i) ∧ (getQ u n).coaches = (getQ s n).coaches ∧
        (getQ u n).taddr = (getQ s n).taddr ∧ (getQ u n).names = (getQ s n).names ∧ u.c = s.c) ∧
    (∀ p l', l = p :: l' → lineReach s (getQ s n).part.toNat none (dtBase s + 64 * p.2) = false →
      ∃ u c, exec i s = .next u ∧ Entered s u n i c ∧ (getQ u n).stop = some .fault ∧
        c.fault = some ((if (placed i).isSome ∨ (signalOps i).isSome then 6 else 3), p.1, 0, 0xFFFF, 0)))

/-- Renaming at decode, where no raw operand has to be read: operands that read bound wagons give the job their identifiers and count as
readers of them; a written name takes the next wagon of the siding and its frames, and holds it from then on (R173, R186, R187, R189). -/
def Sys2Proof.Claims.RenamingBindsWagons : Prop :=
  (∀ (s : State) (n : Nat) (i : Instr) (t : TaskHdr) (ops : List Operand), Decodes s n → placed i = some (t, ops) →
    (∀ o ∈ ops, (wagonArg (getQ s n) o).isSome = true) →
    ∃ u c, exec i s = .next u ∧ Entered s u n i c ∧ c.st = .decoded ∧ c.edgesAll = t.fb ∧ c.badOp = none ∧ c.takes = [] ∧ c.deltas = [] ∧
      c.sregs = ops.filterMap (fun o => (wagonArg (getQ s n) o).map (·.2)) ∧
      c.reads = (ops.filterMap (fun o => (wagonArg (getQ s n) o).map (·.1))).eraseDups ∧
      (∀ w, smGet 0 u.f.readers w = smGet 0 s.f.readers w + (if w ∈ c.reads then 1 else 0)) ∧
      (getQ u n).taddr = nextAddr (getQ s n) ops ∧ (getQ u n).names = (getQ s n).names ∧ u.f.wagons = s.f.wagons ∧ u.c = s.c) ∧
  (∀ (s : State) (n : Nat) (i : Instr) (t : TaskHdr) (o : Operand) (img : BitVec 512) (cls : Option Nat) (w : Nat) (l : List Nat),
    Decodes s n → placed i = some (t, [o]) → o.kind = false → o.mode = 2 → smGet .none (getQ s n).names o.ref.toNat = .template img cls →
    (descOf img).tileCount ≤ 64 → s.f.wagons = w :: l → wagonsHeld s (getQ s n).part.toNat < pwlim s (getQ s n).part.toNat →
    let sd := sidingOf (getQ s n).part.toNat cls
    (descOf img).tileCount ≤ (siding s sd).length →
    ∃ u c, exec i s = .next u ∧ Entered s u n i c ∧ c.st = .decoded ∧ c.takes = [w] ∧
      c.deltas = [.name o.ref.toNat (.template img cls)] ∧ u.f.wagons = l ∧ siding u sd = (siding s sd).drop (descOf img).tileCount ∧
      smGet .none (getQ u n).names o.ref.toNat = .wagon img cls w ∧ smGet 0 u.f.readers w = 0 ∧
      (∀ k, k ≠ o.ref.toNat → smGet .none (getQ u n).names k = smGet .none (getQ s n).names k))

/-! ## Events: boot, host and security (R37, R387 to R401) -/

namespace Sys2Proof.Claims

open Sys2Proof.Machine

/-- An instruction answers a next state, of which something holds. -/
abbrev Gives (i : Instr) (s : State) (P : State → Prop) : Prop := ∃ t, exec i s = .next t ∧ P t

/-- One event of a type is posted, the queue having room. -/
abbrev Posts (s t : State) (type : Nat) : Prop := ∃ e, t.w.events = s.w.events ++ [e] ∧ e.type = type
/-- The event queue has room. -/
abbrev Room (s : State) : Prop := s.w.events.length < 1024 ∧ s.w.backlog = []
/-- No layout unit holds a tile entry. -/
abbrev NoEntries (s : State) : Prop := ∀ p ∈ s.x.lunits, p.2.tiles = []
/-- The address of the report of R396. -/
def reportAt (s : State) : Nat := bitsN (creg s 0x1108).toNat 51 6 * 64

/-- An inbound request that the part serves: owner, key and world (R392). -/
def served (s : State) (port : Nat) (q : Inbound) : Option (Nat × Nat × Bool) :=
  let cfg := (creg s (0x680 + 8 * port)).toNat
  let o : Nat × Nat × Bool := match q.pfx with
    | some (o, k, sec) => (o.toNat, k.toNat, sec)
    | none => (cfg / 16 % 16, cfg / 256 % 64, false)
  if port ≤ 1 ∧ bitN cfg 0 = true ∧ 0 < q.len ∧ q.len ≤ 512 ∧ q.addr % 4096 + q.len ≤ 4096 ∧ inboundOk s q.addr o.1 o.2.1 o.2.2 = true ∧
      (outsideAddrs (.bytes q o.2.1)).all (lineReach s o.1 none) = true then some o else none

end Sys2Proof.Claims

/-- Power-on, warm reset, self-test and boot: what each leaves (R78, R373, R394, R395, R431); freeze (R387); the temperatures and what
they force (R400). -/
def Obligations.ResetBootAndTemperatureEvents : Prop :=
  (∀ s, Gives .powerOn s (fun t => t.t.now = 0 ∧ timebase t = 0 ∧ t.h.boot = .selfTest ∧ t.h.bootCnt = 0 ∧ t.h.fwRun = false ∧ t.h.kvalid = 0 ∧
    t.cores = [] ∧ t.clusters = [] ∧ t.f = {} ∧ t.x = {} ∧
    ∀ a, rdByte t.c.mem a = if regionOf a = .host then rdByte s.c.mem a else 0)) ∧
  (∀ s w, secureWriter w = true → Gives (.warmReset w) s (fun t => t.resp = .ok ∧ t.h.boot = .selfTest ∧ t.h.bootCnt = s.h.bootCnt + 1 ∧
    t.h.fwRun = false ∧ t.h.kvalid = 0 ∧ t.h.keys = [] ∧ t.t.fast = false ∧ t.t.frozen = false ∧ t.t.now = s.t.now ∧ timebase t = timebase s ∧
    t.f = {} ∧ t.x.reqs = [] ∧ t.x.park = [] ∧ t.w.events = [] ∧ t.x.bias = s.x.bias ∧ t.w.ondie = s.w.ondie ∧ (∀ c x, (getCtx t c x).status = .free) ∧
    (∀ n, (getCl t n).cmap = (getCl s n).cmap ∧ (getCl t n).cmapn = (getCl s n).cmapn) ∧
    (∀ c g, (getGrp (getCore t c) g).ret = (getGrp (getCore s c) g).ret ∧ (getGrp (getCore t c) g).dis = (getGrp (getCore s c) g).dis))) ∧
  (∀ s, s.h.boot = .selfTest → s.h.bootDue + 12000000 ≤ s.t.now → Gives .selfTestComplete s (fun t =>
    t.h.boot = (if s.h.bootCnt = 0 then .waiting else .verifying) ∧ t.h.kvalid = 0 ∧ t.h.keys = [] ∧
    (∀ c, c < 80 → if (getCore t c).disabled = true then (getCore t c).sp = (getCore s c).sp ∧ (getCore t c).xb = (getCore s c).xb
      else (getCore t c).sp.rows = [] ∧ (getCore t c).xb = {}) ∧
    ∀ n, n < 10 → (getCl t n).cmap = (getCl s n).cmapn)) ∧
  (∀ s w, secureWriter w = true → s.h.boot = .waiting → Gives (.bootGo w) s (fun t => t.h.boot = .verifying ∧ t.resp = .ok)) ∧
  (∀ s, s.h.boot = .verifying → s.h.bootDue ≤ s.t.now → Gives .bootVerifyComplete s (fun t =>
    (∃ k, k ≠ 0 ∧ t = { s with h := { s.h with boot := .failed k } }) ∨
    (t.h.boot = .running ∧ t.h.fwRun = true ∧ t.t.fast = true ∧ timebase t = timebase s ∧ t.c = s.c))) ∧
  (∀ s w, (∀ b, w ≠ .app b) → Gives (.freeze w) s (fun t => t.t.frozen = true ∧ t.resp = .ok ∧ t.c = s.c ∧ t.cores = s.cores)) ∧
  (∀ s c v, c ≤ 10 → Room s → Gives (.thermalWarning c v) s (fun t => smGet 0 t.h.temps c = v ∧
    (reached s 0 v = true → Posts s t 12) ∧ (reached s 0 v = false → t.w = s.w))) ∧
  (∀ s c v, c < 10 → Gives (.thermalCritical c v) s (fun t => smGet 0 t.h.temps c = v ∧
    ∀ p, p < 8 → if reached s 1 v then (getCore t (8 * c + p)).thrl = 7 ∧ (getCore t (8 * c + p)).hot = true
      else getCore t (8 * c + p) = getCore s (8 * c + p))) ∧
  (∀ s c v, c ≤ 10 → Gives (.thermalShutdown c v) s (fun t => smGet 0 t.h.temps c = v ∧
    (reached s 2 v = true → t.t.frozen = true ∧ t.t.supplies = false) ∧ (reached s 2 v = false → t.t = s.t))) ∧
  (∀ s c v, c < 10 → Gives (.readingBelowTwarn c v) s (fun t => smGet 0 t.h.temps c = v ∧
    (reached s 0 v = false → ∀ p, p < 8 → (getCore t (8 * c + p)).hot = false)))

/-- Keys, attestation, application-core interrupts and inbound requests (R389, R392, R396, R398). -/
def Obligations.KeyAttestationAndHostEvents : Prop :=
  (∀ s (k : BitVec 6), s.h.kvalid.getLsbD k.toNat = false → Gives (.keyLoad .firmware k) s (fun t => t.resp = .ok ∧
    smGet 0 t.h.keys k.toNat = creg s 0x840 ∧ (∀ j, j ≠ k.toNat → smGet 0 t.h.keys j = smGet 0 s.h.keys j) ∧
    ∀ j, t.h.kvalid.getLsbD j = (decide (j = k.toNat) || s.h.kvalid.getLsbD j))) ∧
  (∀ s (k : BitVec 6), s.h.kclr = none → Gives (.keyRevoke .firmware k) s (fun t => t.resp = .ok ∧ t.h = { s.h with kclr := some k.toNat })) ∧
  (∀ s k, s.h.kclr = some k → NoEntries s → s.x.swap = none → Gives .keyRevokeComplete s (fun t => t.h.kclr = none ∧
    smGet 0 t.h.keys k = 0 ∧ (k < 64 → t.h.kvalid.getLsbD k = false) ∧ ∀ j, j ≠ k → t.h.kvalid.getLsbD j = s.h.kvalid.getLsbD j)) ∧
  (∀ s w, secureWriter w = true → s.h.attest = none → Gives (.attestationRequest w) s (fun t => t.resp = .ok ∧
    ∃ sig, sig.length = 512 ∧ t.h.attest = some (reportBody s ++ sig))) ∧
  (∀ s bs, s.h.attest = some bs → s.h.attestDue ≤ s.t.now → Gives .attestationComplete s (fun t => t.h.attest = none ∧
    ∀ i, i < bs.length → rdByte t.c.mem (reportAt s + i) = bs.getD i 0)) ∧
  (∀ s (l : BitVec 6), Gives (.hostInterrupt .firmware l) s (fun t => t.resp = .ok ∧
    ∀ j, t.h.hirq.getLsbD j = (decide (j = l.toNat) || s.h.hirq.getLsbD j))) ∧
  (∀ s port q o, served s port q = some o → Gives (.inboundRequest port q) s (fun t => ∃ k, t.resp = .begun k ∧ t.c = s.c ∧
    t.x.outside = s.x.outside ++ [{ id := k, agent := 600 + port, part := o.1, op := .bytes q o.2.1 }])) ∧
  (∀ s port q, served s port q = none → Gives (.inboundRequest port q) s (fun t =>
    t = { s with resp := if port ≤ 1 ∧ bitN (creg s (0x680 + 8 * port)).toNat 0 = true then .abort else .unsupported })) ∧
  (∀ s (o : Outside) q key k, s.x.outside.find? (fun p => p.agent = o.agent) = some o → o.op = .bytes q key → o.tick = some k → arrived s k = true →
    (smGet {} s.x.tickets k).met = [] → 348 ≤ o.agent → 0 < q.len → q.len ≤ 512 → q.addr % 4096 + q.len ≤ 4096 → s.c.versions = [] → s.c.lineKeys = [] →
    let t := stepOutside s o
    ∃ r, t.answers = s.answers ++ [(o.id, r)] ∧ t.x.outside = s.x.outside.filter (fun p => p.id ≠ o.id) ∧
      (if q.write = true then r = .ok ∧ ∀ a, rdByte t.c.mem a = if q.addr ≤ a ∧ a < q.addr + q.len then BitVec.ofNat 8 (q.data.toNat / 256 ^ (a - q.addr)) else rdByte s.c.mem a
       else t.c.mem = s.c.mem ∧ r = .bytes ((List.range q.len).map (fun i => rdByte s.c.mem (q.addr + i)))))

/-! ## Events: memories and mappings (R12, R51 to R61, R69 to R106) -/

namespace Sys2Proof.Claims

open Sys2Proof.Machine

/-- A parity group. -/
abbrev grp (s : State) (c g : Nat) : Group := getGrp (getCore s c) g
/-- Only a parity group changes. -/
abbrev GroupBecomes (s t : State) (c g : Nat) (v : Group) : Prop := t = { modCore s c (fun k => setGrp k g v) with resp := .ok }
/-- The bank and row that DIAGSEL names. -/
def diagAt (s : State) (c : Nat) : Nat × Nat :=
  let v := (creg s (0x1000000 + 0x40000 * c + 0x100)).toNat
  (v % 64, v / 256 % 512)
/-- The next cycle count that is a multiple of 64 (R80). -/
def period (s : State) : Nat := (s.t.now / 64 + 1) * 64
/-- A tile entry's MIG and RDCNT. -/
def mig (s : State) (a : Nat) : Nat := entMig (readEntry s a)
def rdc (s : State) (a : Nat) : Nat := entRd (readEntry s a)
/-- The command at the head of the swap ring. -/
def swapHead (s : State) : Nat × SwapJob :=
  let a := swAddr s s.x.swHead
  let word (i : Nat) : Nat := leNat (fun x => (newestByte s x).toNat) (a + 8 * i) 8
  (word 0 % 4, { exchange := word 0 % 4 = 2, entA := bitsN (word 1) 51 4 * 16, entB := bitsN (word 2) 51 4 * 16, newF := bitsN (word 2) 37 0 })

end Sys2Proof.Claims

/-- Firmware's access to a scratchpad row and its parity groups: diagnostic reads and writes, the counters, formats, retirement, rebuild
and disable, with what each takes effect on (R50, R55, R58 to R61). -/
def Obligations.ScratchpadManagementEvents : Prop :=
  (∀ s w c, w = .firmware ∨ w = .app true → c < 80 → (grp s c (grpOf (diagAt s c).1)).held = none → Gives (.diagdataRead w c) s (fun t =>
    (badRow (getCore s c) (diagAt s c).1 (diagAt s c).2 = false → softRow (getCore s c) (diagAt s c).1 (diagAt s c).2 = false →
      t.resp = .value (rowOf (getCore s c) (diagAt s c).1 (diagAt s c).2)) ∧
    (∃ v, t.resp = .value v) ∧ (getCore t c).sp.rows = (getCore s c).sp.rows)) ∧
  (∀ s c v, c < 80 → (grp s c (grpOf (diagAt s c).1)).held = none → Gives (.diagdataWrite .firmware c v) s (fun t => t.resp = .ok ∧
    rowOf (getCore t c) (diagAt s c).1 (diagAt s c).2 = v ∧
    ∀ b r, r < 512 → (b, r) ≠ diagAt s c → rowOf (getCore t c) b r = rowOf (getCore s c) b r)) ∧
  (∀ s c b, c < 80 → b < 40 → Gives (.cecntClear .firmware c b) s (fun t => t.resp = .ok ∧
    ∀ n, smGet 0 (getCore t c).sp.cecnt n = if n = b then 0 else smGet 0 (getCore s c).sp.cecnt n)) ∧
  (∀ s c g (f : BitVec 4), c < 80 → g < 8 → f.toNat ≤ 10 → (grp s c g).held = none →
    Gives (.gctlFormatWrite .firmware c g f) s (fun t => GroupBecomes s t c g { grp s c g with fmt := f })) ∧
  (∀ s c g (b : BitVec 2), c < 80 → g < 8 → (grp s c g).fmt.toNat ≤ 10 → (grp s c g).retWritten = none → (grp s c g).pretWritten = false →
    (grp s c g).plost = false → Gives (.retireDataBank .firmware c g b) s (fun t => GroupBecomes s t c g { grp s c g with retWritten := some b })) ∧
  (∀ s c g, c < 80 → g < 8 → (grp s c g).fmt.toNat ≤ 10 → (grp s c g).retWritten = none →
    Gives (.retireParityBank .firmware c g) s (fun t => GroupBecomes s t c g { grp s c g with pretWritten := true })) ∧
  (∀ s c g, c < 80 → g < 8 → (grp s c g).fmt.toNat ≤ 10 → (grp s c g).held = none → (grp s c g).retWritten = none →
    (grp s c g).pretWritten = false → (grp s c g).rebuild = none →
    Gives (.rebuild .firmware c g) s (fun t => GroupBecomes s t c g { grp s c g with rebuild := some 0 })) ∧
  (∀ s c g, c < 80 → g < 8 → (grp s c g).fmt.toNat ≤ 10 → (grp s c g).held = none →
    Gives (.groupDisable .firmware c g) s (fun t => GroupBecomes s t c g { grp s c g with dis := true })) ∧
  (∀ s c g, (grp s c g).queue = [] → Gives (.retirementEffect c g) s (fun t =>
    grp t c g = { grp s c g with ret := (grp s c g).retWritten, pret := (grp s c g).pretWritten, rebuild := none } ∧ (getCore t c).sp.rows = (getCore s c).sp.rows)) ∧
  (∀ s c g r, g < 8 → r < 512 → (grp s c g).rebuild = some r → Gives (.rebuildRowStep c g) s (fun t =>
    rowOf (getCore t c) (32 + g) r = xorData (getCore s c) g r ∧ (∀ b r', b < 32 → r' < 512 → rowOf (getCore t c) b r' = rowOf (getCore s c) b r') ∧
    (grp t c g).rebuild = (if r = 511 then none else some (r + 1)) ∧ (r = 511 → (grp t c g).plost = false))) ∧
  (∀ s c g e q, g < 8 → e.row < 512 → (grp s c g).queue = e :: q → (grp s c g).busyAt ≠ some s.t.now → e.at_ < s.t.now →
    Gives (.parityDrain c g) s (fun t => (grp t c g).queue = q ∧
      rowOf (getCore t c) (32 + g) e.row = rowOf (getCore s c) (32 + g) e.row ^^^ e.delta ∧
      (grp t c g).plost = ((grp s c g).plost || badRow (getCore s c) (32 + g) e.row)))

/-- Clusters and their windows. Each of these rows answers a next state, under conditions on the state and its operands alone: CMAPN_WRITE,
WAYPART_WRITE, WINDOW_GROW_VISIT, WINDOW_SHRINK_VISIT, WRITEBACK_ACK, REFRESH_SLOT, COMMIT and TIMETABLE_SWITCH (R11, R12, R71, R73 to R75, R78,
R80). -/
def Sys2Proof.Claims.ClusterEvents : Prop :=
  (∀ s n (v : BitVec 32), n < 10 → (∀ i, i < 8 → v.toNat / 16 ^ i % 16 ≤ 8) → (∀ i j, i < j → j < 8 → v.toNat / 16 ^ i % 16 ≠ v.toNat / 16 ^ j % 16) →
    Gives (.cmapnWrite .firmware n v) s (fun t => t.resp = .ok ∧ getCl t n = { getCl s n with cmapn := v })) ∧
  (∀ s n (v : Word), n < 10 → (v = 0 ∨ v = 4 ∨ v = 8 ∨ v = 12) → (getCl s n).sweep = none → Gives (.waypartWrite .firmware n v) s (fun t => t.resp = .ok ∧
    getCl t n = { getCl s n with wayNew := if v.toNat = (getCl s n).present then (getCl s n).wayNew else some v.toNat })) ∧
  (∀ s n p q i, (getCl s n).sweep = some (.grow p q i) → i < 8192 * (q - p) → (getCl s n).sweepAt < s.t.now → (getCl s n).wb.length < 64 →
    Gives (.windowGrowVisit n) s (fun t => tagAt (getCl t n) (p + i / 8192) (i % 8192) = none ∧
      ((getCl t n).sweep = some (.grow p q (i + 1)) ∨ ((getCl t n).sweep = none ∧ (getCl t n).present = q)))) ∧
  (∀ s n p q i, (getCl s n).sweep = some (.shrink p q i) → i < 8192 * (p - q) → (getCl s n).sweepAt < s.t.now → (i ≠ 0 ∨ windowBusy s n q p = false) →
    let a := 0x3000000000 + 0x1000000 * n + 0x100000 * q + 128 * i
    Gives (.windowShrinkVisit n) s (fun t => (∀ b, rdByte t.c.mem b = if a ≤ b ∧ b < a + 128 then 0 else rdByte s.c.mem b) ∧
      ((getCl t n).sweep = some (.shrink p q (i + 1)) ∨ (getCl t n).sweep = none))) ∧
  (∀ s n l e, (getCl s n).wb.find? (fun e => e.line = l && e.due.any (fun d => d ≤ s.t.now)) = some e →
    Gives (.writebackAck n l) s (fun t => (getCl t n).wb = (getCl s n).wb.erase e)) ∧
  (∀ s p, Gives (.refreshSlot p) s (fun t => t = s)) ∧
  (∀ s b, b ≤ 10 → Gives (.commit .firmware b) s (fun t => t.resp = .ok ∧ t.t.agenda = (period s - 1, .timetableSwitch b) :: s.t.agenda ∧
    (b < 10 → (getCl t b).commitAt = some ((getCl s b).commitAt.getD (period s))) ∧ (b = 10 → t.x.hbmCommit = some (s.x.hbmCommit.getD (period s))))) ∧
  (∀ s b, b < 10 → (getCl s b).commitAt = some (s.t.now + 1) → Gives (.timetableSwitch b) s (fun t => (getCl t b).commitAt = none ∧
    ∀ p, p < 8 → liveOf t (8 * b + p) = creg s (0x10400 + 0x10000 * b + 64 * p))) ∧
  (∀ s, s.x.hbmCommit = some (s.t.now + 1) → Gives (.timetableSwitch 10) s (fun t => t.x.hbmCommit = none ∧
    ∀ p, p < 256 → liveOf t (1000 + p) = creg s (0x304000 + 64 * p)))

/-- The swap engine and the bias flip. Each of these rows answers a next state, under conditions on the state and its operands alone:
SWAP_TAIL_WRITE, SWAP_COMMAND, SWAP_MARK, SWAP_COPY_COMPLETE, BIAS_FLIP, BIAS_FLIP_MARK, BIAS_FLIP_INVERT and BIAS_FLIP_END (R82, R83, R96, R98). -/
def Sys2Proof.Claims.MigrationEvents : Prop :=
  (∀ s (v : BitVec 12), v.toNat < swSize s → Gives (.swapTailWrite .firmware v) s (fun t => t = { s with resp := .ok, x := { s.x with swTail := v.toNat } })) ∧
  (∀ s, s.x.swap = none → s.x.swHead ≠ s.x.swTail → Gives .swapCommand s (fun t =>
    match swapCheck s (swapHead s).1 (swapHead s).2 with
    | none => t.x.swap = some (swapHead s).2 ∧ t.x.swHead = s.x.swHead ∧ t.x.drains = s.x.drains ++ [(swapHead s).2.entries.headD 0]
    | some k => t.x.swap = none ∧ t.x.swHead = (s.x.swHead + 1) % swSize s ∧
        rdByte t.c.mem (swAddr s s.x.swHead + 24) = BitVec.ofNat 8 k)) ∧
  (∀ s j a, s.x.swap = some j → j.marked = false → j.entries.find? (fun a => mig s a ≠ 1) = some a → NoEntries s → mig s a = 0 → rdc s a = 0 →
    Gives .swapMark s (fun t => mig t a = 1 ∧ (j.exchange = false → (∃ k, t.x.swap = some { j with marked := true, due := k }) ∧ t.x.drains = s.x.drains.erase a))) ∧
  (∀ s j, s.x.swap = some j → j.marked = true → arrived s j.due = true → Gives .swapCopyComplete s (fun t =>
    t.x.swap = none ∧ t.x.swHead = (s.x.swHead + 1) % swSize s)) ∧
  (∀ s e, s.x.flip = none → e % 16 = 0 → Gives (.biasFlip .firmware e) s (fun t => t.resp = .ok ∧
    let i := readEntry s e
    let bit := smGet false s.x.bias (entFrame i)
    if entPeer i = false ∧ entP i = true ∧ regionOf (entFrame i * 16384) = .hbm ∧ entBias i = bit then
      t.x.flip = some { entry := e, frame := entFrame i, toHost := !bit, phase := 1 } ∧ t.x.drains = s.x.drains ++ [e] ∧ t.x.flipFail = 0
    else t.x.flip = none ∧ t.x.flipFail = 2)) ∧
  (∀ s f, s.x.flip = some f → f.phase = 1 → NoEntries s → mig s f.entry = 0 → rdc s f.entry = 0 → Gives .biasFlipMark s (fun t =>
    mig t f.entry = 2 ∧ t.x.drains = s.x.drains.erase f.entry ∧ ∃ d, t.x.flip = some { f with phase := 2, due := d })) ∧
  (∀ s f, s.x.flip = some f → f.phase = 2 → f.due ≤ s.t.now → 
    (f.toHost = true → ∀ n, n < 10 → (∀ p ∈ (getCl s n).tags, p.2.line / 128 ≠ f.frame) ∧ ∀ e ∈ (getCl s n).wb, e.line / 128 ≠ f.frame) → Room s →
    Gives .biasFlipInvert s (fun t => smGet false t.x.bias f.frame = f.toHost ∧ t.x.flip = some { f with phase := 3 } ∧ Posts s t 10)) ∧
  (∀ s f, s.x.flip = some f → f.phase = 3 → Gives (.biasFlipEnd .firmware) s (fun t => t.resp = .ok ∧ t.x.flip = none ∧ mig t f.entry = 0))

/-- Every row of the clusters and of migration completes, with its effect. -/
def Obligations.ClusterAndMigrationEvents : Prop := Sys2Proof.Claims.ClusterEvents ∧ Sys2Proof.Claims.MigrationEvents

/-- Logical clocks and rollover; the layout units' descriptors, holds, invalidations, faults and replays (R85 to R95, R105, R106). -/
def Obligations.TranslationAndClockEvents : Prop :=
  (∀ s, Gives .clockAdvance s (fun t => (∀ c x, (getCtx t c x).lc = (getCtx s c x).lc + (if (getCtx s c x).status = .free then 0 else 1)) ∧
    (∀ q, (getQ t q).clock = (getQ s q).clock + (if (getQ s q).eng.isSome then 1 else 0)) ∧
    ∀ f, f < 12 → smGet 0 t.c.agentClk (336 + f) = smGet 0 s.c.agentClk (336 + f) + 1)) ∧
  (∀ s, s.c.rollReq = none → s.c.rollEnd = none → Gives (.rolloverRequest .firmware) s (fun t => t.resp = .ok ∧ t.c = { s.c with rollReq := some (period s) })) ∧
  (∀ s, s.c.rollReq = some s.t.now → Gives .rolloverStart s (fun t => (∀ c x, (getCtx t c x).lc = 0) ∧ (∀ q, (getQ t q).clock = 0) ∧
    t.c.stamps = [] ∧ t.c.leases = [] ∧ t.c.agentClk = [] ∧ t.c.rollEnd = some (s.t.now + 127) ∧ t.c.mem = s.c.mem)) ∧
  (∀ s, s.c.rollEnd = some s.t.now → Gives .rolloverEnd s (fun t => t.c.epoch = (s.c.epoch + 1) % 2 ^ 32 ∧ t.c.rollEnd = none)) ∧
  (∀ s u tid k, (getUnit s u).fetch = some (tid, k) → arrived s k = true → Gives (.descriptorFetchReturn u) s (fun t =>
    descIn t u tid = some (descOf (descImage s tid)) ∧ (getUnit t u).fetch = none ∧ (getUnit t u).descs.length ≤ 16 ∧ t.c = s.c)) ∧
  (∀ s u, Gives (.holdIdleExpiry u) s (fun t => ∀ e ∈ (getUnit t u).tiles, e ∈ (getUnit s u).tiles ∧ ¬ (e.inflight = 0 ∧ e.lastUse + 64 ≤ s.t.now))) ∧
  (∀ s (i : Instr) (k : InvKind) (tid : BitVec 16), s.x.inv = none →
    (i = .invalidateIdentifier .firmware tid ∧ k = .ident tid.toNat ∨
     i = .invalidateTileRange .firmware tid ∧ k = .range tid.toNat (cfield s 0x20F008 31 0) (cfield s 0x20F008 63 32) ∨
     i = .invalidateEverything .firmware ∧ k = .all) →
    Gives i s (fun t => t.resp = .ok ∧ t.x.inv = some k ∧ ∀ u, match k with
      | .ident n => descIn t u n = none ∨ inFlight (getUnit s u) n = true
      | .all => ∀ d ∈ (getUnit t u).descs, inFlight (getUnit s u) d.tid = true
      | .range .. => (getUnit t u).descs = (getUnit s u).descs)) ∧
  (∀ s k, s.x.inv = some k → NoEntries s → Gives .invalidationReport s (fun t => t.x.inv = none ∧ t.x.invseq = (s.x.invseq + 1) % 2 ^ 64)) ∧
  (∀ s, Gives (.replay .firmware) s (fun t => t.resp = .ok ∧ t.x.replay = true ∧
    ∀ p ∈ s.x.park, (getReq s p.2).job = none → (getReq t p.2).st = .running ∧ (getReq t p.2).replaying = true ∧ p ∉ t.x.park)) ∧
  (∀ s id r d dB r' n k, s.x.reqs.find? (fun p => p.1 = id) = some (id, r) → reqDescs s r = some (d, dB) → nextOf s r d dB = some (r', n) →
    r.acq = some k → landsNow s k = true → (getUnit s (unitOf r)).tiles.length < 64 → (descIn s (unitOf r) (tidOf r n.side)).isSome = true →
    let ds := if n.side then dB else d
    let a := ds.ttb + 16 * n.tile
    entryCheck s r ds (readEntry s a) (writesMem r n.side) = none → mig s a = 0 → rdc s a ≠ 255 → s.x.drains.contains a = false →
    mustWait s (tidOf r n.side) n.tile a (readEntry s a) = false →
    Gives (.holdAcquisition id) s (fun t => (getReq t id).acq = none ∧ rdc t a = rdc s a + 1 ∧
      ∃ e, tileIn t (unitOf r) (tidOf r n.side) n.tile = some e ∧ e.addr = a ∧ e.inflight = 0)) ∧
  (∀ s id code, (getReq s id).st = .waitPark code → parkRoom s = true → Room s → Gives (.parkRetry id) s (fun t =>
    (getReq t id).st = .parked ∧ (∃ p, t.x.park = s.x.park ++ [(p, id)]) ∧ t.x.frTail = (s.x.frTail + 1) % frSize s ∧ Posts s t 1)) ∧
  (∀ s id r tid, s.x.reqs.find? (fun p => p.1 = id) = some (id, r) → (r.st = .running ∨ r.st = .accepting) → r.tick = none →
    r.kind ≠ .tcopy → r.kind ≠ .fill → unitBusy s (unitOf r) = false → invDesc s r.tid = false → tid = r.tid → tid ≠ 0 → descIn s (unitOf r) tid = none →
    lineReach s r.part.toNat (portOf r) (dtBase s + 64 * tid) = true →
    Gives (.chunkTranslate id) s (fun t => (∃ k, (getUnit t (unitOf r)).fetch = some (tid, k)) ∧ t.c = s.c)) ∧
  (∀ s id r d n e, s.x.reqs.find? (fun p => p.1 = id) = some (id, r) → r.st = .running → r.tick = none → invDesc s r.tid = false →
    (r.kind = .copy ∨ r.kind = .wfill) → descIn s (unitOf r) r.tid = some d → d.ok r.part r.secure = true → r.unaccepted = false →
    nextOf s r d d = some (r, n) → (r.ord = 0 ∨ r.replaying = true → d.inBounds (reqOrigin r false r.iter) (reqExt r) = true) →
    (∀ c ∈ r.chunks, c.tick.isSome = true ∧ c.ord ≠ chunkKey r.iter r.ord) →
    tileIn s (unitOf r) r.tid n.tile = some e → mustWait s r.tid n.tile e.addr e.img = false → entryCheck s r d e.img false = none →
    entPeer e.img = false → entWatch e.img = false → chunkReach s r.part.toNat (portOf r) (entFrame e.img * 16384 + 256 * n.idx) = true →
    Gives (.chunkTranslate id) s (fun t => (getReq t id).ord = r.ord + 1 ∧ ∃ c, (getReq t id).chunks = r.chunks ++ [c] ∧ c.tile = n.tile ∧
      c.idx = n.idx ∧ c.addr = entFrame e.img * 16384 + 256 * n.idx ∧ c.tick.isSome = true ∧ c.done = false))

/-! ## Events: copy engines (R88, R90, R309 to R312) -/

namespace Sys2Proof.Claims

open Sys2Proof.Machine

/-- A request found under its number. -/
abbrev Found (s : State) (id : Nat) (r : Req) : Prop := s.x.reqs.find? (fun p => p.1 = id) = some (id, r)
/-- The chunk of a request with an ordinal has come. -/
abbrev ChunkDone (t : State) (id ord : Nat) (P : Chunk → Prop) : Prop := ∃ c, getChunk (getReq t id) ord = some c ∧ c.done = true ∧ P c
/-- Firmware's record of a fault stands, and the request is parked. -/
abbrev Parks (s t : State) (id : Nat) : Prop :=
  (getReq t id).st = .parked ∧ (∃ p, t.x.park = s.x.park ++ [(p, id)]) ∧ t.x.frTail = (s.x.frTail + 1) % frSize s ∧ Posts s t 1

end Sys2Proof.Claims

/-- The events of a copy engine: acceptance with its counter, tile or unit and its traps (R310); a chunk's return (R312); a tile row written
and read, with every other bank's rows left (R309, R312); a peer's completion, its refusal and its silence, which park the request (R88, R90). -/
def Obligations.CopyEngineEvents : Prop :=
  (∀ s id r d, Found s id r → r.id = id → r.st = .accepting → r.mirror = false → r.tid ≠ 0 → descIn s (unitOf r) r.tid = some d →
    acceptBad s r (some d) = none → Gives (.copyAcceptance id) s (fun t =>
      (getReq t id).st = (if writesMem r false then .held else .running) ∧ (getReq t id).unaccepted = !acceptable r d ∧
      readC (getCtx t r.core r.ctx).r r.ctr = readC (getCtx s r.core r.ctx).r r.ctr + 1 ∧
      (r.kind = .wfill → unitSt (getCore t r.core).mx r.tile = .filling) ∧
      (r.kind ≠ .wfill → (getTile (getCore s r.core) r.tile).isSome = true →
        tileStOf (getCore t r.core) r.tile = some (if writesMem r false then .draining else .filling)))) ∧
  (∀ s id r d cause, Found s id r → r.st = .accepting → r.tid ≠ 0 → descIn s (unitOf r) r.tid = some d → acceptBad s r (some d) = some cause →
    (getCtx s r.core r.ctx).status ≠ .trapped → (getCtx s r.core r.ctx).cast = [] → Gives (.copyAcceptance id) s (fun t =>
      (getCtx t r.core r.ctx).status = .trapped ∧ t.x.reqs.find? (fun p => p.1 = id) = none ∧
      ∃ k, (getCtx t r.core r.ctx).trap = some k ∧ k.cls = 1 ∧ k.cause = cause ∧ k.slot = r.slot ∧ k.baddr = r.baddr)) ∧
  (∀ s id r c d dB, Found s id r → getChunk r c.ord = some c → reqDescs s r = some (d, dB) → r.kind = .copy → r.st = .running → c.side = false →
    c.done = false → c.peer = false → c.tick.any (arrived s) = true → s.c.versions = [] → s.c.lineKeys = [] →
    (∀ k, c.tick = some k → (smGet {} s.x.tickets k).met = []) →
    c.addr = c.addr / 16384 * 16384 + 256 * c.idx →
    Gives (.chunkComplete id c.ord) s (fun t => ChunkDone t id c.ord (fun e =>
      e.addr = c.addr ∧ e.tile = c.tile ∧ e.idx = c.idx ∧
      ∀ p ∈ movedBytes (imageReq s { r with iter := c.iter } d) { r with iter := c.iter } d { side := false, tile := c.tile, idx := c.idx },
        bmByte e.bytes p = (rdByte s.c.mem (c.addr / 16384 * 16384 + p)).toNat))) ∧
  (∀ s id r d dB it p, Found s id r → reqDescs s r = some (d, dB) → r.kind = .copy → r.st = .running → r.mirror = false → p.k < 65536 →
    (iterRows s r d it).1.find? (fun q => q.k = p.k) = some p → rowReady s r d it p.k = true → rowWritable s r.core p.bank = true →
    p.bank < 32 → p.row < 512 → retBank (getCore s r.core) (grpOf p.bank) = none →
    Gives (.copyRowWrite id (it * 65536 + p.k)) s (fun t =>
      rowOf (getCore t r.core) p.bank p.row = bmApply (rowBytes r d it p (iterRows s r d it).2).1 (rowOf (getCore s r.core) p.bank p.row) ∧
      ∀ b w, w < 512 → (b, w) ≠ (p.bank, p.row) → rowOf (getCore t r.core) b w = rowOf (getCore s r.core) b w)) ∧
  (∀ s id r d dB c p, Found s id r → reqDescs s r = some (d, dB) → r.st = .running → waitingChunk r = some c → p.k < 65536 →
    (chunkRows s r d c).find? (fun q => q.k = p.k) = some p → r.rowData.any (fun q => q.1 = p.k) = false → bankFree s r.core p.bank = true →
    retBank (getCore s r.core) (grpOf p.bank) = none → badRow (getCore s r.core) p.bank p.row = false →
    Gives (.copyRowRead id p.k) s (fun t => (getCore t r.core).sp.rows = (getCore s r.core).sp.rows ∧
      (smGet 0 (getReq t id).rowData p.k = rowOf (getCore s r.core) p.bank p.row ∨
       ∃ e, getChunk (getReq t id) c.ord = some e ∧ e.tick.isSome = true))) ∧
  (∀ s id r c d dB, Found s id r → getChunk r c.ord = some c → reqDescs s r = some (d, dB) → r.kind = .copy → r.st = .running → c.side = false →
    c.done = false → c.peer = true → c.tick.any (arrived s) = true → parkRoom s = true → Room s →
    Gives (.peerChunkCompletion id c.ord) s (fun t =>
      if peerRefusal s.t.free = 0 then ChunkDone t id c.ord (fun e => e.addr = c.addr) else Parks s t id)) ∧
  (∀ s id r c, Found s id r → getChunk r c.ord = some c → r.kind = .copy → r.st = .running → c.side = false →
    c.done = false → c.peer = true → parkRoom s = true → Room s →
    Gives (.peerCompletionTimeout id c.ord) s (fun t => Parks s t id))

/-! ## Events: the issue slot, traps and checks (R97, R149 to R153, R214, R369, R372, R377, R378, R385, R435) -/

namespace Sys2Proof.Claims

open Sys2Proof.Machine

/-- A coach has a fault: cause, operand index, detail, member and bundle. -/
abbrev FaultOf (t : State) (q n cause : Nat) : Prop := ∃ k, getCoach t q n = some k ∧ ∃ x, k.fault = some (cause, x)
/-- The coach stands in the window with no fault yet. -/
abbrev Sound (s : State) (q n : Nat) : Prop := (getCoach s q n).map (·.fault) = some none
/-- The context is trapped with a record. -/
abbrev TrappedWith (t : State) (c x : Nat) (P : TrapRec → Prop) : Prop :=
  (getCtx t c x).status = .trapped ∧ ∃ k, (getCtx t c x).trap = some k ∧ P k
/-- A bundle of a context that every check passes: its words, operations and reads by reconstruction. -/
abbrev Issues (s : State) (c x stage : Nat) (words : List (BitVec 32)) (ops : List SlotOp) (rc : List Nat) : Prop :=
  let v := getCtx s c x
  words = bundleWords s (codeOfP v.j) v.r.pc ∧ ops = slotsFrom v.r.donemask 0 words ∧
  codeHas s (codeOfP v.j) (32 * v.r.pc.toNat) 32 = true ∧ cacheHas (getCore s (fetchCore s c x)) v.j.code.toNat v.r.pc = true ∧
  judge s c x ops stage = .go rc ∧ (ops.any (·.heavy) && decide ((getCore s c).phi < (getCore s c).thrl.toNat)) = false ∧
  comparator (modCore s c (fun k => { k with phi := (k.phi + 1) % 8 })) c x words = none
/-- The state in which a bundle has issued. -/
def issued (s : State) (c x : Nat) (words : List (BitVec 32)) (ops : List SlotOp) (rc : List Nat) : State :=
  let s2 := modCore s c (fun k => { k with phi := (k.phi + 1) % 8 })
  afterIssue s2 c x ops words (effects s2 c x ops rc (beforeIssue s2 c x))

end Sys2Proof.Claims

/-- The events of the issue slot: a bundle decodes and issues, at once or after its hold (R433); a blocked context is ready once its wait is
over, in its place (R150); the issue limit takes the slot (R151); a chunk enters the bundle cache (R435); a domain is on (R214); the sampler's record
(R385); the sequencer's bundle reaches every member with its skew (R152, R153). -/
def Obligations.IssueSlotEvents : Prop :=
  (∀ s c x words ops rc, followDue s c = none → (getCore s c).running = some x → (getCtx s c x).status = .running →
    (getCtx s c x).heldUntil = none → (getCore s c).nextIssue ≤ s.t.now → broadcast s (getCtx s c x) = false → mayRun s (getCtx s c x) = true →
    Issues s c x 0 words ops rc → exec (.bundleDecode c) s = .next (issued s c x words ops rc)) ∧
  (∀ s c x u words ops rc, (getCore s c).running = some x → (getCtx s c x).heldUntil = some u → u ≤ s.t.now → (getCtx s c x).cast = [] →
    followDue s c = none → (getCore s c).nextIssue ≤ s.t.now → mayRun s (getCtx s c x) = true →
    let s1 := modCtx s c x (fun v => { v with heldUntil := none })
    Issues s1 c x (getCtx s c x).heldStage words ops rc → exec (.heldBundleIssue c) s = .next (issued s1 c x words ops rc)) ∧
  (∀ s c x cause slot detail, (getCtx s c x).status = .blocked cause slot detail → cleared s c x cause slot detail = true →
    Gives (.contextReady c x) s (fun t => (getCtx t c x).status = .ready ∧ (getCtx t c x).r = (getCtx s c x).r ∧
      (∀ d y, (d, y) ≠ (c, x) → getCtx t d y = getCtx s d y) ∧ t.c = s.c)) ∧
  (∀ s c x y, (getCore s c).running = some x → 4096 ≤ (getCore s c).consec → (getCtx s c x).cast = [] → y < 4 → y ≠ x → (getCtx s c y).status = .ready →
    oddOfPair c (getCtx s c y) = false → mayRun s (getCtx s c y) = true →
    Gives (.issueLimitExpiry c) s (fun t => (getCtx t c x).status = .ready ∧ (getCtx t c x).r = (getCtx s c x).r ∧
      (getCore t c).running = none ∧ (getCore t c).lastCtx = x ∧ (getCore t c).nextIssue = s.t.now + 1)) ∧
  (∀ s c x tid ch k, (getCore s c).bfetch.find? (fun f => f.1 = x && arrived s f.2.2.2) = some (x, tid, ch, k) →
    Gives (.bundleChunkArrival c x) s (fun t => (tid, ch) ∈ (getCore t c).bcache ∧ (getCore t c).bcache.length ≤ 512 ∧
      (∀ f ∈ (getCore t c).bfetch, ¬ (f.1 = x ∧ f.2.2.2 = k)) ∧ ∀ y, getCtx t c y = getCtx s c y)) ∧
  (∀ s c d due fresh, domPower (getCore s c) d = .waking due fresh → due ≤ s.t.now →
    Gives (.domainWakeComplete c d) s (fun t => domPower (getCore t c) d = .on ∧ ∀ e, e ≠ d → domPower (getCore t c) e = domPower (getCore s c) e)) ∧
  (∀ s c x pc yes slot stall, (getCore s c).lastDec = some (s.t.now, x, pc, yes, slot, stall) → s.d.bvEn = true → s.d.bvStopped = false →
    Gives (.sample c) s (fun t => t.d.bvNow = s.d.bvNow ++
      [(agentOf c x, 9, queueOf s (getCtx s c x), agentOf c x + (if yes then 0 else min slot 7) * 2 ^ 9 + (if yes then 2 ^ 12 else 0)
        + (if yes then 0 else stall) * 2 ^ 13 + pc.toNat * 2 ^ 16)])) ∧
  (∀ s id, let j := getJob s id
    let x := j.ctx
    let ms := castMembers s j
    let skew := fun m => skewOf j.hdr (getCtx s m x).j.rank
    let then_ := fun m => forecast s m x (skew m)
    let m0 := ms.headD 0
    let v0 := getCtx (then_ m0) m0 x
    let words := bundleWords s (codeOfP v0.j) v0.r.pc
    let ops := fun m => slotsFrom (getCtx (then_ m) m x).r.donemask 0 words
    j.gang = true → ms ≠ [] → ms.Nodup → j.nextSend ≤ s.t.now → (∀ m ∈ j.members, (getCtx s m x).status ≠ .trapped) →
    (∀ m ∈ ms, (getCtx s m x).status = .running ∧ canTake s x m (then_ m) = true) →
    codeHas s (codeOfP v0.j) (32 * v0.r.pc.toNat) 32 = true → cacheHas (getCore s (fetchCore s m0 x)) v0.j.code.toNat v0.r.pc = true →
    (∀ m ∈ ms, judgeFront (then_ m) m x (ops m) = none ∧ (∀ o ∈ ops m, o.posts = false) ∧
      decision (then_ m) m x (ops m) = decision (then_ m0) m0 x (ops m0) ∧
      (∃ rc, judgeBack (then_ m) m x (ops m) j.castStage = .go rc) ∧
      ((ops m).any (·.heavy) && decide ((getCore (then_ m) m).phi < (getCore (then_ m) m).thrl.toNat)) = false ∧
      comparator (then_ m) m x words = none) →
    Gives (.gangBundleSend id) s (fun t => s.t.now < (getJob t id).nextSend ∧
      ∀ m ∈ ms, (∃ b, (getCtx t m x).cast = (getCtx s m x).cast ++ [b] ∧ b.at_ = s.t.now + skew m) ∧ (getCtx t m x).r = (getCtx s m x).r)) ∧
  (∀ s c x b l words ops rc, (getCore s c).running = some x → (getCtx s c x).cast = b :: l → b.at_ ≤ s.t.now → (getCtx s c x).stopWith = none →
    let s1 := modCore (modCtx s c x (fun v => { v with cast := l })) c (fun k => { k with phi := (k.phi + 1) % 8 })
    words = bundleWords s (codeOfP (getCtx s c x).j) (getCtx s c x).r.pc → ops = slotsFrom (getCtx s c x).r.donemask 0 words →
    rc = reconOn (getCore s c) ((ops.filter (fun o => guardOf o.h (getCtx s c x).r)).filterMap (accOf (getCtx s c x).r)) →
    Gives (.heldBundleIssue c) s (fun t => (getCtx (afterIssue s1 c x ops words (effects s1 c x ops rc (beforeIssue s1 c x))) c x).stopWith = none →
      t = afterIssue s1 c x ops words (effects s1 c x ops rc (beforeIssue s1 c x))))

/-- A watch hit traps at a bundle boundary and the context goes on at its next bundle (R97); a trap is resumed at its bundle or ends its
coach (R369); DONEMASK (R377); a debug halt (R378); the known-answer check (R372). -/
def Obligations.TrapAndCheckEvents : Prop :=
  (∀ s c x g slot b, (getCtx s c x).watchPending = some (g, slot, b) → ((getCtx s c x).status = .ready ∨ (getCtx s c x).status = .running) →
    Gives (.watchTrap c x) s (fun t => TrappedWith t c x (fun k => k.cls = 14 ∧ k.slot = slot ∧ k.detail = g ∧ k.baddr = b) ∧
      (getCtx t c x).r.pc = (getCtx s c x).r.pc ∧ (getCtx t c x).watchPending = none)) ∧
  (∀ s a, trappedAgent s a = true → (agentCore a ∈ membersOf s (agentCore a) (agentCtx a) ∨ (getCtx s (agentCore a) (agentCtx a)).g.solo = true) →
    Gives (.trapResume .firmware a) s (fun t => t.resp = .ok ∧ agentCore a ∈ trapMembers s a ∧ ∀ m ∈ trapMembers s a,
      (getCtx t m (agentCtx a)).status = .ready ∧ (getCtx t m (agentCtx a)).trap = none ∧ (getCtx t m (agentCtx a)).resumed = true ∧
      (getCtx t m (agentCtx a)).r = (getCtx s m (agentCtx a)).r)) ∧
  (∀ s a j k, trappedAgent s a = true → (getCtx s (agentCore a) (agentCtx a)).j.job = some j → (getCtx s (agentCore a) (agentCtx a)).trap = some k →
    Sound s (getJob s j).queue (getJob s j).coach → Gives (.trapFatal .firmware a) s (fun t => t.resp = .ok ∧
      ∃ e, getCoach t (getJob s j).queue (getJob s j).coach = some e ∧
        ∃ m, e.fault = some (12, 255, 256 * k.cls + k.cause, m, k.baddr.toNat))) ∧
  (∀ s a v, trappedAgent s a = true → Gives (.dmaskWrite .firmware a v) s (fun t => t.resp = .ok ∧
    (getCtx t (agentCore a) (agentCtx a)).r = { (getCtx s (agentCore a) (agentCtx a)).r with donemask := v } ∧
    (getCtx t (agentCore a) (agentCtx a)).status = .trapped)) ∧
  (∀ s a j, a < 320 → (getCtx s (agentCore a) (agentCtx a)).status ≠ .free → (getCtx s (agentCore a) (agentCtx a)).j.job = some j →
    (getJob s j).st = .running → (getJob s j).killed = false → framesFor s (getJob s j) = true →
    Gives (.debugHalt .firmware a) s (fun t => t.resp = .ok ∧ a ∈ t.d.dhalt ∧ (getJob t j).st = .halting ∧
      (getJob t j).preempt = some .debugHalt ∧ t.cores = s.cores)) ∧
  (∀ s c v job, (getCore s c).kats = [(v, job)] → Room s →
    Gives (.knownAnswerCheck c) s (fun t => (getCore t c).kats = [] ∧ match katLane s.t.free v with
      | none => (getCore t c).suspect = (getCore s c).suspect ∧ t.w = s.w
      | some l => l < (if v = true then 64 else 128) ∧ (getCore t c).suspect = true ∧ Posts s t 8))

/-! ## Events: jobs (R146, R147, R160, R193, R359 to R361, R434) -/

namespace Sys2Proof.Claims

open Sys2Proof.Machine

/-- A job whose kernel header `h` has been read, waiting for its place. -/
def headed (s : State) (id k : Nat) (h : BitVec 512) : State :=
  modJob (dropTicket s k) id (fun j => { j with hdr := h, prot := j.prot || hdrFlag h 2, st := .waiting })
/-- The kernel header that a job's task names. -/
def headerOf (s : State) (id : Nat) : BitVec 512 :=
  let j := getJob s id
  BitVec.ofNat 512 (codeNat s (codeOfQ s j.queue) (64 * ((getCoach s j.queue j.coach).map coachImm).getD 0) 64)
/-- A job's header has come. -/
abbrev HeaderHere (s : State) (id k : Nat) : Prop := (getJob s id).st = .header k ∧ arrived s k = true
/-- A job stands in a place and starts there. -/
abbrev Starts (s t : State) (id x : Nat) (ms : List Nat) : Prop :=
  (∃ k b, (getJob t id).st = .starting k b) ∧ (getJob t id).members = ms ∧ (getJob t id).ctx = x ∧ (getJob t id).placed = s.t.now

end Sys2Proof.Claims

/-- A job's way to its cores: its header is checked (R193), it takes a place in its cluster with its registers reset (R146, R147, R359) and starts
when its reads have come and 16 cycles have passed (R434); where no place is open a job of lower priority is asked to make room (R359). -/
def Obligations.JobPlacementEvents : Prop :=
  (∀ s id k, HeaderHere s id k → headerBad s (getJob s id) (codeOfQ s (getJob s id).queue) (headerOf s id) = true →
    Sound s (getJob s id).queue (getJob s id).coach →
    Gives (.jobPlacement id) s (fun t => (getJob t id).st = .ended ∧ FaultOf t (getJob s id).queue (getJob s id).coach 7)) ∧
  (∀ s id k, HeaderHere s id k → headerBad s (getJob s id) (codeOfQ s (getJob s id).queue) (headerOf s id) = false →
    tileMapBad (headerOf s id) (tileMap s (codeOfQ s (getJob s id).queue) (headerOf s id)) = true →
    Sound s (getJob s id).queue (getJob s id).coach →
    Gives (.jobPlacement id) s (fun t => (getJob t id).st = .ended ∧ FaultOf t (getJob s id).queue (getJob s id).coach 8)) ∧
  (∀ s id k n x m, HeaderHere s id k → dueOf s k < s.t.now → let h := headerOf s id
    headerBad s (getJob s id) (codeOfQ s (getJob s id).queue) h = false →
    tileMapBad h (tileMap s (codeOfQ s (getJob s id).queue) h) = false →
    let s2 := headed s id k h
    let j := getJob s2 id
    choosePlace s2 id j = some (n, x, [m]) →
    Gives (.jobPlacement id) s (fun t => Starts s t id x [m] ∧ ∃ g, fits s2 id j (memberCores j m) x = some g ∧
      ∀ c ∈ memberCores j m, let v := getCtx t c x
        v.status = .starting ∧ v.r.pc = BitVec.ofNat 32 (hdrEntry h) ∧ v.r.vfbx = BitVec.ofNat 12 g.x ∧ v.r.vfby = BitVec.ofNat 12 g.y ∧
        v.r.preds = 0 ∧ v.r.rstack = [] ∧ v.r.loops = [] ∧ v.r.fpstat = 0 ∧ v.j.job = some id ∧ v.j.part = j.part ∧ v.lc = j.clk0 ∧ v.landings = [])) ∧
  (∀ s id k, HeaderHere s id k → dueOf s k < s.t.now → let h := headerOf s id
    headerBad s (getJob s id) (codeOfQ s (getJob s id).queue) h = false →
    tileMapBad h (tileMap s (codeOfQ s (getJob s id).queue) h) = false →
    choosePlace (headed s id k h) id (getJob (headed s id k h) id) = none → exec (.jobPlacement id) s = .next (headed s id k h)) ∧
  (∀ s id k, (getJob s id).st = .starting k false → arrived s k = true → Gives (.jobStart id) s (fun t => ∃ n, (getJob t id).st = .starting n true)) ∧
  (∀ s id k, (getJob s id).st = .starting k true → arrived s k = true → (getJob s id).placed + 16 ≤ s.t.now →
    Gives (.jobStart id) s (fun t => (getJob t id).st = .running ∧ ∀ c ∈ jobCores (getJob s id),
      (getCtx t c (getJob s id).ctx).status = .ready ∧ (getCtx t c (getJob s id).ctx).r = (getCtx s c (getJob s id).ctx).r ∧
      (codeTid s (getJob s id).queue, hdrEntry (getJob s id).hdr / 8) ∈ (getCore t c).bcache)) ∧
  (∀ s id n x ms, (getJob s id).st = .waiting → (getJob s id).killed = false → (getJob s id).victim = none →
    choosePlace s id (getJob s id) = some (n, x, ms) → Gives (.dispatch id) s (fun t => Starts s t id x ms)) ∧
  (∀ s id v, (getJob s id).st = .waiting → (getJob s id).killed = false → (getJob s id).victim = none → choosePlace s id (getJob s id) = none →
    victimFor s (getJob s id) = some v → v ≠ id → (getJob s v).st = .running → (getJob s v).killed = false →
    Gives (.dispatch id) s (fun t => if framesFor s (getJob s v) = true
      then (getJob t v).st = .halting ∧ (getJob t v).preempt = some .dispatcher ∧ (getJob t id).victim = some v
      else (getJob t v).st = .running ∧ (getJob t v).withdrawn = some .dispatcher))

/-- A rollback at a bundle boundary and its restoring of the checkpoint, or the fault of its coach (R159, R160); pre-emption: the request with its
frames, the halt, the image written and the cores freed, and the image read back (R160, R360, R361). -/
def Obligations.RollbackAndPreemptionEvents : Prop :=
  (∀ s c x cls cause, (getCtx s c x).g.rbPending = some (cls, cause) → ((getCtx s c x).status = .running ∨ (getCtx s c x).status = .ready) →
    (getCtx s c x).g.nonReplay = false → (getCtx s c x).g.replays < 2 → Gives (.rollback c x) s (fun t =>
      let v := getCtx t c x
      v.status = .stopped ∧ v.g.rollingBack = true ∧ v.g.rbPending = none ∧ v.g.replays = (getCtx s c x).g.replays + 1 ∧
      v.landings.map (·.flags) = ((getCtx s c x).landings.filter (·.req.isNone)).map (·.flags) ∧ (∀ l ∈ v.landings, l.dst = .squashed) ∧
      v.r.olcnt = 0 ∧ v.g.chk = (getCtx s c x).g.chk)) ∧
  (∀ s c x cls cause j, (getCtx s c x).g.rbPending = some (cls, cause) → ((getCtx s c x).status = .running ∨ (getCtx s c x).status = .ready) →
    ((getCtx s c x).g.nonReplay = true ∨ 2 ≤ (getCtx s c x).g.replays) → (getCtx s c x).j.job = some j →
    Sound s (getJob s j).queue (getJob s j).coach → Gives (.rollback c x) s (fun t => (getCtx t c x).status = .stopped ∧
      FaultOf t (getJob s j).queue (getJob s j).coach (if cls = 19 then 14 else 13))) ∧
  (∀ s c x, (getCtx s c x).g.rollingBack = true → (getCtx s c x).status = .stopped → (getCtx s c x).stopWith = none →
    (∀ j, (getCtx s c x).j.job = some j → (getJob s j).st = .running ∧ (getJob s j).killed = false) → ctxReqs s c x inbound = [] →
    Gives (.rollbackRestore c x) s (fun t =>
      let v := getCtx t c x
      let p := (getCtx s c x).g.chk
      v.status = .ready ∧ v.g.rollingBack = false ∧ v.r.pc = p.pc ∧ v.r.sregs = p.sregs ∧ v.r.preds = p.preds ∧ v.r.aregs = p.aregs ∧
      v.r.strides = p.strides ∧ v.r.loops = p.loops ∧ v.r.pend = p.pend ∧ v.r.rstack = p.rstack ∧ v.r.ctrs = p.ctrs ∧ v.r.redirect = p.redirect ∧
      v.r.redirectPops = p.redirectPops ∧ v.rdvCount = p.rdvCount ∧ v.g.entryAt = some v.nissued ∧
      v.r.sEmpty = 0 ∧ v.r.aEmpty = 0 ∧ v.r.masks = (getCtx s c x).r.masks ∧
      ∀ id ∈ ctxReqs s c x (fun r => r.st = .held), t.x.reqs.find? (fun p => p.1 = id) = none)) ∧
  (∀ s id who, (getJob s id).st = .running → (getJob s id).killed = false → who ≠ .debugHalt → framesFor s (getJob s id) = true →
    Gives (.preemptionRequest id who) s (fun t => let l := siding s (getJob s id).part.toNat
      (getJob t id).st = .halting ∧ (getJob t id).preempt = some who ∧ (getJob t id).frames = l.take (imageFrames (getJob s id)) ∧
      siding t (getJob s id).part.toNat = l.drop (imageFrames (getJob s id)) ∧ t.cores = s.cores)) ∧
  (∀ s id who, (getJob s id).st = .running → (getJob s id).killed = false → framesFor s (getJob s id) = false →
    Gives (.preemptionRequest id who) s (fun t => (getJob t id).st = .running ∧ (getJob t id).withdrawn = some who ∧ t.f.sidings = s.f.sidings)) ∧
  (∀ s id, let j := getJob s id
    j.st = .halting → j.killed = false → j.preempt ≠ some .debugHalt →
    (∀ c ∈ jobCores j, (getCtx s c j.ctx).cast = [] ∧ (getCtx s c j.ctx).commits = []) →
    Gives (.preemptionHalt id) s (fun t => (getJob t id).st = .halted ∧ ∀ c ∈ jobCores j, (getCtx t c j.ctx).r = (getCtx s c j.ctx).r ∧
      ((getCtx s c j.ctx).status = .running ∨ (getCtx s c j.ctx).status = .ready → (getCtx t c j.ctx).status = .stopped))) ∧
  (∀ s id, (getJob s id).st = .halted → quiet s id (getJob s id) = true → Gives (.jobSwapOut id) s (fun t =>
    (∃ k, (getJob t id).st = .swapping k) ∧ (getJob t id).image = (jobCores (getJob s id)).map (fun c => imageOf s c (getJob s id).ctx) ∧
    t.cores = s.cores)) ∧
  (∀ s id k, (getJob s id).st = .swapping k → arrived s k = true → Gives (.jobSwapOut id) s (fun t =>
    (getJob t id).st = .swapped ∧ (getJob t id).image = (getJob s id).image ∧
    ∀ c ∈ jobCores (getJob s id), (getCtx t c (getJob s id).ctx).status = .free)) ∧
  (∀ s id k c im, (getJob s id).st = .restoring k → arrived s k = true → jobCores (getJob s id) = [c] → (getJob s id).image = [im] →
    im.ctx.status = .stopped → Gives (.jobRestore id) s (fun t =>
      let v := getCtx t c (getJob s id).ctx
      (getJob t id).st = .running ∧ (getJob t id).image = [] ∧ (getJob t id).frames = [] ∧
      v.status = (if im.ctx.g.rollingBack = true then .stopped else .ready) ∧ v.r.pc = im.ctx.r.pc ∧ v.r.sregs = im.ctx.r.sregs ∧
      v.r.preds = im.ctx.r.preds ∧ v.r.aregs = im.ctx.r.aregs ∧ v.r.masks = im.ctx.r.masks ∧ v.r.ctrs = im.ctx.r.ctrs ∧
      v.r.loops = im.ctx.r.loops ∧ v.g = im.ctx.g ∧ v.lc = im.ctx.lc))

/-! ## Events: the task window (R114, R118, R176, R178 to R192, R194 to R197) -/

namespace Sys2Proof.Claims

open Sys2Proof.Machine

/-- Every coach of a number in a queue's window. -/
abbrev Coaches (t : State) (q n : Nat) (P : Coach → Prop) : Prop := ∀ k ∈ (getQ t q).coaches, k.num = n → P k
/-- The coach that a queue issues next. -/
abbrev NextIssue (s : State) (q : Nat) (c : Coach) : Prop :=
  badFill s (getQ s q) = none ∧ (getQ s q).live = true ∧ (sound (getQ s q)).find? (canIssue s (getQ s q)) = some c
/-- A coach has issued a front-end request. -/
abbrev IssuesReq (t : State) (q n : Nat) (P : Req → Prop) : Prop := ∃ id, P (getReq t id) ∧ Coaches t q n (fun k => k.st = .issued ∧ k.req = some id)

end Sys2Proof.Claims

/-- Coaches issue when they can: jobs, tensor copies, fills and signals to their engines, marks, priorities and the end in order (R171 to R183,
R191); a fill takes a free engine (R187); they complete at their scope (R114, R118) and retire in order (R192). -/
def Obligations.CoachIssueAndRetirementEvents : Prop :=
  (∀ s q c n a, NextIssue s q c → (c.opc = 1 ∨ c.opc = 2) → c.badOp = none → n < 10 → (getCl s n).owner = (getQ s q).part →
    codeHas s (codeOfQ s q) (64 * (coachHdr c).imm.toNat) 64 = true → codeAddr s (codeOfQ s q) (64 * (coachHdr c).imm.toNat) = some a →
    Gives (.coachIssue q) s (fun t => ∃ id k, (getJob t id).st = .header k ∧ (getJob t id).queue = q ∧ (getJob t id).coach = c.num ∧
      (getJob t id).gang = decide (c.opc = 2) ∧ (getJob t id).args = c.sregs ∧ (getJob t id).part = (getQ s q).part ∧
      (getJob t id).pri = min (pceil s (getQ s q).part.toNat) (getQ s q).pri.toNat ∧
      Coaches t q c.num (fun k => k.st = .issued ∧ k.job = some id))) ∧
  (∀ s q c a b l img, NextIssue s q c → c.opc = 3 → c.badOp = none → c.ops = a :: b :: l → nestAt s (codeOfQ s q) (coachImm c) = some img →
    (nestOf img).dir = 2 → tcopyBad (nestOf img) (descOf (descImage s a.tid)) (descOf (descImage s b.tid))
      (tileOrigin (descOf (descImage s a.tid)) (firstTile a)) (tileOrigin (descOf (descImage s b.tid)) (firstTile b)) = false →
    Gives (.coachIssue q) s (fun t => IssuesReq t q c.num (fun r => r.kind = .tcopy ∧ r.tid = a.tid ∧ r.dstTid = b.tid ∧ r.nest = some img ∧
      r.fe = spareFe s))) ∧
  (∀ s q c a l, NextIssue s q c → c.opc = 4 → c.badOp = none → c.ops = a :: l → (descOf (descImage s a.tid)).fmt ≠ 9 →
    Gives (.coachIssue q) s (fun t => IssuesReq t q c.num (fun r => r.kind = .tfill ∧ r.tid = a.tid ∧ r.val = BitVec.ofNat 64 (coachImm c) ∧
      r.tiles = tilesOf (descOf (descImage s a.tid)) a.grid ∧ r.fe = spareFe s))) ∧
  (∀ s q c a l, NextIssue s q c → (c.opc = 0x21 ∨ c.opc = 0x20 ∧ ((coachHdr c).scope ≠ 3 ∨ (getQ s q).peerOwed = false)) → c.ops = a :: l → Gives (.coachIssue q) s (fun t =>
    IssuesReq t q c.num (fun r => r.kind = (if c.opc = 0x21 then .twait else .tsig) ∧ r.tid = a.tid ∧ r.val = c.qval ∧
      r.origin = [(coachHdr c).imm.toNat, 0, 0, 0, 0, 0]))) ∧
  (∀ s q c, NextIssue s q c → c.opc = 0x20 → (coachHdr c).scope = 3 → (getQ s q).peerOwed = true → Gives (.coachIssue q) s (fun t =>
    (getQ t q).flushAt.isSome = true ∧ (getQ t q).coaches = (getQ s q).coaches ∧ t.c = s.c)) ∧
  (∀ s q c, NextIssue s q c → c.opc = 0x41 → Gives (.coachIssue q) s (fun t => Coaches t q c.num (fun k => k.st = .completed) ∧
    (getQ t q).pri = BitVec.ofNat 3 (min (pceil s (getQ s q).part.toNat) (coachImm c % 8)))) ∧
  (∀ s q c, NextIssue s q c → (c.opc = 0x40 ∨ c.opc = 0x7F) → Gives (.coachIssue q) s (fun t =>
    Coaches t q c.num (fun k => k.st = .completed) ∧ (getQ t q).pri = (getQ s q).pri ∧ t.c = s.c)) ∧
  (∀ s q n c e o, (sound (getQ s q)).find? (fun c => c.num = n) = some c → spareFe s = some e → (fillsOf c)[c.fills.length]? = some o →
    (getQ s q).live = true → (c.st = .decoded ∨ c.st = .waiting) → edgesMet (getQ s q) c = true →
    Gives (.wagonFill q n) s (fun t => ∃ id, (getReq t id).kind = .fill ∧ (getReq t id).fe = some e ∧ (getReq t id).dstTid = o.tid ∧
      (getReq t id).tid = wagonTid (o.fillFrom.getD 0) ∧ Coaches t q n (fun k => k.st = .waiting ∧ id ∈ k.fills))) ∧
  (∀ s q n c clk, getCoach s q n = some c → c.st = .issued → c.fault = none → coachEnd s c = .ended clk →
    ((coachHdr c).scope ≠ 3 ∨ (getQ s q).peerOwed = false ∨ c.opc = 0x20) → Gives (.coachComplete q n) s (fun t =>
      Coaches t q n (fun k => k.st = .completed ∧ k.job = none ∧ k.req = none) ∧ (getQ t q).clock = max (getQ s q).clock clk)) ∧
  (∀ s q n c clk, getCoach s q n = some c → c.st = .issued → c.fault = none → coachEnd s c = .ended clk → (coachHdr c).scope = 3 →
    c.opc ≠ 0x20 → (getQ s q).peerOwed = true → (getQ s q).flushAt = none → Gives (.coachComplete q n) s (fun t =>
      (getQ t q).flushAt.isSome = true ∧ (getQ t q).coaches = (getQ s q).coaches)) ∧
  (∀ s q n u, (getQ s q).flushAt = some u → u ≤ s.t.now → Gives (.peerFlushComplete q n) s (fun t =>
    (getQ t q).peerOwed = false ∧ (getQ t q).flushAt = none ∧ (getQ t q).coaches = (getQ s q).coaches)) ∧
  (∀ s q c l, (getQ s q).coaches = c :: l → (getQ s q).live = true → c.st = .completed → c.fault = none → Gives (.coachRetire q) s (fun t =>
    (getQ t q).coaches = l ∧ t.f.released = s.f.released ++ c.frees ++ (if c.opc = 0x7F then
      (getQ s q).names.filterMap (fun p => match p.2 with
        | .wagon _ _ w => some w
        | _ => none) else []) ∧
    (c.opc = 0x7F → (getQ t q).st = .ended ∧ (getQ t q).names = [] ∧ (getQ t q).unmapDue.isSome = true) ∧
    (c.opc ≠ 0x7F → (getQ t q).st = (getQ s q).st ∧ (getQ t q).names = (getQ s q).names)))

/-- What a stream waits for: descriptors and signal words at decode (R176, R178, R180, R190), a TWAIT's condition (R181), a fence (R179); and its faults:
decode stops, the deltas are undone and the fault is posted (R195 to R197); a parked request is given up (R93). -/
def Obligations.WaitsAndFaultsOfStreams : Prop :=
  (∀ s q k th ops, (getQ s q).stop = some (.read k (.tdef th ops)) → arrived s k = true → (getQ s q).live = true →
    let d := descOf (descImage s (bitsN th.imm.toNat 15 0))
    d.shapeOk = true → d.part = (getQ s q).part.toNat → (d.ns = true ∨ (getQ s q).ns = false) → d.tileCount ≤ 64 → tdefClass th.imm = none →
    Gives (.decodeReadReturn q) s (fun t => (getQ t q).stop = none ∧
      nameOf (getQ t q) (nameArg ops) = .template (descImage s (bitsN th.imm.toNat 15 0)) none)) ∧
  (∀ s q k i th ops tid, (getQ s q).stop = some (.read k i) → (i = .tsig th ops ∨ i = .twait th ops) → arrived s k = true → (getQ s q).live = true →
    signalTid s q ops = .ok tid → Gives (.decodeReadReturn q) s (fun t => (getQ t q).stop = none ∧
      ∃ c, (getQ t q).coaches = (getQ s q).coaches ++ [c] ∧ c.task = some i ∧ c.st = .decoded ∧ c.qval = smGet 0 (getQ s q).q th.qd.toNat)) ∧
  (∀ s q id c, (getQ s q).stop = some (.tldq id) → (getReq s id).st = .done → (getReq s id).ue = false →
    (getQ s q).coaches.find? (fun c => c.req = some id) = some c → Gives (.decodeReadReturn q) s (fun t => (getQ t q).stop = none ∧
      smGet 0 (getQ t q).q (coachQd c) = signalVal (getReq s id) ∧ (∀ j, j ≠ coachQd c → smGet 0 (getQ t q).q j = smGet 0 (getQ s q).q j) ∧
      Coaches t q c.num (fun k => k.st = .completed))) ∧
  (∀ s q c id, (getQ s q).coaches.find? (fun c => c.st = .issued && isTwait c) = some c → c.req = some id → (getReq s id).st = .done →
    (getReq s id).ue = false → c.fault = none → Gives (.twaitLoadReturn q) s (fun t =>
      if waitHolds (coachHdr c).cond (signalVal (getReq s id)) c.qval = true then Coaches t q c.num (fun k => k.st = .completed)
      else (getReq t id).st = .running ∧ (getReq t id).issued = s.t.now ∧ (getQ t q).coaches = (getQ s q).coaches)) ∧
  (∀ s q n c, (getQ s q).stop = some (.fence n) → getCoach s q n = some c → (getQ s q).live = true →
    (olderThan (getQ s q) n).all (fun k => k.st = .completed) = true →
    ((coachHdr c).scope ≠ 3 ∨ (getQ s q).peerOwed = false) → Gives (.tfenceComplete q) s (fun t => (getQ t q).stop = none ∧
      Coaches t q n (fun k => k.st = .completed))) ∧
  (∀ s q n c f, getCoach s q n = some c → c.fault = some f → c.st ≠ .faulted → (olderThan (getQ s q) n).any (fun k => k.st = .faulted) = false →
    Gives (.streamFault q n) s (fun t => (getQ t q).stop = some .fault ∧ Coaches t q n (fun k => k.st = .faulted))) ∧
  (∀ s q k l, (getQ s q).coaches = k :: l → k.st = .faulted → (getQ s q).live = true → workEnded s q (getQ s q).coaches = true → Room s →
    Gives (.faultDeltaRestore q) s (fun t => (getQ t q).coaches = [] ∧ (getQ t q).st = .faulted ∧ (getQ t q).taddr = k.taddr ∧
      (getQ t q).stop = none ∧ (getQ t q).unmapDue.isSome = true ∧ Posts s t 2)) ∧
  (∀ s place id, s.x.park.find? (fun p => p.1 = place) = some (place, id) → (getReq s id).job = none →
    Sound s (getReq s id).queue (getReq s id).coach → Gives (.parkend .firmware place) s (fun t => t.resp = .ok ∧ (∀ p ∈ t.x.park, p.2 ≠ id) ∧
      FaultOf t (getReq s id).queue (getReq s id).coach 11))

/-- Wagons and their frames: a released wagon that nobody reads goes back, its frames to be zeroed (R187); a frame is zeroed by a free engine and
enters its siding; firmware takes frames and wagons out of a siding or loads them (R186; that a siding's number and 32 is how a load is asked for
is the model's choice, see log entry 107). -/
def Sys2Proof.Claims.WagonAndFrameEvents : Prop :=
  (∀ s w, s.f.released.contains w = true → smGet 0 s.f.readers w = 0 → wagonIdle (dropWagonUse s w) w = true → Gives (.wagonFree w) s (fun t =>
    t.f.wagons = s.f.wagons ++ [w] ∧ w ∉ t.f.released ∧ t.f.zeroing = s.f.zeroing ++ wagonFrames (dropWagonUse s w) w)) ∧
  (∀ s f sd l e, s.f.zeroing = (f, sd) :: l → freeFe s = some e → Gives .frameZeroing s (fun t => t.f.zeroing = l ∧
    ∃ k, t.f.fes.find? (fun p => p.1 = e) = some (e, .zero f sd k))) ∧
  (∀ s e f sd k, s.f.fes.find? (fun p => p.1 = e) = some (e, .zero f sd k) → arrived s k = true → Gives (.frameZeroed e) s (fun t =>
    siding t sd = siding s sd ++ [f] ∧ (∀ a, a / 16384 = f → rdByte t.c.mem a = 0) ∧ t.f.fes.find? (fun p => p.1 = e) = none)) ∧
  (∀ s sd f, sd < 26 → (siding s sd).contains f = true → Gives (.sidingTrim .firmware sd f) s (fun t => t.resp = .ok ∧
    siding t sd = (siding s sd).filter (fun g => g ≠ f) ∧ ∀ d, d ≠ sd → siding t d = siding s d)) ∧
  (∀ s w, w ∈ s.f.wagons → Gives (.sidingTrim .firmware 26 w) s (fun t => t.resp = .ok ∧ t.f.wagons = s.f.wagons.filter (fun v => v ≠ w) ∧ t.c = s.c)) ∧
  (∀ s f sd, sd < 16 → regionOf (f * 16384) = .hbm → Gives (.sidingTrim .firmware (32 + sd) f) s (fun t => t.resp = .ok ∧
    t.f.zeroing = s.f.zeroing ++ [(f, sd)] ∧ t.f.sidings = s.f.sidings)) ∧
  (∀ s w, w < 8192 → wagonKnown s w = false → Gives (.sidingTrim .firmware 58 w) s (fun t => t.resp = .ok ∧ t.f.wagons = s.f.wagons ++ [w] ∧ t.c = s.c))

/-- Wagons are bound at decode and given back, their frames zeroed (R185 to R187). -/
def Obligations.WagonsAreBoundFilledAndFreed : Prop :=
  Sys2Proof.Claims.RenamingBindsWagons ∧ Sys2Proof.Claims.WagonAndFrameEvents

/-! ## Events: queues, scheduling, firmware events, the watchdog and ownership (R349 to R365) -/

namespace Sys2Proof.Claims

open Sys2Proof.Machine

/-- A command that firmware gives and the part accepts. -/
abbrev Accepts (i : Instr) (s : State) (P : State → Prop) : Prop := Gives i s (fun t => t.resp = .ok ∧ P t)
/-- The queue on an engine. -/
abbrev OnEngine (s : State) (e q : Nat) : Prop := queueOn s e = some q ∧ (getQ s q).eng = some e
/-- The ring's address of a task address. -/
def ringAt (s : State) (q o : Nat) : Nat := ringBase s q + o % 65536

end Sys2Proof.Claims

/-- The registers of a queue: tail writes and the lines they bring, wake and request, enable and disable, resume and discard (R349 to R351, R353,
R365). -/
def Obligations.QueueRegisterEvents : Prop :=
  (∀ s w q (v : BitVec 16), q < 96 → mayRing w (getQ s q) = true → v.toNat % 8 = 0 → Accepts (.qtailWrite w q v) s (fun t => (getQ t q).tail = v ∧
    ((getQ s q).en = true → (getQ t q).wake = true) ∧ ((getQ s q).en = false → getQ t q = { getQ s q with tail := v }))) ∧
  (∀ s w q v, (96 ≤ q ∨ mayRing w (getQ s q) = false ∨ v.toNat % 8 ≠ 0) → exec (.qtailWrite w q v) s = .next (respond s .error)) ∧
  (∀ s q o n k l, (getQ s q).lines = (o, n, k) :: l → arrived s k = true → n ≤ 128 → s.c.versions = [] → Gives (.ringLineReturn q) s (fun t =>
    (getQ t q).tailb = (o + n) % 65536 ∧ (getQ t q).filled = min 65536 ((getQ s q).filled + n) ∧ t.c.mem = s.c.mem ∧
    ∀ i, i < n → smGet 0 (getQ t q).buf ((o + i) % 65536) = rdByte s.c.mem (ringAt s q (o + i)))) ∧
  (∀ s w q, q < 96 → mayRing w (getQ s q) = true → Accepts (.queueWake w q) s (fun t => getQ t q = { getQ s q with wake := true })) ∧
  (∀ s w q v, q < 96 → mayRing w (getQ s q) = true → Room s → Accepts (.queueRequest w q v) s (fun t => Posts s t 9 ∧ t.f = s.f)) ∧
  (∀ s q, q < 96 → (getQ s q).en = false → Accepts (.queueEnable .firmware q) s (fun t => let v := getQ t q
    v.en = true ∧ v.st = .idle ∧ v.pri = (getQ s q).pri ∧ v.part = (getQ s q).part ∧ v.ns = (getQ s q).ns ∧ v.coaches = [] ∧ v.names = [] ∧
    v.q = [] ∧ v.tailb = 0 ∧ v.taddr = 0 ∧ v.clock = 0 ∧ v.count = 0)) ∧
  (∀ s q, q < 96 → ((getQ s q).st = .idle ∨ (getQ s q).st = .faulted ∨ (getQ s q).st = .ended ∨ (getQ s q).st = .off) →
    Accepts (.queueDisable .firmware q) s (fun t => getQ t q = { getQ s q with en := false, st := .off })) ∧
  (∀ s q, ((getQ s q).st = .mapped ∨ (getQ s q).st = .runnable) → exec (.queueDisable .firmware q) s = .next (respond s .error)) ∧
  (∀ s q, q < 96 → (getQ s q).st = .faulted → Accepts (.streamResume .firmware q) s (fun t => getQ t q = { getQ s q with st := .idle, wdStage := 0 })) ∧
  (∀ s q, q < 96 → (getQ s q).st = .faulted → Accepts (.streamDiscard .firmware q) s (fun t => (getQ t q).st = .ended ∧ (getQ t q).names = [] ∧
    (getQ t q).wake = false))

/-- Engines go to the queues in order and are given up again: the decision, the load, the slice, and the steps of an unmapping (R356 to R358). -/
def Obligations.MappingEvents : Prop :=
  (∀ s e q, let s1 := updateRemap s
    (List.range 24).find? (engineFree s1) = some e → leastBy (candKey s1) s1.f.remap = some q → Gives .mappingDecision s (fun t =>
      (getQ t q).eng = some e ∧ (getQ t q).st = .mapped ∧ (getQ t q).loadDue = some (s.t.now + 8192) ∧ q ∉ t.f.remap)) ∧
  (∀ s e q u, OnEngine s e q → (getQ s q).loadDue = some u → u ≤ s.t.now + 1 → Gives (.mappingComplete e) s (fun t =>
    (getQ t q).loadDue = none ∧ (getQ t q).sliceEnd = some (timebase s + qslice s) ∧ (getQ t q).coaches = (getQ s q).coaches)) ∧
  (∀ s e q u, OnEngine s e q → (updateRemap s).f.remap = [] → (getQ (updateRemap s) q).sliceEnd = some u → u ≤ timebase s →
    (getQ (updateRemap s) q).unmapDue = none → Gives (.sliceExpiry e) s (fun t => (getQ t q).sliceEnd = some (timebase s + qslice s))) ∧
  (∀ s e q u c, OnEngine s e q → let s1 := updateRemap s
    c ∈ s1.f.remap → (getQ s1 c).part = (getQ s1 q).part → basePri s1 (getQ s1 q) ≤ waitPri s1 (getQ s1 c) → (getQ s1 q).eng = some e →
    (getQ s1 q).sliceEnd = some u → u ≤ timebase s → (getQ s1 q).unmapDue = none →
    Gives (.sliceExpiry e) s (fun t => (getQ t q).unmapDue = some (s.t.now + 8195))) ∧
  (∀ s e q, e < 24 → OnEngine s e q → (getQ s q).unmapDue = none → Accepts (.unmap .firmware e) s (fun t =>
    (getQ t q).unmapDue = some (s.t.now + 8195) ∧ (getQ t q).sliceEnd = none)) ∧
  (∀ s e q d, OnEngine s e q → (getQ s q).unmapDue = some d → s.t.now + 8194 = d → Gives (.unmapSaveComplete e) s (fun t => (getQ t q).wake = false)) ∧
  (∀ s e q d, OnEngine s e q → (getQ s q).unmapDue = some d → s.t.now + 1 = d → Gives (.unmapSaveComplete e) s (fun t => (getQ t q).resW = [] ∧
    (getQ t q).resF = [] ∧ t.f.wagons = s.f.wagons ++ (getQ s q).resW ∧
    siding t (getQ s q).part.toNat = siding s (getQ s q).part.toNat ++ (getQ s q).resF)) ∧
  (∀ s e q d, OnEngine s e q → (getQ s q).unmapDue = some d → d ≤ s.t.now → Gives (.unmapSaveComplete e) s (fun t =>
    (getQ t q).eng = none ∧ (getQ t q).unmapDue = none ∧
    ((getQ s q).wake = true → runnable (getQ s q) = true → (getQ t q).st = .runnable ∧ t.f.remap.head? = some q)))

/-- Firmware cores take events under their ordering locks (R354) and stop in pairs (R355); the watchdog's stages (R362); a cluster's change of owner
(R364). -/
def Obligations.FirmwareEventsWatchdogAndOwnership : Prop :=
  (∀ s w i e, takesEvents s w = true → (∀ p ∈ s.w.taken, p.1 ≠ w) → freeEvent s = some i → s.w.events[i]? = some e →
    Gives (.eventTake w) s (fun t => t.resp = .value (BitVec.ofNat 2048 (eventBytes e)) ∧ t.w.taken.find? (fun p => p.1 = w) = some (w, e) ∧
      t.f = s.f)) ∧
  (∀ s w, takesEvents s w = true → (∀ p ∈ s.w.taken, p.1 ≠ w) → freeEvent s = none → Gives (.eventTake w) s (fun t => t.resp = .none ∧
    w ∈ t.w.waiting ∧ t.w.events = s.w.events)) ∧
  (∀ s w, takesEvents s w = true → Accepts (.eventDone w) s (fun t => (∀ p ∈ t.w.taken, p.1 ≠ w) ∧ t.w.events = s.w.events)) ∧
  (∀ s p, p < 6 → s.w.fwmode = true → s.w.fwStopped.contains p = false → Gives (.firmwarePairMismatch p) s (fun t =>
    t.w.fwStopped = s.w.fwStopped ++ [p] ∧ (∀ x ∈ t.w.taken, x.1 ≠ 2 * p) ∧ t.t.frozen = (s.t.frozen || decide (5 ≤ s.w.fwStopped.length)))) ∧
  (∀ s q, wdDue s q 1 = true → Room s → Gives (.watchdogStage1 q) s (fun t => (getQ t q).wdStage = 1 ∧ Posts s t 6 ∧
    ∀ c l j, (getQ s q).coaches = c :: l → c.job = some j → (getJob s j).st = .running → (getJob s j).killed = false →
      framesFor s (getJob s j) = true → (getJob t j).st = .halting ∧ (getJob t j).preempt = some .watchdog)) ∧
  (∀ s q c l, wdDue s q 2 = true → (getQ s q).coaches = c :: l → c.fault = none → c.job = none → Room s → Gives (.watchdogStage2 q) s (fun t =>
    (getQ t q).wdStage = 2 ∧ Posts s t 6 ∧ FaultOf t q c.num 15)) ∧
  (∀ s q c l j k, wdDue s q 3 = true → (getQ s q).coaches = c :: l → c.job = some j → onCores (getJob s j) = true → k ∈ jobCores (getJob s j) →
    (getCtx s k (getJob s j).ctx).status = .running → (getCtx s k (getJob s j).ctx).j.job = some j → Room s → Gives (.watchdogStage3 q) s (fun t =>
      (getQ t q).wdStage = 3 ∧ (getCore t k).suspect = true ∧ (getJob t j).st = .ended ∧ Posts s t 6)) ∧
  (∀ s n o, n < 10 → (getCl s n).moveTo = none → Accepts (.clusterMoveStart .firmware n o) s (fun t => (getCl t n).moveTo = some o ∧
    (getCl t n).owner = (getCl s n).owner)) ∧
  (∀ s n o, (getCl s n).moveTo = some o → (getCl s n).moveSwapped = false → clusterEmpty s n = true → (getCl s n).sweep = none →
    (getCl s n).wayNew = none → Gives (.clusterMoveSwapped n) s (fun t => (getCl t n).moveSwapped = true ∧
      (getCl t n).wayNew = (if (getCl s n).present = 0 then none else some 0) ∧ (getCl t n).owner = (getCl s n).owner)) ∧
  (∀ s n o, n < 10 → (getCl s n).moveTo = some o → (getCl s n).moveSwapped = true → (getCl s n).sweep = none → (getCl s n).wayNew = none →
    (∀ p ∈ (getCl s n).tags, p.2.part ≠ (getCl s n).owner.toNat) → (getCl s n).wb = [] → (getCl s n).moveCommit = none → Gives (.clusterMoveComplete n) s (fun t => (getCl t n).commitAt.isSome = true ∧
      (getCl t n).moveCommit.isSome = true ∧ (getCl t n).owner = (getCl s n).owner ∧
      ∀ p, p < 8 → (getCore t (8 * n + p)).sp.rows = [] ∧ (getCore t (8 * n + p)).vf.vregs = [] ∧ (getCore t (8 * n + p)).xb = {})) ∧
  (∀ s n o b, (getCl s n).moveTo = some o → (getCl s n).moveSwapped = true → (getCl s n).sweep = none → (getCl s n).wayNew = none →
    (∀ p ∈ (getCl s n).tags, p.2.part ≠ (getCl s n).owner.toNat) → (getCl s n).wb = [] → (getCl s n).moveCommit = some b → b ≤ s.t.now → (getCl s n).commitAt = none → Gives (.clusterMoveComplete n) s (fun t =>
      (getCl t n).owner = o ∧ (getCl t n).moveTo = none ∧ (getCl t n).moveSwapped = false))

/-! ## Events: the crossbar's operations, dumps, the brake van, control space (R20, R24, R328 to R345, R374, R375, R380 to R389) -/

/-- An operation of the crossbar takes its arrays at a tick, leaves the queue when it ends, and sets what it measures; automatic monitor runs are owed on
every array (R328, R330 to R332, R339, R342). -/
def Obligations.CrossbarOperationEvents : Prop :=
  (∀ s c id o k, tickIn s.t.now = some k → (xbOf s c).xq.find? (fun o => o.id = id) = some o → mayStart (xbOf s c) o k s.t.now = true →
    Gives (.xbarOpStart c id) s (fun t => (xbOf t c).xq.find? (fun o => o.id = id) = some { o with start := some k, holds := 0 } ∧
      (xbOf t c).cells = (xbOf s c).cells ∧ (xbOf t c).results = (xbOf s c).results)) ∧
  (∀ s c id o k, (xbOf s c).xq.find? (fun o => o.id = id) = some o → o.start = some k → o.kind = .xmvm → tickCycle (k + 136) ≤ s.t.now →
    Gives (.xmvmLanding c id) s (fun t => (xbOf t c).xq.find? (fun o => o.id = id) = none ∧ (∀ e ∈ (xbOf t c).results, e.op = id → e.landed = true) ∧
      (xbOf t c).results.length = (xbOf s c).results.length ∧ (xbOf t c).cells = (xbOf s c).cells ∧ (xbOf t c).arrays = (xbOf s c).arrays)) ∧
  (∀ s c id o k, (xbOf s c).xq.find? (fun o => o.id = id) = some o → o.start = some k → o.kind ≠ .xmvm → tickCycle (k + o.kind.dur) ≤ s.t.now →
    Gives (.xbarOpComplete c id) s (fun t => (xbOf t c).xq.find? (fun o => o.id = id) = none ∧
      (o.kind = .xver → (arrOf (xbOf t c) o.arr).vvalid = true ∧ (xbOf t c).cells = (xbOf s c).cells) ∧
      (o.kind = .xmon → (arrOf (xbOf t c) o.arr).monerr ≤ 15 ∧ (xbOf t c).cells = (xbOf s c).cells ∧
        (arrOf (xbOf t c) o.arr).drift = ((arrOf (xbOf s c) o.arr).drift || decide ((xbOf s c).monlim.toNat < (arrOf (xbOf t c) o.arr).monerr))))) ∧
  (∀ s c, (xbOf s c).monper ≠ 0 → (xbOf s c).bank = .on → (xbOf s c).lastMon + (xbOf s c).monper.toNat ≤ timebase s →
    Gives (.autoMonitorRun c) s (fun t => (xbOf t c).lastMon = timebase s ∧
      ∀ a, a < 64 → ∃ o ∈ (xbOf t c).xq, o.auto = true ∧ o.arr = a))

/-- Dumps are asked for, started, written and aborted (R374, R375); the brake van is enabled, disabled and stopped, its records of one tick stand in the order of their sources and go to the ring (R380, R383,
R384); the loop counters of an agent are cleared (R386). -/
def Obligations.DumpAndTraceEvents : Prop :=
  (∀ s a, a < 320 → (getCtx s (agentCore a) (agentCtx a)).status ≠ .free → s.w.dump = none → s.w.dumpq.length < 16 →
    Accepts (.dumpRequest .firmware a) s (fun t => t.w.dumpq = s.w.dumpq ++ [(a, 0)])) ∧
  (∀ s a r l, s.w.dump = none → s.w.dumpq = (a, r) :: l → (getCtx s (agentCore a) (agentCtx a)).status ≠ .free →
    Gives .dumpStart s (fun t => t.w.dumpq = l ∧ ∃ k, t.w.dump = some (a, r, [], k))) ∧
  (∀ s a r l k, s.w.dump = some (a, r, l, k) → arrived s k = true → dumpFault s a l.length = none → Gives .dumpComplete s (fun t =>
    t.w.dump = none ∧ t.w.dumpTail = (s.w.dumpTail + dumpFrames s a l.length) % dumpSize s)) ∧
  (∀ s code a r l k, s.w.dump = some (a, r, l, k) → s.w.ondie.length < 1023 → Gives (.dumpAbort code) s (fun t =>
    t.w.dump = none ∧ (∃ m, t.w.ondie = s.w.ondie ++ [m]) ∧ t.w.dumpTail = s.w.dumpTail ∧ t.c = s.c)) ∧
  (∀ s, s.d.bvEn = false → Accepts (.brakeVanEnable .firmware) s (fun t => t.d.bvEn = true ∧ t.d.bvStopped = false ∧ t.d.bvHead = 0 ∧
    t.d.bvLost = 0 ∧ t.d.bvFirst = true ∧ t.d.bvFifo = (bvSettle s).d.bvFifo ∧ t.d.bvNow = [])) ∧
  (∀ s, s.d.bvEn = true → Accepts (.brakeVanEnable .firmware) s (fun t => t.d = { (bvSettle s).d with bvEn := true })) ∧
  (∀ s kind q payload, s.d.bvEn = true → s.d.bvStopped = false →
    (bvRecord s kind q payload).d.bvNow = s.d.bvNow ++ [(bvSource kind payload, kind, q, payload)]) ∧
  (∀ l, (bySource l).Perm l ∧ (bySource l).Pairwise (fun a b => a.1 ≤ b.1) ∧ ∀ n, (bySource l).filter (fun r => r.1 = n) = l.filter (fun r => r.1 = n)) ∧
  (∀ s src kind q payload, s.d.bvNow = [(src, kind, q, payload)] → s.d.bvFifo.length < 4096 → ∃ l delta,
    bvSettle s = { s with d := { s.d with
      bvFifo := s.d.bvFifo ++ l ++ [bvBits kind (q.getD 127) delta payload]
      bvNow := [], bvLast := timebase s, bvFirst := false, bvGap := none, bvDrops := 0 } }) ∧
  (∀ s, Accepts (.brakeVanDisable .firmware) s (fun t => t.d = { (bvSettle s).d with bvEn := false })) ∧
  (∀ s, Accepts (.brakeVanStop .firmware) s (fun t => t.d = { s.d with bvStopped := true })) ∧
  (∀ s r l, s.d.bvFifo = r :: l → let a := bitsN (creg s 0x400008).toNat 51 30 * 2 ^ 30 + 16 * s.d.bvHead
    Gives .brakeVanWrite s (fun t => t.d = { s.d with bvFifo := l, bvHead := (s.d.bvHead + 1) % 67108864 } ∧
      ∀ b, rdByte t.c.mem b = if a ≤ b ∧ b < a + 16 then BitVec.ofNat 8 (r.toNat / 256 ^ (b - a)) else rdByte s.c.mem b)) ∧
  (∀ s a, a < 320 → Accepts (.loopCounterClear .firmware a) s (fun t => ∀ i, smGet [] t.d.lpc i = if i / 7 = a then [] else smGet [] s.d.lpc i))

/-- Control space: a register that only stores keeps the value written and no other changes; a command register runs its command; a reserved place and
a read-only register answer with an error (R5, R20, R24); the accesses of application and firmware cores to memory, which begin, go their way
and are performed with an answer, and to a register; a read of a reserved place returns zero with its error (R20, R38, R77, R100, R389). That an access
is answered under the number that it began with is the model's choice (log entry 85). -/
def Obligations.ControlSpaceEvents : Prop :=
  (∀ s k (v : BitVec 512), s.h.boot = .running → k < 16 → v.toNat < 2 ^ 53 → Accepts (.controlRegisterWrite .firmware (0x400100 + 8 * k) v) s (fun t =>
    creg t (0x400100 + 8 * k) = v ∧ (∀ o, o ≠ 0x400100 + 8 * k → creg t o = creg s o) ∧ t.c = s.c ∧ t.cores = s.cores)) ∧
  (∀ s k (v : BitVec 512), s.h.boot = .running → k < 8 → v.toNat < 2 ^ 256 → Accepts (.controlRegisterWrite .firmware (0x401020 + 64 * k) v) s (fun t =>
    creg t (0x401020 + 64 * k) = v ∧ (∀ o, o ≠ 0x401020 + 64 * k → creg t o = creg s o) ∧ t.c = s.c ∧ t.cores = s.cores)) ∧
  (∀ s, s.h.boot = .running → exec (.controlRegisterWrite .firmware 0x400300 1) s = exec (.freeze .firmware) s) ∧
  (∀ s w off v, regAt off = none → exec (.controlRegisterWrite w off v) s = .next (respond s .error)) ∧
  (∀ s w v, exec (.controlRegisterWrite w 0x10018 v) s = .next (respond s .error)) ∧
  (∀ s app (a : MemOp), app < 16 → a.addr = controlBase + 0x10018 → a.lw = 3 → a.kind = .load → s.h.boot = .running →
    Gives (.hostDeviceAccess app true a) s (fun t => t = { s with resp := .value (BitVec.ofNat 2048 (s.t.now % 2 ^ 64)) })) ∧
  (∀ s app (a : MemOp), app < 16 → a.addr % 2 ^ a.lw.toNat = 0 → regionOf a.addr = .hbm → Gives (.hostDeviceAccess app true a) s (fun t =>
    ∃ k, t.resp = .begun k ∧ t.x.outside = s.x.outside ++ [{ id := k, agent := 320 + app, part := outsidePart s a.addr, op := .word a }] ∧
      agentClock t (320 + app) = agentClock s (320 + app) + 1 ∧ t.c.mem = s.c.mem)) ∧
  (∀ s w (a : MemOp), w < 12 → s.h.fwRun = true → (s.w.fwmode = false ∨ s.w.fwStopped.contains (w / 2) = false) → a.addr % 2 ^ a.lw.toNat = 0 →
    regionOf a.addr = .hbm → Gives (.firmwareCoreAccess w a) s (fun t =>
    ∃ k, t.resp = .begun k ∧ t.x.outside = s.x.outside ++ [{ id := k, agent := 336 + w, part := outsidePart s a.addr, op := .word a }] ∧
      t.c = s.c)) ∧
  (∀ s (o : Outside) a k, s.x.outside.find? (fun p => p.agent = o.agent) = some o → o.op = .word a → o.agent < 348 → o.tick = some k →
    arrived s k = true → (smGet {} s.x.tickets k).met = [] →
    let p := performAccess (dropTicket s k) o.agent (agentClock s o.agent) a.addr a.lw.toNat a.kind 0
    let t := stepOutside s o
    t.answers = s.answers ++ [(o.id, .value (BitVec.ofNat 2048 p.1))] ∧ t.c.mem = p.2.2.c.mem ∧
      t.x.outside = s.x.outside.filter (fun p => p.id ≠ o.id)) ∧
  (∀ s app sec (a : MemOp), (16 ≤ app ∨ (a.addr % 2 ^ a.lw.toNat ≠ 0 ∧ regionOf a.addr ≠ .reserved) ∨
      (sec = false ∧ regionOf a.addr = .hbm ∧ secureFrame s (a.addr / 16384) = true)) →
    exec (.hostDeviceAccess app sec a) s = .next (respond s .error)) ∧
  (∀ s w (a : MemOp), (12 ≤ w ∨ s.h.fwRun = false ∨ (a.addr % 2 ^ a.lw.toNat ≠ 0 ∧ regionOf a.addr ≠ .reserved)) →
    exec (.firmwareCoreAccess w a) s = .next (respond s .error)) ∧
  (∀ s app sec w (a : MemOp), app < 16 → w < 12 → regionOf a.addr = .reserved →
    let answer : Response := if a.kind = .load then .errorRead 0 else .error
    exec (.hostDeviceAccess app sec a) s = .next (respond s answer) ∧
    (s.h.fwRun = true → s.w.fwmode = false → exec (.firmwareCoreAccess w a) s = .next (respond s answer))) ∧
  (∀ s app sec (a : MemOp), app < 16 → regionOf a.addr = .control → a.addr % 2 ^ a.lw.toNat = 0 → 2 ≤ a.lw.toNat → a.kind = .load →
    regAt (a.addr - controlBase) = none → exec (.hostDeviceAccess app sec a) s = .next (respond s (.errorRead 0)))

/-! ## The whole machine: memory, reset, the steps -/

/-- No slot operation but CFENCE changes a byte of memory when it issues: what it moves is moved by the events of its request, a
store among them (R203, R310, R318). -/
def Obligations.SlotOperationsLeaveMemory : Prop :=
  ∀ (s t : State) (i : Instr) (op : SlotOp), slotOp i = some op → (∀ h u sc, i ≠ .cfence h u sc) → exec i s = .next t →
    ∀ a, rdByte t.c.mem a = rdByte s.c.mem a

/-- After power-on (R78, R121, R363, R394, R401): the counts are 0, self-test runs, firmware does not, no key is valid, no context is placed, memory is
empty, the mappings are those of the fuses' order, nothing stands in the timetables but refresh, and the registers hold their reset values; memory
is in canonical form. That memory reads zero and the registers that the spec gives no value read zero is the model's choice (log
entries 1, 2 and 3). -/
def Obligations.ResetState : Prop :=
  let s := State.reset
  s.t.now = 0 ∧ timebase s = 0 ∧ s.h.boot = .selfTest ∧ s.h.bootCnt = 0 ∧ s.h.fwRun = false ∧ s.h.kvalid = 0 ∧ s.t.frozen = false ∧
  (∀ c x, (getCtx s c x).status = .free) ∧ (∀ q, (getQ s q).en = false ∧ (getQ s q).st = .off ∧ (getQ s q).eng = none) ∧
  (∀ n, (getCl s n).cmap = 0x76543210 ∧ (getCl s n).cmapn = 0x76543210 ∧ (getCl s n).ways = 0 ∧ (getCl s n).present = 0 ∧ (getCl s n).owner = 0) ∧
  (∀ c, c < 256 → ∀ i, i < 64 → bitsN (liveOf s (1000 + c)).toNat (8 * i + 7) (8 * i) = if i = 0 ∨ i = 32 then 0x10 else 0x1F) ∧
  (∀ p, p < 80 → ∀ i, i < 64 → bitsN (liveOf s p).toNat (8 * i + 7) (8 * i) = 0x1F) ∧
  creg s 0x20F060 = 8 ∧ creg s 0x20F068 = 16 ∧ creg s 0x10A000 = 250000 ∧ (∀ n, n < 10 → dthr s n = 32) ∧
  creg s 0x1480 = BitVec.ofNat 512 (720 + 800 * 2 ^ 12 + 880 * 2 ^ 24) ∧ s.w.events = [] ∧ s.x.reqs = [] ∧ s.x.park = [] ∧ s.c.versions = [] ∧
  (∀ f, smGet false s.x.bias f = false) ∧ (∀ a, rdByte s.c.mem a = 0) ∧ Memory.wf s.c.mem = true

/-- Every step keeps memory in its canonical form: addresses strictly rising, no byte listed that reads zero. -/
def Obligations.StepsKeepMemoryCanonical : Prop :=
  ∀ s t : State, Memory.wf s.c.mem = true → step s = .next t → Memory.wf t.c.mem = true

/-- Every slot operation runs on every state whose core in focus runs a context, and every task and event on every state: an instruction or event
answers a next state, and no other fault or refusal stands in the model (R216, R368, R433). -/
def Obligations.EveryInstructionAnswers : Prop :=
  ∀ (s : State) (i : Instr), ((getCore s s.t.fcore).running.isSome = true ∨ (slotOp i = none ∧ i ≠ .nop)) →
    (isTask i = true → (getQ s s.t.fqueue).live = true) → ∃ t, exec i s = .next t
end

