-- ==== Sys2Proof/Laws/Tables.lean ====
section
/-! SUPPORT. Sparse tables: reading after a change, and the canonical form. The reading laws hold of every table, sorted or
not. -/

namespace Sys2Proof.Laws

open Sys2Proof Sys2Proof.Machine

variable {β : Type}

@[simp] theorem smGet_nil (d : β) (i : Nat) : smGet d [] i = d := rfl

@[simp] theorem smGet_cons (d : β) (k : Nat) (v : β) (m : SMap β) (i : Nat) :
    smGet d ((k, v) :: m) i = if k = i then v else smGet d m i := rfl

/-- A key put reads back, and every other key reads as before. -/
theorem smGet_smPut (d : β) (m : SMap β) (j : Nat) (w : β) (i : Nat) :
    smGet d (smPut m j w) i = if j = i then w else smGet d m i := by
  induction m with
  | nil => rfl
  | cons p m ih =>
    obtain ⟨k, v⟩ := p
    simp only [smPut]
    split
    · simp
    · split
      · subst k
        by_cases h : j = i <;> simp [h]
      · by_cases h : k = i
        · simp [h, show ¬ j = i by omega]
        · simp [h, ih]

/-- A key removed reads as the default, and every other key reads as before. -/
theorem smGet_smDel (d : β) (m : SMap β) (j i : Nat) :
    smGet d (smDel m j) i = if j = i then d else smGet d m i := by
  induction m with
  | nil => simp [smDel]
  | cons p m ih =>
    obtain ⟨k, v⟩ := p
    unfold smDel at ih ⊢
    by_cases h : k = j
    · subst k
      rw [List.filter_cons_of_neg (by simp), ih]
      by_cases hi : j = i <;> simp [hi]
    · rw [List.filter_cons_of_pos (by simpa using h), smGet_cons, ih]
      by_cases hi : k = i
      · simp [hi, show ¬ j = i by omega]
      · simp [hi]

/-- Reading a table of changed values reads the changed value; an unlisted key reads the default of the new table. -/
theorem smGet_smMap {γ : Type} (d : β) (e : γ) (g : Nat → β → γ) (m : SMap β) (i : Nat) (h : ∀ k, g k d = e) :
    smGet e (smMap g m) i = g i (smGet d m i) := by
  induction m with
  | nil => simp [smMap, h]
  | cons p m ih =>
    obtain ⟨k, v⟩ := p
    unfold smMap at ih ⊢
    rw [List.map_cons, smGet_cons, smGet_cons, ih]
    by_cases hk : k = i <;> simp [hk]

variable [DecidableEq β]

/-- Likewise for a table in canonical form. -/
theorem smGet_cmPut (d : β) (m : SMap β) (j : Nat) (w : β) (i : Nat) :
    smGet d (cmPut d m j w) i = if j = i then w else smGet d m i := by
  unfold cmPut
  split
  · rename_i h; rw [smGet_smDel, h]
  · exact smGet_smPut d m j w i

/-- The canonical form, said without recursion: no default listed, keys strictly rising. -/
theorem cmWf_iff (d : β) (m : SMap β) :
    cmWf d m = true ↔ (∀ p ∈ m, p.2 ≠ d) ∧ m.Pairwise (fun p q => p.1 < q.1) := by
  induction m with
  | nil => simp [cmWf]
  | cons p m ih =>
    obtain ⟨k, v⟩ := p
    cases m with
    | nil => simp [cmWf]
    | cons q m =>
      obtain ⟨k', v'⟩ := q
      simp only [cmWf, Bool.and_eq_true, decide_eq_true_eq, ih]
      constructor
      · rintro ⟨⟨h1, h2⟩, h3, h4⟩
        refine ⟨?_, List.pairwise_cons.2 ⟨?_, h4⟩⟩
        · intro p hp
          rcases List.mem_cons.1 hp with rfl | hp
          · simpa using h1
          · exact h3 p hp
        · intro p hp
          rcases List.mem_cons.1 hp with rfl | hp
          · exact h2
          · exact Nat.lt_trans h2 ((List.pairwise_cons.1 h4).1 p hp)
      · rintro ⟨h1, h2⟩
        have h3 := List.pairwise_cons.1 h2
        exact ⟨⟨by simpa using h1 (k, v) (by simp), h3.1 (k', v') (by simp)⟩, fun p hp => h1 p (List.mem_cons_of_mem _ hp), h3.2⟩

omit [DecidableEq β] in
/-- The keys of a table after a put: the old ones and the new one. -/
theorem mem_smPut {m : SMap β} {j : Nat} {w : β} {p : Nat × β} (h : p ∈ smPut m j w) : p ∈ m ∨ p = (j, w) := by
  induction m with
  | nil => simpa [smPut] using h
  | cons q m ih =>
    obtain ⟨k, v⟩ := q
    simp only [smPut] at h
    split at h
    · rcases List.mem_cons.1 h with h | h
      · exact .inr h
      · exact .inl h
    · split at h
      · rcases List.mem_cons.1 h with h | h
        · exact .inr h
        · exact .inl (List.mem_cons_of_mem _ h)
      · rcases List.mem_cons.1 h with h | h
        · exact .inl (by simp [h])
        · rcases ih h with h | h
          · exact .inl (List.mem_cons_of_mem _ h)
          · exact .inr h

/-- Removing a key keeps the canonical form. -/
theorem cmWf_smDel (d : β) (m : SMap β) (j : Nat) (h : cmWf d m = true) : cmWf d (smDel m j) = true := by
  rw [cmWf_iff] at h ⊢
  exact ⟨fun p hp => h.1 p ((List.mem_filter.1 hp).1), h.2.sublist List.filter_sublist⟩

/-- Putting a value other than the default keeps the canonical form. -/
theorem cmWf_smPut (d : β) (m : SMap β) (j : Nat) (w : β) (hw : w ≠ d) (h : cmWf d m = true) :
    cmWf d (smPut m j w) = true := by
  rw [cmWf_iff] at h ⊢
  refine ⟨fun p hp => (mem_smPut hp).elim (h.1 p) (fun e => by simpa [e] using hw), ?_⟩
  replace h := h.2
  induction m with
  | nil => simp [smPut]
  | cons q m ih =>
    obtain ⟨k, v⟩ := q
    have hq := List.pairwise_cons.1 h
    simp only [smPut]
    split
    · refine List.pairwise_cons.2 ⟨fun p hp => ?_, h⟩
      rcases List.mem_cons.1 hp with rfl | hp
      · assumption
      · have := hq.1 p hp; simp only at this ⊢; omega
    · split
      · subst k
        exact List.pairwise_cons.2 ⟨fun p hp => hq.1 p hp, hq.2⟩
      · refine List.pairwise_cons.2 ⟨fun p hp => ?_, ih hq.2⟩
        rcases mem_smPut hp with hp | rfl
        · exact hq.1 p hp
        · simp only; omega

/-- `cmPut` keeps the canonical form. -/
theorem cmWf_cmPut (d : β) (m : SMap β) (j : Nat) (w : β) (h : cmWf d m = true) : cmWf d (cmPut d m j w) = true := by
  unfold cmPut
  split
  · exact cmWf_smDel d m j h
  · rename_i hw; exact cmWf_smPut d m j w hw h

/-- Keeping some of the entries keeps the canonical form. -/
theorem cmWf_filter (d : β) (m : SMap β) (g : Nat × β → Bool) (h : cmWf d m = true) : cmWf d (m.filter g) = true := by
  rw [cmWf_iff] at h ⊢
  exact ⟨fun p hp => h.1 p ((List.mem_filter.1 hp).1), h.2.sublist List.filter_sublist⟩

/-- Two tables in canonical form that read alike everywhere are equal: equal contents are equal data. -/
theorem cmWf_ext (d : β) {m n : SMap β} (hm : cmWf d m = true) (hn : cmWf d n = true)
    (h : ∀ i, smGet d m i = smGet d n i) : m = n := by
  rw [cmWf_iff] at hm hn
  have head : ∀ {k v} {l : SMap β}, (∀ p ∈ (k, v) :: l, p.2 ≠ d) → ((k, v) :: l).Pairwise (fun p q => p.1 < q.1) →
      ∀ i, i < k → smGet d ((k, v) :: l) i = d := by
    intro k v l _ hp i hi
    have : ∀ l' : SMap β, (∀ p ∈ l', i < p.1) → smGet d l' i = d := by
      intro l' hl
      induction l' with
      | nil => rfl
      | cons q l' ih =>
        obtain ⟨k', v'⟩ := q
        have := hl (k', v') (by simp)
        rw [smGet_cons, if_neg (by simp only at this; omega)]
        exact ih (fun p hp => hl p (List.mem_cons_of_mem _ hp))
    refine this _ (fun p hpm => ?_)
    rcases List.mem_cons.1 hpm with rfl | hpm
    · exact hi
    · exact Nat.lt_trans hi ((List.pairwise_cons.1 hp).1 p hpm)
  have tail : ∀ {k v} {l : SMap β}, ((k, v) :: l).Pairwise (fun p q => p.1 < q.1) → smGet d l k = d := by
    intro k v l hp
    have hq := (List.pairwise_cons.1 hp).1
    clear hp
    induction l with
    | nil => rfl
    | cons q l ih =>
      obtain ⟨k', v'⟩ := q
      have := hq (k', v') (by simp)
      rw [smGet_cons, if_neg (by simp only at this; omega)]
      exact ih (fun p hp => hq p (List.mem_cons_of_mem _ hp))
  induction m generalizing n with
  | nil =>
    cases n with
    | nil => rfl
    | cons q n =>
      obtain ⟨k, v⟩ := q
      have := h k
      simp only [smGet_nil, smGet_cons, if_true] at this
      exact absurd this.symm (hn.1 (k, v) (by simp))
  | cons p m ih =>
    obtain ⟨k, v⟩ := p
    cases n with
    | nil =>
      have := h k
      simp only [smGet_nil, smGet_cons, if_true] at this
      exact absurd this (hm.1 (k, v) (by simp))
    | cons q n =>
      obtain ⟨k', v'⟩ := q
      have hv : v ≠ d := hm.1 (k, v) (by simp)
      have hv' : v' ≠ d := hn.1 (k', v') (by simp)
      have hk : k = k' := by
        rcases Nat.lt_trichotomy k k' with hlt | he | hlt
        · have := h k
          rw [head hn.1 hn.2 k hlt, smGet_cons, if_pos rfl] at this
          exact absurd this hv
        · exact he
        · have := h k'
          rw [head hm.1 hm.2 k' hlt, smGet_cons, if_pos rfl] at this
          exact absurd this.symm hv'
      subst hk
      have hvv : v = v' := by have := h k; simpa using this
      subst hvv
      rw [ih ⟨fun p hp => hm.1 p (List.mem_cons_of_mem _ hp), (List.pairwise_cons.1 hm.2).2⟩
        ⟨fun p hp => hn.1 p (List.mem_cons_of_mem _ hp), (List.pairwise_cons.1 hn.2).2⟩ (fun i => ?_)]
      by_cases hi : k = i
      · subst hi; rw [tail hm.2, tail hn.2]
      · have := h i; simpa [hi] using this

end Sys2Proof.Laws
end

