-- ==== Sys2Proof/Laws/Memory.lean ====
section
/-! SUPPORT. Memory: reading after writing, what a write leaves, and that every operation keeps the canonical form. -/

namespace Sys2Proof.Laws

open Sys2Proof Sys2Proof.Machine

variable (m : List Host.Cell)

/-- A byte written reads back; every other byte reads as before. -/
@[simp] theorem rdByte_wrByte (a : Nat) (b : Byte) (i : Nat) : rdByte (wrByte m a b) i = if a = i then b else rdByte m i :=
  smGet_cmPut _ _ _ _ _

/-- The bytes of a number written, little-endian; every other byte reads as before. -/
theorem rdByte_wrNat (a v n i : Nat) :
    rdByte (wrNat m a v n) i = if a ≤ i ∧ i < a + n then BitVec.ofNat 8 (v / 256 ^ (i - a)) else rdByte m i := by
  induction n generalizing m a v with
  | zero => simp only [wrNat]; rw [if_neg (by omega)]
  | succ n ih =>
    simp only [wrNat, ih, rdByte_wrByte]
    by_cases h1 : a = i
    · subst h1
      rw [if_neg (by omega), if_pos rfl, if_pos (by omega)]
      simp
    · by_cases h2 : a + 1 ≤ i ∧ i < a + 1 + n
      · rw [if_pos h2, if_pos (by omega), show i - a = (i - (a + 1)) + 1 by omega, Nat.pow_succ, Nat.mul_comm, Nat.div_div_eq_div_mul]
      · rw [if_neg h2, if_neg h1, if_neg (by omega)]

/-- A write leaves every byte outside it. -/
theorem rdByte_wrNat_other (a v n i : Nat) (h : i < a ∨ a + n ≤ i) : rdByte (wrNat m a v n) i = rdByte m i := by
  rw [rdByte_wrNat, if_neg (by omega)]

/-- The bytes of a list written; every other byte reads as before. -/
theorem rdByte_wrList (a : Nat) (l : List Byte) (i : Nat) :
    rdByte (wrList m a l) i = if a ≤ i ∧ i < a + l.length then l.getD (i - a) 0 else rdByte m i := by
  induction l generalizing m a with
  | nil => simp only [wrList]; rw [if_neg (by simp)]
  | cons b l ih =>
    simp only [wrList, ih, rdByte_wrByte, List.length_cons]
    by_cases h1 : a = i
    · subst h1
      rw [if_neg (by omega), if_pos rfl, if_pos (by omega)]
      simp
    · by_cases h2 : a + 1 ≤ i ∧ i < a + 1 + l.length
      · rw [if_pos h2, if_pos (by omega), show i - a = (i - (a + 1)) + 1 by omega, List.getD_cons_succ]
      · rw [if_neg h2, if_neg h1, if_neg (by omega)]

/-- A cleared range reads zero; every other byte reads as before. -/
theorem rdByte_clearRange (a n i : Nat) :
    rdByte (clearRange m a n) i = if a ≤ i ∧ i < a + n then 0 else rdByte m i := by
  unfold rdByte clearRange
  induction m with
  | nil => simp
  | cons p m ih =>
    obtain ⟨k, v⟩ := p
    by_cases hk : k < a ∨ a + n ≤ k
    · rw [List.filter_cons_of_pos (by simpa using hk), smGet_cons, smGet_cons, ih]
      by_cases hi : k = i
      · subst hi; rw [if_pos rfl, if_pos rfl, if_neg (by omega)]
      · rw [if_neg hi, if_neg hi]
    · rw [List.filter_cons_of_neg (by simpa using hk), ih, smGet_cons]
      by_cases hi : k = i
      · subst hi; rw [if_pos (by omega), if_pos (by omega)]
      · rw [if_neg hi]

/-- Bytes that agree make the same number. -/
theorem rdNat_congr {m m' : List Host.Cell} {a : Nat} (n : Nat) (h : ∀ i, a ≤ i → i < a + n → rdByte m i = rdByte m' i) :
    rdNat m a n = rdNat m' a n := by
  induction n generalizing a with
  | zero => rfl
  | succ n ih =>
    simp only [rdNat]
    rw [h a (by omega) (by omega), ih (fun i h1 h2 => h i (by omega) (by omega))]

/-- A number read is as wide as its bytes. -/
theorem rdNat_lt (a n : Nat) : rdNat m a n < 256 ^ n := by
  induction n generalizing a with
  | zero => simp [rdNat]
  | succ n ih =>
    have h1 := ih (a + 1)
    have h2 := (rdByte m a).isLt
    simp only [rdNat, Nat.pow_succ]
    omega

/-- A number written reads back, cut to its width. -/
theorem rdNat_wrNat (a v n : Nat) : rdNat (wrNat m a v n) a n = v % 256 ^ n := by
  induction n generalizing m a v with
  | zero => simp [rdNat, Nat.mod_one]
  | succ n ih =>
    have h0 : rdByte (wrNat m a v (n + 1)) a = BitVec.ofNat 8 v := by
      rw [rdByte_wrNat, if_pos (by omega)]; simp
    simp only [rdNat, h0, BitVec.toNat_ofNat]
    simp only [wrNat]
    rw [ih, show 256 ^ (n + 1) = 256 * 256 ^ n by rw [Nat.pow_succ, Nat.mul_comm], Nat.mod_mul]

/-- A number outside a write reads as before. -/
theorem rdNat_wrNat_other (a v n b k : Nat) (h : b + k ≤ a ∨ a + n ≤ b) : rdNat (wrNat m a v n) b k = rdNat m b k :=
  rdNat_congr k (fun i h1 h2 => rdByte_wrNat_other m a v n i (by omega))

/-! ## The canonical form -/

variable {m}

theorem wf_wrByte (a : Nat) (b : Byte) (h : Memory.wf m = true) : Memory.wf (wrByte m a b) = true := cmWf_cmPut _ _ _ _ h

theorem wf_wrNat (a v n : Nat) (h : Memory.wf m = true) : Memory.wf (wrNat m a v n) = true := by
  induction n generalizing m a v with
  | zero => exact h
  | succ n ih => exact ih _ _ (wf_wrByte _ _ h)

theorem wf_wrList (a : Nat) (l : List Byte) (h : Memory.wf m = true) : Memory.wf (wrList m a l) = true := by
  induction l generalizing m a with
  | nil => exact h
  | cons b l ih => exact ih _ (wf_wrByte _ _ h)

theorem wf_clearRange (a n : Nat) (h : Memory.wf m = true) : Memory.wf (clearRange m a n) = true := cmWf_filter _ _ _ h

/-- The memory of the state after power-on is canonical. -/
theorem wf_reset : Memory.wf State.reset.c.mem = true := rfl

/-- Two canonical memories that hold the same bytes are the same data. -/
theorem memory_ext {m n : List Host.Cell} (hm : Memory.wf m = true) (hn : Memory.wf n = true)
    (h : ∀ a, rdByte m a = rdByte n a) : m = n := cmWf_ext 0 hm hn h

end Sys2Proof.Laws
end

