-- ==== Sys2Proof/Laws/State.lean ====
section
/-! SUPPORT. What each named update of the state leaves in each of its fields, so that no later proof unfolds a record
update. -/

namespace Sys2Proof.Laws

open Sys2Proof Sys2Proof.Machine

variable (s : State)


/-! ### setCore -/

@[simp] theorem setCore_clusters (c : Nat) (k : Core) : (setCore s c k).clusters = s.clusters := rfl
@[simp] theorem setCore_creg (c : Nat) (k : Core) : (setCore s c k).creg = s.creg := rfl
@[simp] theorem setCore_cwords (c : Nat) (k : Core) : (setCore s c k).cwords = s.cwords := rfl
@[simp] theorem setCore_resp (c : Nat) (k : Core) : (setCore s c k).resp = s.resp := rfl
@[simp] theorem setCore_answers (c : Nat) (k : Core) : (setCore s c k).answers = s.answers := rfl
@[simp] theorem setCore_t (c : Nat) (k : Core) : (setCore s c k).t = s.t := rfl
@[simp] theorem setCore_c (c : Nat) (k : Core) : (setCore s c k).c = s.c := rfl
@[simp] theorem setCore_x (c : Nat) (k : Core) : (setCore s c k).x = s.x := rfl
@[simp] theorem setCore_f (c : Nat) (k : Core) : (setCore s c k).f = s.f := rfl
@[simp] theorem setCore_w (c : Nat) (k : Core) : (setCore s c k).w = s.w := rfl
@[simp] theorem setCore_d (c : Nat) (k : Core) : (setCore s c k).d = s.d := rfl
@[simp] theorem setCore_h (c : Nat) (k : Core) : (setCore s c k).h = s.h := rfl
@[simp] theorem setCore_cores (c : Nat) (k : Core) : (setCore s c k).cores = smPut s.cores c k := rfl

/-! ### modCore -/

@[simp] theorem modCore_clusters (c : Nat) (g : Core → Core) : (modCore s c g).clusters = s.clusters := rfl
@[simp] theorem modCore_creg (c : Nat) (g : Core → Core) : (modCore s c g).creg = s.creg := rfl
@[simp] theorem modCore_cwords (c : Nat) (g : Core → Core) : (modCore s c g).cwords = s.cwords := rfl
@[simp] theorem modCore_resp (c : Nat) (g : Core → Core) : (modCore s c g).resp = s.resp := rfl
@[simp] theorem modCore_answers (c : Nat) (g : Core → Core) : (modCore s c g).answers = s.answers := rfl
@[simp] theorem modCore_t (c : Nat) (g : Core → Core) : (modCore s c g).t = s.t := rfl
@[simp] theorem modCore_c (c : Nat) (g : Core → Core) : (modCore s c g).c = s.c := rfl
@[simp] theorem modCore_x (c : Nat) (g : Core → Core) : (modCore s c g).x = s.x := rfl
@[simp] theorem modCore_f (c : Nat) (g : Core → Core) : (modCore s c g).f = s.f := rfl
@[simp] theorem modCore_w (c : Nat) (g : Core → Core) : (modCore s c g).w = s.w := rfl
@[simp] theorem modCore_d (c : Nat) (g : Core → Core) : (modCore s c g).d = s.d := rfl
@[simp] theorem modCore_h (c : Nat) (g : Core → Core) : (modCore s c g).h = s.h := rfl
@[simp] theorem modCore_cores (c : Nat) (g : Core → Core) : (modCore s c g).cores = smPut s.cores c (g (getCore s c)) := rfl

/-! ### setCtx -/

@[simp] theorem setCtx_clusters (c x : Nat) (v : Ctx) : (setCtx s c x v).clusters = s.clusters := rfl
@[simp] theorem setCtx_creg (c x : Nat) (v : Ctx) : (setCtx s c x v).creg = s.creg := rfl
@[simp] theorem setCtx_cwords (c x : Nat) (v : Ctx) : (setCtx s c x v).cwords = s.cwords := rfl
@[simp] theorem setCtx_resp (c x : Nat) (v : Ctx) : (setCtx s c x v).resp = s.resp := rfl
@[simp] theorem setCtx_answers (c x : Nat) (v : Ctx) : (setCtx s c x v).answers = s.answers := rfl
@[simp] theorem setCtx_t (c x : Nat) (v : Ctx) : (setCtx s c x v).t = s.t := rfl
@[simp] theorem setCtx_c (c x : Nat) (v : Ctx) : (setCtx s c x v).c = s.c := rfl
@[simp] theorem setCtx_x (c x : Nat) (v : Ctx) : (setCtx s c x v).x = s.x := rfl
@[simp] theorem setCtx_f (c x : Nat) (v : Ctx) : (setCtx s c x v).f = s.f := rfl
@[simp] theorem setCtx_w (c x : Nat) (v : Ctx) : (setCtx s c x v).w = s.w := rfl
@[simp] theorem setCtx_d (c x : Nat) (v : Ctx) : (setCtx s c x v).d = s.d := rfl
@[simp] theorem setCtx_h (c x : Nat) (v : Ctx) : (setCtx s c x v).h = s.h := rfl
@[simp] theorem setCtx_cores (c x : Nat) (v : Ctx) : (setCtx s c x v).cores = smPut s.cores c (putCtx (getCore s c) x v) := rfl

/-! ### modCtx -/

@[simp] theorem modCtx_clusters (c x : Nat) (g : Ctx → Ctx) : (modCtx s c x g).clusters = s.clusters := rfl
@[simp] theorem modCtx_creg (c x : Nat) (g : Ctx → Ctx) : (modCtx s c x g).creg = s.creg := rfl
@[simp] theorem modCtx_cwords (c x : Nat) (g : Ctx → Ctx) : (modCtx s c x g).cwords = s.cwords := rfl
@[simp] theorem modCtx_resp (c x : Nat) (g : Ctx → Ctx) : (modCtx s c x g).resp = s.resp := rfl
@[simp] theorem modCtx_answers (c x : Nat) (g : Ctx → Ctx) : (modCtx s c x g).answers = s.answers := rfl
@[simp] theorem modCtx_t (c x : Nat) (g : Ctx → Ctx) : (modCtx s c x g).t = s.t := rfl
@[simp] theorem modCtx_c (c x : Nat) (g : Ctx → Ctx) : (modCtx s c x g).c = s.c := rfl
@[simp] theorem modCtx_x (c x : Nat) (g : Ctx → Ctx) : (modCtx s c x g).x = s.x := rfl
@[simp] theorem modCtx_f (c x : Nat) (g : Ctx → Ctx) : (modCtx s c x g).f = s.f := rfl
@[simp] theorem modCtx_w (c x : Nat) (g : Ctx → Ctx) : (modCtx s c x g).w = s.w := rfl
@[simp] theorem modCtx_d (c x : Nat) (g : Ctx → Ctx) : (modCtx s c x g).d = s.d := rfl
@[simp] theorem modCtx_h (c x : Nat) (g : Ctx → Ctx) : (modCtx s c x g).h = s.h := rfl
@[simp] theorem modCtx_cores (c x : Nat) (g : Ctx → Ctx) : (modCtx s c x g).cores = smPut s.cores c (putCtx (getCore s c) x (g (getCtx s c x))) := rfl

/-! ### modRegs -/

@[simp] theorem modRegs_clusters (c x : Nat) (g : Regs → Regs) : (modRegs s c x g).clusters = s.clusters := rfl
@[simp] theorem modRegs_creg (c x : Nat) (g : Regs → Regs) : (modRegs s c x g).creg = s.creg := rfl
@[simp] theorem modRegs_cwords (c x : Nat) (g : Regs → Regs) : (modRegs s c x g).cwords = s.cwords := rfl
@[simp] theorem modRegs_resp (c x : Nat) (g : Regs → Regs) : (modRegs s c x g).resp = s.resp := rfl
@[simp] theorem modRegs_answers (c x : Nat) (g : Regs → Regs) : (modRegs s c x g).answers = s.answers := rfl
@[simp] theorem modRegs_t (c x : Nat) (g : Regs → Regs) : (modRegs s c x g).t = s.t := rfl
@[simp] theorem modRegs_c (c x : Nat) (g : Regs → Regs) : (modRegs s c x g).c = s.c := rfl
@[simp] theorem modRegs_x (c x : Nat) (g : Regs → Regs) : (modRegs s c x g).x = s.x := rfl
@[simp] theorem modRegs_f (c x : Nat) (g : Regs → Regs) : (modRegs s c x g).f = s.f := rfl
@[simp] theorem modRegs_w (c x : Nat) (g : Regs → Regs) : (modRegs s c x g).w = s.w := rfl
@[simp] theorem modRegs_d (c x : Nat) (g : Regs → Regs) : (modRegs s c x g).d = s.d := rfl
@[simp] theorem modRegs_h (c x : Nat) (g : Regs → Regs) : (modRegs s c x g).h = s.h := rfl

/-! ### setCl -/

@[simp] theorem setCl_cores (n : Nat) (v : Cluster) : (setCl s n v).cores = s.cores := rfl
@[simp] theorem setCl_creg (n : Nat) (v : Cluster) : (setCl s n v).creg = s.creg := rfl
@[simp] theorem setCl_cwords (n : Nat) (v : Cluster) : (setCl s n v).cwords = s.cwords := rfl
@[simp] theorem setCl_resp (n : Nat) (v : Cluster) : (setCl s n v).resp = s.resp := rfl
@[simp] theorem setCl_answers (n : Nat) (v : Cluster) : (setCl s n v).answers = s.answers := rfl
@[simp] theorem setCl_t (n : Nat) (v : Cluster) : (setCl s n v).t = s.t := rfl
@[simp] theorem setCl_c (n : Nat) (v : Cluster) : (setCl s n v).c = s.c := rfl
@[simp] theorem setCl_x (n : Nat) (v : Cluster) : (setCl s n v).x = s.x := rfl
@[simp] theorem setCl_f (n : Nat) (v : Cluster) : (setCl s n v).f = s.f := rfl
@[simp] theorem setCl_w (n : Nat) (v : Cluster) : (setCl s n v).w = s.w := rfl
@[simp] theorem setCl_d (n : Nat) (v : Cluster) : (setCl s n v).d = s.d := rfl
@[simp] theorem setCl_h (n : Nat) (v : Cluster) : (setCl s n v).h = s.h := rfl
@[simp] theorem setCl_clusters (n : Nat) (v : Cluster) : (setCl s n v).clusters = smPut s.clusters n v := rfl

/-! ### modCl -/

@[simp] theorem modCl_cores (n : Nat) (g : Cluster → Cluster) : (modCl s n g).cores = s.cores := rfl
@[simp] theorem modCl_creg (n : Nat) (g : Cluster → Cluster) : (modCl s n g).creg = s.creg := rfl
@[simp] theorem modCl_cwords (n : Nat) (g : Cluster → Cluster) : (modCl s n g).cwords = s.cwords := rfl
@[simp] theorem modCl_resp (n : Nat) (g : Cluster → Cluster) : (modCl s n g).resp = s.resp := rfl
@[simp] theorem modCl_answers (n : Nat) (g : Cluster → Cluster) : (modCl s n g).answers = s.answers := rfl
@[simp] theorem modCl_t (n : Nat) (g : Cluster → Cluster) : (modCl s n g).t = s.t := rfl
@[simp] theorem modCl_c (n : Nat) (g : Cluster → Cluster) : (modCl s n g).c = s.c := rfl
@[simp] theorem modCl_x (n : Nat) (g : Cluster → Cluster) : (modCl s n g).x = s.x := rfl
@[simp] theorem modCl_f (n : Nat) (g : Cluster → Cluster) : (modCl s n g).f = s.f := rfl
@[simp] theorem modCl_w (n : Nat) (g : Cluster → Cluster) : (modCl s n g).w = s.w := rfl
@[simp] theorem modCl_d (n : Nat) (g : Cluster → Cluster) : (modCl s n g).d = s.d := rfl
@[simp] theorem modCl_h (n : Nat) (g : Cluster → Cluster) : (modCl s n g).h = s.h := rfl
@[simp] theorem modCl_clusters (n : Nat) (g : Cluster → Cluster) : (modCl s n g).clusters = smPut s.clusters n (g (getCl s n)) := rfl

/-! ### setQ -/

@[simp] theorem setQ_cores (n : Nat) (v : Queue) : (setQ s n v).cores = s.cores := rfl
@[simp] theorem setQ_clusters (n : Nat) (v : Queue) : (setQ s n v).clusters = s.clusters := rfl
@[simp] theorem setQ_creg (n : Nat) (v : Queue) : (setQ s n v).creg = s.creg := rfl
@[simp] theorem setQ_cwords (n : Nat) (v : Queue) : (setQ s n v).cwords = s.cwords := rfl
@[simp] theorem setQ_resp (n : Nat) (v : Queue) : (setQ s n v).resp = s.resp := rfl
@[simp] theorem setQ_answers (n : Nat) (v : Queue) : (setQ s n v).answers = s.answers := rfl
@[simp] theorem setQ_t (n : Nat) (v : Queue) : (setQ s n v).t = s.t := rfl
@[simp] theorem setQ_c (n : Nat) (v : Queue) : (setQ s n v).c = s.c := rfl
@[simp] theorem setQ_x (n : Nat) (v : Queue) : (setQ s n v).x = s.x := rfl
@[simp] theorem setQ_w (n : Nat) (v : Queue) : (setQ s n v).w = s.w := rfl
@[simp] theorem setQ_d (n : Nat) (v : Queue) : (setQ s n v).d = s.d := rfl
@[simp] theorem setQ_h (n : Nat) (v : Queue) : (setQ s n v).h = s.h := rfl
@[simp] theorem setQ_queues (n : Nat) (v : Queue) : (setQ s n v).f.queues = smPut s.f.queues n v := rfl
@[simp] theorem setQ_remap (n : Nat) (v : Queue) : (setQ s n v).f.remap = s.f.remap := rfl
@[simp] theorem setQ_wagons (n : Nat) (v : Queue) : (setQ s n v).f.wagons = s.f.wagons := rfl
@[simp] theorem setQ_readers (n : Nat) (v : Queue) : (setQ s n v).f.readers = s.f.readers := rfl
@[simp] theorem setQ_released (n : Nat) (v : Queue) : (setQ s n v).f.released = s.f.released := rfl
@[simp] theorem setQ_wagonPart (n : Nat) (v : Queue) : (setQ s n v).f.wagonPart = s.f.wagonPart := rfl
@[simp] theorem setQ_wagonMaker (n : Nat) (v : Queue) : (setQ s n v).f.wagonMaker = s.f.wagonMaker := rfl
@[simp] theorem setQ_sidings (n : Nat) (v : Queue) : (setQ s n v).f.sidings = s.f.sidings := rfl
@[simp] theorem setQ_zeroing (n : Nat) (v : Queue) : (setQ s n v).f.zeroing = s.f.zeroing := rfl
@[simp] theorem setQ_fes (n : Nat) (v : Queue) : (setQ s n v).f.fes = s.f.fes := rfl
@[simp] theorem setQ_jobs (n : Nat) (v : Queue) : (setQ s n v).f.jobs = s.f.jobs := rfl

/-! ### modQ -/

@[simp] theorem modQ_cores (n : Nat) (g : Queue → Queue) : (modQ s n g).cores = s.cores := rfl
@[simp] theorem modQ_clusters (n : Nat) (g : Queue → Queue) : (modQ s n g).clusters = s.clusters := rfl
@[simp] theorem modQ_creg (n : Nat) (g : Queue → Queue) : (modQ s n g).creg = s.creg := rfl
@[simp] theorem modQ_cwords (n : Nat) (g : Queue → Queue) : (modQ s n g).cwords = s.cwords := rfl
@[simp] theorem modQ_resp (n : Nat) (g : Queue → Queue) : (modQ s n g).resp = s.resp := rfl
@[simp] theorem modQ_answers (n : Nat) (g : Queue → Queue) : (modQ s n g).answers = s.answers := rfl
@[simp] theorem modQ_t (n : Nat) (g : Queue → Queue) : (modQ s n g).t = s.t := rfl
@[simp] theorem modQ_c (n : Nat) (g : Queue → Queue) : (modQ s n g).c = s.c := rfl
@[simp] theorem modQ_x (n : Nat) (g : Queue → Queue) : (modQ s n g).x = s.x := rfl
@[simp] theorem modQ_w (n : Nat) (g : Queue → Queue) : (modQ s n g).w = s.w := rfl
@[simp] theorem modQ_d (n : Nat) (g : Queue → Queue) : (modQ s n g).d = s.d := rfl
@[simp] theorem modQ_h (n : Nat) (g : Queue → Queue) : (modQ s n g).h = s.h := rfl
@[simp] theorem modQ_queues (n : Nat) (g : Queue → Queue) : (modQ s n g).f.queues = smPut s.f.queues n (g (getQ s n)) := rfl
@[simp] theorem modQ_remap (n : Nat) (g : Queue → Queue) : (modQ s n g).f.remap = s.f.remap := rfl
@[simp] theorem modQ_wagons (n : Nat) (g : Queue → Queue) : (modQ s n g).f.wagons = s.f.wagons := rfl
@[simp] theorem modQ_readers (n : Nat) (g : Queue → Queue) : (modQ s n g).f.readers = s.f.readers := rfl
@[simp] theorem modQ_released (n : Nat) (g : Queue → Queue) : (modQ s n g).f.released = s.f.released := rfl
@[simp] theorem modQ_wagonPart (n : Nat) (g : Queue → Queue) : (modQ s n g).f.wagonPart = s.f.wagonPart := rfl
@[simp] theorem modQ_wagonMaker (n : Nat) (g : Queue → Queue) : (modQ s n g).f.wagonMaker = s.f.wagonMaker := rfl
@[simp] theorem modQ_sidings (n : Nat) (g : Queue → Queue) : (modQ s n g).f.sidings = s.f.sidings := rfl
@[simp] theorem modQ_zeroing (n : Nat) (g : Queue → Queue) : (modQ s n g).f.zeroing = s.f.zeroing := rfl
@[simp] theorem modQ_fes (n : Nat) (g : Queue → Queue) : (modQ s n g).f.fes = s.f.fes := rfl
@[simp] theorem modQ_jobs (n : Nat) (g : Queue → Queue) : (modQ s n g).f.jobs = s.f.jobs := rfl

/-! ### setJob -/

@[simp] theorem setJob_cores (n : Nat) (v : Job) : (setJob s n v).cores = s.cores := rfl
@[simp] theorem setJob_clusters (n : Nat) (v : Job) : (setJob s n v).clusters = s.clusters := rfl
@[simp] theorem setJob_creg (n : Nat) (v : Job) : (setJob s n v).creg = s.creg := rfl
@[simp] theorem setJob_cwords (n : Nat) (v : Job) : (setJob s n v).cwords = s.cwords := rfl
@[simp] theorem setJob_resp (n : Nat) (v : Job) : (setJob s n v).resp = s.resp := rfl
@[simp] theorem setJob_answers (n : Nat) (v : Job) : (setJob s n v).answers = s.answers := rfl
@[simp] theorem setJob_t (n : Nat) (v : Job) : (setJob s n v).t = s.t := rfl
@[simp] theorem setJob_c (n : Nat) (v : Job) : (setJob s n v).c = s.c := rfl
@[simp] theorem setJob_x (n : Nat) (v : Job) : (setJob s n v).x = s.x := rfl
@[simp] theorem setJob_w (n : Nat) (v : Job) : (setJob s n v).w = s.w := rfl
@[simp] theorem setJob_d (n : Nat) (v : Job) : (setJob s n v).d = s.d := rfl
@[simp] theorem setJob_h (n : Nat) (v : Job) : (setJob s n v).h = s.h := rfl
@[simp] theorem setJob_queues (n : Nat) (v : Job) : (setJob s n v).f.queues = s.f.queues := rfl
@[simp] theorem setJob_remap (n : Nat) (v : Job) : (setJob s n v).f.remap = s.f.remap := rfl
@[simp] theorem setJob_wagons (n : Nat) (v : Job) : (setJob s n v).f.wagons = s.f.wagons := rfl
@[simp] theorem setJob_readers (n : Nat) (v : Job) : (setJob s n v).f.readers = s.f.readers := rfl
@[simp] theorem setJob_released (n : Nat) (v : Job) : (setJob s n v).f.released = s.f.released := rfl
@[simp] theorem setJob_wagonPart (n : Nat) (v : Job) : (setJob s n v).f.wagonPart = s.f.wagonPart := rfl
@[simp] theorem setJob_wagonMaker (n : Nat) (v : Job) : (setJob s n v).f.wagonMaker = s.f.wagonMaker := rfl
@[simp] theorem setJob_sidings (n : Nat) (v : Job) : (setJob s n v).f.sidings = s.f.sidings := rfl
@[simp] theorem setJob_zeroing (n : Nat) (v : Job) : (setJob s n v).f.zeroing = s.f.zeroing := rfl
@[simp] theorem setJob_fes (n : Nat) (v : Job) : (setJob s n v).f.fes = s.f.fes := rfl
@[simp] theorem setJob_jobs (n : Nat) (v : Job) : (setJob s n v).f.jobs = smPut s.f.jobs n v := rfl

/-! ### modJob -/

@[simp] theorem modJob_cores (n : Nat) (g : Job → Job) : (modJob s n g).cores = s.cores := rfl
@[simp] theorem modJob_clusters (n : Nat) (g : Job → Job) : (modJob s n g).clusters = s.clusters := rfl
@[simp] theorem modJob_creg (n : Nat) (g : Job → Job) : (modJob s n g).creg = s.creg := rfl
@[simp] theorem modJob_cwords (n : Nat) (g : Job → Job) : (modJob s n g).cwords = s.cwords := rfl
@[simp] theorem modJob_resp (n : Nat) (g : Job → Job) : (modJob s n g).resp = s.resp := rfl
@[simp] theorem modJob_answers (n : Nat) (g : Job → Job) : (modJob s n g).answers = s.answers := rfl
@[simp] theorem modJob_t (n : Nat) (g : Job → Job) : (modJob s n g).t = s.t := rfl
@[simp] theorem modJob_c (n : Nat) (g : Job → Job) : (modJob s n g).c = s.c := rfl
@[simp] theorem modJob_x (n : Nat) (g : Job → Job) : (modJob s n g).x = s.x := rfl
@[simp] theorem modJob_w (n : Nat) (g : Job → Job) : (modJob s n g).w = s.w := rfl
@[simp] theorem modJob_d (n : Nat) (g : Job → Job) : (modJob s n g).d = s.d := rfl
@[simp] theorem modJob_h (n : Nat) (g : Job → Job) : (modJob s n g).h = s.h := rfl
@[simp] theorem modJob_queues (n : Nat) (g : Job → Job) : (modJob s n g).f.queues = s.f.queues := rfl
@[simp] theorem modJob_remap (n : Nat) (g : Job → Job) : (modJob s n g).f.remap = s.f.remap := rfl
@[simp] theorem modJob_wagons (n : Nat) (g : Job → Job) : (modJob s n g).f.wagons = s.f.wagons := rfl
@[simp] theorem modJob_readers (n : Nat) (g : Job → Job) : (modJob s n g).f.readers = s.f.readers := rfl
@[simp] theorem modJob_released (n : Nat) (g : Job → Job) : (modJob s n g).f.released = s.f.released := rfl
@[simp] theorem modJob_wagonPart (n : Nat) (g : Job → Job) : (modJob s n g).f.wagonPart = s.f.wagonPart := rfl
@[simp] theorem modJob_wagonMaker (n : Nat) (g : Job → Job) : (modJob s n g).f.wagonMaker = s.f.wagonMaker := rfl
@[simp] theorem modJob_sidings (n : Nat) (g : Job → Job) : (modJob s n g).f.sidings = s.f.sidings := rfl
@[simp] theorem modJob_zeroing (n : Nat) (g : Job → Job) : (modJob s n g).f.zeroing = s.f.zeroing := rfl
@[simp] theorem modJob_fes (n : Nat) (g : Job → Job) : (modJob s n g).f.fes = s.f.fes := rfl
@[simp] theorem modJob_jobs (n : Nat) (g : Job → Job) : (modJob s n g).f.jobs = smPut s.f.jobs n (g (getJob s n)) := rfl

/-! ### setReq -/

@[simp] theorem setReq_cores (n : Nat) (v : Req) : (setReq s n v).cores = s.cores := rfl
@[simp] theorem setReq_clusters (n : Nat) (v : Req) : (setReq s n v).clusters = s.clusters := rfl
@[simp] theorem setReq_creg (n : Nat) (v : Req) : (setReq s n v).creg = s.creg := rfl
@[simp] theorem setReq_cwords (n : Nat) (v : Req) : (setReq s n v).cwords = s.cwords := rfl
@[simp] theorem setReq_resp (n : Nat) (v : Req) : (setReq s n v).resp = s.resp := rfl
@[simp] theorem setReq_answers (n : Nat) (v : Req) : (setReq s n v).answers = s.answers := rfl
@[simp] theorem setReq_t (n : Nat) (v : Req) : (setReq s n v).t = s.t := rfl
@[simp] theorem setReq_c (n : Nat) (v : Req) : (setReq s n v).c = s.c := rfl
@[simp] theorem setReq_f (n : Nat) (v : Req) : (setReq s n v).f = s.f := rfl
@[simp] theorem setReq_w (n : Nat) (v : Req) : (setReq s n v).w = s.w := rfl
@[simp] theorem setReq_d (n : Nat) (v : Req) : (setReq s n v).d = s.d := rfl
@[simp] theorem setReq_h (n : Nat) (v : Req) : (setReq s n v).h = s.h := rfl
@[simp] theorem setReq_htt (n : Nat) (v : Req) : (setReq s n v).x.htt = s.x.htt := rfl
@[simp] theorem setReq_hbmCommit (n : Nat) (v : Req) : (setReq s n v).x.hbmCommit = s.x.hbmCommit := rfl
@[simp] theorem setReq_claims (n : Nat) (v : Req) : (setReq s n v).x.claims = s.x.claims := rfl
@[simp] theorem setReq_tickets (n : Nat) (v : Req) : (setReq s n v).x.tickets = s.x.tickets := rfl
@[simp] theorem setReq_outside (n : Nat) (v : Req) : (setReq s n v).x.outside = s.x.outside := rfl
@[simp] theorem setReq_bias (n : Nat) (v : Req) : (setReq s n v).x.bias = s.x.bias := rfl
@[simp] theorem setReq_lunits (n : Nat) (v : Req) : (setReq s n v).x.lunits = s.x.lunits := rfl
@[simp] theorem setReq_reqs (n : Nat) (v : Req) : (setReq s n v).x.reqs = smPut s.x.reqs n v := rfl
@[simp] theorem setReq_drains (n : Nat) (v : Req) : (setReq s n v).x.drains = s.x.drains := rfl
@[simp] theorem setReq_park (n : Nat) (v : Req) : (setReq s n v).x.park = s.x.park := rfl
@[simp] theorem setReq_frTail (n : Nat) (v : Req) : (setReq s n v).x.frTail = s.x.frTail := rfl
@[simp] theorem setReq_replay (n : Nat) (v : Req) : (setReq s n v).x.replay = s.x.replay := rfl
@[simp] theorem setReq_inv (n : Nat) (v : Req) : (setReq s n v).x.inv = s.x.inv := rfl
@[simp] theorem setReq_invseq (n : Nat) (v : Req) : (setReq s n v).x.invseq = s.x.invseq := rfl
@[simp] theorem setReq_flip (n : Nat) (v : Req) : (setReq s n v).x.flip = s.x.flip := rfl
@[simp] theorem setReq_flipFail (n : Nat) (v : Req) : (setReq s n v).x.flipFail = s.x.flipFail := rfl
@[simp] theorem setReq_swTail (n : Nat) (v : Req) : (setReq s n v).x.swTail = s.x.swTail := rfl
@[simp] theorem setReq_swHead (n : Nat) (v : Req) : (setReq s n v).x.swHead = s.x.swHead := rfl
@[simp] theorem setReq_swap (n : Nat) (v : Req) : (setReq s n v).x.swap = s.x.swap := rfl

/-! ### modReq -/

@[simp] theorem modReq_cores (n : Nat) (g : Req → Req) : (modReq s n g).cores = s.cores := rfl
@[simp] theorem modReq_clusters (n : Nat) (g : Req → Req) : (modReq s n g).clusters = s.clusters := rfl
@[simp] theorem modReq_creg (n : Nat) (g : Req → Req) : (modReq s n g).creg = s.creg := rfl
@[simp] theorem modReq_cwords (n : Nat) (g : Req → Req) : (modReq s n g).cwords = s.cwords := rfl
@[simp] theorem modReq_resp (n : Nat) (g : Req → Req) : (modReq s n g).resp = s.resp := rfl
@[simp] theorem modReq_answers (n : Nat) (g : Req → Req) : (modReq s n g).answers = s.answers := rfl
@[simp] theorem modReq_t (n : Nat) (g : Req → Req) : (modReq s n g).t = s.t := rfl
@[simp] theorem modReq_c (n : Nat) (g : Req → Req) : (modReq s n g).c = s.c := rfl
@[simp] theorem modReq_f (n : Nat) (g : Req → Req) : (modReq s n g).f = s.f := rfl
@[simp] theorem modReq_w (n : Nat) (g : Req → Req) : (modReq s n g).w = s.w := rfl
@[simp] theorem modReq_d (n : Nat) (g : Req → Req) : (modReq s n g).d = s.d := rfl
@[simp] theorem modReq_h (n : Nat) (g : Req → Req) : (modReq s n g).h = s.h := rfl
@[simp] theorem modReq_htt (n : Nat) (g : Req → Req) : (modReq s n g).x.htt = s.x.htt := rfl
@[simp] theorem modReq_hbmCommit (n : Nat) (g : Req → Req) : (modReq s n g).x.hbmCommit = s.x.hbmCommit := rfl
@[simp] theorem modReq_claims (n : Nat) (g : Req → Req) : (modReq s n g).x.claims = s.x.claims := rfl
@[simp] theorem modReq_tickets (n : Nat) (g : Req → Req) : (modReq s n g).x.tickets = s.x.tickets := rfl
@[simp] theorem modReq_outside (n : Nat) (g : Req → Req) : (modReq s n g).x.outside = s.x.outside := rfl
@[simp] theorem modReq_bias (n : Nat) (g : Req → Req) : (modReq s n g).x.bias = s.x.bias := rfl
@[simp] theorem modReq_lunits (n : Nat) (g : Req → Req) : (modReq s n g).x.lunits = s.x.lunits := rfl
@[simp] theorem modReq_reqs (n : Nat) (g : Req → Req) : (modReq s n g).x.reqs = smPut s.x.reqs n (g (getReq s n)) := rfl
@[simp] theorem modReq_drains (n : Nat) (g : Req → Req) : (modReq s n g).x.drains = s.x.drains := rfl
@[simp] theorem modReq_park (n : Nat) (g : Req → Req) : (modReq s n g).x.park = s.x.park := rfl
@[simp] theorem modReq_frTail (n : Nat) (g : Req → Req) : (modReq s n g).x.frTail = s.x.frTail := rfl
@[simp] theorem modReq_replay (n : Nat) (g : Req → Req) : (modReq s n g).x.replay = s.x.replay := rfl
@[simp] theorem modReq_inv (n : Nat) (g : Req → Req) : (modReq s n g).x.inv = s.x.inv := rfl
@[simp] theorem modReq_invseq (n : Nat) (g : Req → Req) : (modReq s n g).x.invseq = s.x.invseq := rfl
@[simp] theorem modReq_flip (n : Nat) (g : Req → Req) : (modReq s n g).x.flip = s.x.flip := rfl
@[simp] theorem modReq_flipFail (n : Nat) (g : Req → Req) : (modReq s n g).x.flipFail = s.x.flipFail := rfl
@[simp] theorem modReq_swTail (n : Nat) (g : Req → Req) : (modReq s n g).x.swTail = s.x.swTail := rfl
@[simp] theorem modReq_swHead (n : Nat) (g : Req → Req) : (modReq s n g).x.swHead = s.x.swHead := rfl
@[simp] theorem modReq_swap (n : Nat) (g : Req → Req) : (modReq s n g).x.swap = s.x.swap := rfl

/-! ### dropReq -/

@[simp] theorem dropReq_cores (n : Nat) : (dropReq s n).cores = s.cores := rfl
@[simp] theorem dropReq_clusters (n : Nat) : (dropReq s n).clusters = s.clusters := rfl
@[simp] theorem dropReq_creg (n : Nat) : (dropReq s n).creg = s.creg := rfl
@[simp] theorem dropReq_cwords (n : Nat) : (dropReq s n).cwords = s.cwords := rfl
@[simp] theorem dropReq_resp (n : Nat) : (dropReq s n).resp = s.resp := rfl
@[simp] theorem dropReq_answers (n : Nat) : (dropReq s n).answers = s.answers := rfl
@[simp] theorem dropReq_t (n : Nat) : (dropReq s n).t = s.t := rfl
@[simp] theorem dropReq_c (n : Nat) : (dropReq s n).c = s.c := rfl
@[simp] theorem dropReq_f (n : Nat) : (dropReq s n).f = s.f := rfl
@[simp] theorem dropReq_w (n : Nat) : (dropReq s n).w = s.w := rfl
@[simp] theorem dropReq_d (n : Nat) : (dropReq s n).d = s.d := rfl
@[simp] theorem dropReq_h (n : Nat) : (dropReq s n).h = s.h := rfl
@[simp] theorem dropReq_htt (n : Nat) : (dropReq s n).x.htt = s.x.htt := rfl
@[simp] theorem dropReq_hbmCommit (n : Nat) : (dropReq s n).x.hbmCommit = s.x.hbmCommit := rfl
@[simp] theorem dropReq_claims (n : Nat) : (dropReq s n).x.claims = s.x.claims := rfl
@[simp] theorem dropReq_tickets (n : Nat) : (dropReq s n).x.tickets = s.x.tickets := rfl
@[simp] theorem dropReq_outside (n : Nat) : (dropReq s n).x.outside = s.x.outside := rfl
@[simp] theorem dropReq_bias (n : Nat) : (dropReq s n).x.bias = s.x.bias := rfl
@[simp] theorem dropReq_lunits (n : Nat) : (dropReq s n).x.lunits = s.x.lunits := rfl
@[simp] theorem dropReq_reqs (n : Nat) : (dropReq s n).x.reqs = smDel s.x.reqs n := rfl
@[simp] theorem dropReq_drains (n : Nat) : (dropReq s n).x.drains = s.x.drains := rfl
@[simp] theorem dropReq_park (n : Nat) : (dropReq s n).x.park = s.x.park := rfl
@[simp] theorem dropReq_frTail (n : Nat) : (dropReq s n).x.frTail = s.x.frTail := rfl
@[simp] theorem dropReq_replay (n : Nat) : (dropReq s n).x.replay = s.x.replay := rfl
@[simp] theorem dropReq_inv (n : Nat) : (dropReq s n).x.inv = s.x.inv := rfl
@[simp] theorem dropReq_invseq (n : Nat) : (dropReq s n).x.invseq = s.x.invseq := rfl
@[simp] theorem dropReq_flip (n : Nat) : (dropReq s n).x.flip = s.x.flip := rfl
@[simp] theorem dropReq_flipFail (n : Nat) : (dropReq s n).x.flipFail = s.x.flipFail := rfl
@[simp] theorem dropReq_swTail (n : Nat) : (dropReq s n).x.swTail = s.x.swTail := rfl
@[simp] theorem dropReq_swHead (n : Nat) : (dropReq s n).x.swHead = s.x.swHead := rfl
@[simp] theorem dropReq_swap (n : Nat) : (dropReq s n).x.swap = s.x.swap := rfl

/-! ### setUnit -/

@[simp] theorem setUnit_cores (n : Nat) (v : LUnit) : (setUnit s n v).cores = s.cores := rfl
@[simp] theorem setUnit_clusters (n : Nat) (v : LUnit) : (setUnit s n v).clusters = s.clusters := rfl
@[simp] theorem setUnit_creg (n : Nat) (v : LUnit) : (setUnit s n v).creg = s.creg := rfl
@[simp] theorem setUnit_cwords (n : Nat) (v : LUnit) : (setUnit s n v).cwords = s.cwords := rfl
@[simp] theorem setUnit_resp (n : Nat) (v : LUnit) : (setUnit s n v).resp = s.resp := rfl
@[simp] theorem setUnit_answers (n : Nat) (v : LUnit) : (setUnit s n v).answers = s.answers := rfl
@[simp] theorem setUnit_t (n : Nat) (v : LUnit) : (setUnit s n v).t = s.t := rfl
@[simp] theorem setUnit_c (n : Nat) (v : LUnit) : (setUnit s n v).c = s.c := rfl
@[simp] theorem setUnit_f (n : Nat) (v : LUnit) : (setUnit s n v).f = s.f := rfl
@[simp] theorem setUnit_w (n : Nat) (v : LUnit) : (setUnit s n v).w = s.w := rfl
@[simp] theorem setUnit_d (n : Nat) (v : LUnit) : (setUnit s n v).d = s.d := rfl
@[simp] theorem setUnit_h (n : Nat) (v : LUnit) : (setUnit s n v).h = s.h := rfl
@[simp] theorem setUnit_htt (n : Nat) (v : LUnit) : (setUnit s n v).x.htt = s.x.htt := rfl
@[simp] theorem setUnit_hbmCommit (n : Nat) (v : LUnit) : (setUnit s n v).x.hbmCommit = s.x.hbmCommit := rfl
@[simp] theorem setUnit_claims (n : Nat) (v : LUnit) : (setUnit s n v).x.claims = s.x.claims := rfl
@[simp] theorem setUnit_tickets (n : Nat) (v : LUnit) : (setUnit s n v).x.tickets = s.x.tickets := rfl
@[simp] theorem setUnit_outside (n : Nat) (v : LUnit) : (setUnit s n v).x.outside = s.x.outside := rfl
@[simp] theorem setUnit_bias (n : Nat) (v : LUnit) : (setUnit s n v).x.bias = s.x.bias := rfl
@[simp] theorem setUnit_lunits (n : Nat) (v : LUnit) : (setUnit s n v).x.lunits = smPut s.x.lunits n v := rfl
@[simp] theorem setUnit_reqs (n : Nat) (v : LUnit) : (setUnit s n v).x.reqs = s.x.reqs := rfl
@[simp] theorem setUnit_drains (n : Nat) (v : LUnit) : (setUnit s n v).x.drains = s.x.drains := rfl
@[simp] theorem setUnit_park (n : Nat) (v : LUnit) : (setUnit s n v).x.park = s.x.park := rfl
@[simp] theorem setUnit_frTail (n : Nat) (v : LUnit) : (setUnit s n v).x.frTail = s.x.frTail := rfl
@[simp] theorem setUnit_replay (n : Nat) (v : LUnit) : (setUnit s n v).x.replay = s.x.replay := rfl
@[simp] theorem setUnit_inv (n : Nat) (v : LUnit) : (setUnit s n v).x.inv = s.x.inv := rfl
@[simp] theorem setUnit_invseq (n : Nat) (v : LUnit) : (setUnit s n v).x.invseq = s.x.invseq := rfl
@[simp] theorem setUnit_flip (n : Nat) (v : LUnit) : (setUnit s n v).x.flip = s.x.flip := rfl
@[simp] theorem setUnit_flipFail (n : Nat) (v : LUnit) : (setUnit s n v).x.flipFail = s.x.flipFail := rfl
@[simp] theorem setUnit_swTail (n : Nat) (v : LUnit) : (setUnit s n v).x.swTail = s.x.swTail := rfl
@[simp] theorem setUnit_swHead (n : Nat) (v : LUnit) : (setUnit s n v).x.swHead = s.x.swHead := rfl
@[simp] theorem setUnit_swap (n : Nat) (v : LUnit) : (setUnit s n v).x.swap = s.x.swap := rfl

/-! ### modUnit -/

@[simp] theorem modUnit_cores (n : Nat) (g : LUnit → LUnit) : (modUnit s n g).cores = s.cores := rfl
@[simp] theorem modUnit_clusters (n : Nat) (g : LUnit → LUnit) : (modUnit s n g).clusters = s.clusters := rfl
@[simp] theorem modUnit_creg (n : Nat) (g : LUnit → LUnit) : (modUnit s n g).creg = s.creg := rfl
@[simp] theorem modUnit_cwords (n : Nat) (g : LUnit → LUnit) : (modUnit s n g).cwords = s.cwords := rfl
@[simp] theorem modUnit_resp (n : Nat) (g : LUnit → LUnit) : (modUnit s n g).resp = s.resp := rfl
@[simp] theorem modUnit_answers (n : Nat) (g : LUnit → LUnit) : (modUnit s n g).answers = s.answers := rfl
@[simp] theorem modUnit_t (n : Nat) (g : LUnit → LUnit) : (modUnit s n g).t = s.t := rfl
@[simp] theorem modUnit_c (n : Nat) (g : LUnit → LUnit) : (modUnit s n g).c = s.c := rfl
@[simp] theorem modUnit_f (n : Nat) (g : LUnit → LUnit) : (modUnit s n g).f = s.f := rfl
@[simp] theorem modUnit_w (n : Nat) (g : LUnit → LUnit) : (modUnit s n g).w = s.w := rfl
@[simp] theorem modUnit_d (n : Nat) (g : LUnit → LUnit) : (modUnit s n g).d = s.d := rfl
@[simp] theorem modUnit_h (n : Nat) (g : LUnit → LUnit) : (modUnit s n g).h = s.h := rfl
@[simp] theorem modUnit_htt (n : Nat) (g : LUnit → LUnit) : (modUnit s n g).x.htt = s.x.htt := rfl
@[simp] theorem modUnit_hbmCommit (n : Nat) (g : LUnit → LUnit) : (modUnit s n g).x.hbmCommit = s.x.hbmCommit := rfl
@[simp] theorem modUnit_claims (n : Nat) (g : LUnit → LUnit) : (modUnit s n g).x.claims = s.x.claims := rfl
@[simp] theorem modUnit_tickets (n : Nat) (g : LUnit → LUnit) : (modUnit s n g).x.tickets = s.x.tickets := rfl
@[simp] theorem modUnit_outside (n : Nat) (g : LUnit → LUnit) : (modUnit s n g).x.outside = s.x.outside := rfl
@[simp] theorem modUnit_bias (n : Nat) (g : LUnit → LUnit) : (modUnit s n g).x.bias = s.x.bias := rfl
@[simp] theorem modUnit_lunits (n : Nat) (g : LUnit → LUnit) : (modUnit s n g).x.lunits = smPut s.x.lunits n (g (getUnit s n)) := rfl
@[simp] theorem modUnit_reqs (n : Nat) (g : LUnit → LUnit) : (modUnit s n g).x.reqs = s.x.reqs := rfl
@[simp] theorem modUnit_drains (n : Nat) (g : LUnit → LUnit) : (modUnit s n g).x.drains = s.x.drains := rfl
@[simp] theorem modUnit_park (n : Nat) (g : LUnit → LUnit) : (modUnit s n g).x.park = s.x.park := rfl
@[simp] theorem modUnit_frTail (n : Nat) (g : LUnit → LUnit) : (modUnit s n g).x.frTail = s.x.frTail := rfl
@[simp] theorem modUnit_replay (n : Nat) (g : LUnit → LUnit) : (modUnit s n g).x.replay = s.x.replay := rfl
@[simp] theorem modUnit_inv (n : Nat) (g : LUnit → LUnit) : (modUnit s n g).x.inv = s.x.inv := rfl
@[simp] theorem modUnit_invseq (n : Nat) (g : LUnit → LUnit) : (modUnit s n g).x.invseq = s.x.invseq := rfl
@[simp] theorem modUnit_flip (n : Nat) (g : LUnit → LUnit) : (modUnit s n g).x.flip = s.x.flip := rfl
@[simp] theorem modUnit_flipFail (n : Nat) (g : LUnit → LUnit) : (modUnit s n g).x.flipFail = s.x.flipFail := rfl
@[simp] theorem modUnit_swTail (n : Nat) (g : LUnit → LUnit) : (modUnit s n g).x.swTail = s.x.swTail := rfl
@[simp] theorem modUnit_swHead (n : Nat) (g : LUnit → LUnit) : (modUnit s n g).x.swHead = s.x.swHead := rfl
@[simp] theorem modUnit_swap (n : Nat) (g : LUnit → LUnit) : (modUnit s n g).x.swap = s.x.swap := rfl

/-! ### setCreg -/

@[simp] theorem setCreg_cores (o : Nat) (v : BitVec 512) : (setCreg s o v).cores = s.cores := rfl
@[simp] theorem setCreg_clusters (o : Nat) (v : BitVec 512) : (setCreg s o v).clusters = s.clusters := rfl
@[simp] theorem setCreg_cwords (o : Nat) (v : BitVec 512) : (setCreg s o v).cwords = s.cwords := rfl
@[simp] theorem setCreg_resp (o : Nat) (v : BitVec 512) : (setCreg s o v).resp = s.resp := rfl
@[simp] theorem setCreg_answers (o : Nat) (v : BitVec 512) : (setCreg s o v).answers = s.answers := rfl
@[simp] theorem setCreg_t (o : Nat) (v : BitVec 512) : (setCreg s o v).t = s.t := rfl
@[simp] theorem setCreg_c (o : Nat) (v : BitVec 512) : (setCreg s o v).c = s.c := rfl
@[simp] theorem setCreg_x (o : Nat) (v : BitVec 512) : (setCreg s o v).x = s.x := rfl
@[simp] theorem setCreg_f (o : Nat) (v : BitVec 512) : (setCreg s o v).f = s.f := rfl
@[simp] theorem setCreg_w (o : Nat) (v : BitVec 512) : (setCreg s o v).w = s.w := rfl
@[simp] theorem setCreg_d (o : Nat) (v : BitVec 512) : (setCreg s o v).d = s.d := rfl
@[simp] theorem setCreg_h (o : Nat) (v : BitVec 512) : (setCreg s o v).h = s.h := rfl
@[simp] theorem setCreg_creg (o : Nat) (v : BitVec 512) : (setCreg s o v).creg = smPut s.creg o v := rfl

/-! ### respond -/

@[simp] theorem respond_cores (r : Response) : (respond s r).cores = s.cores := rfl
@[simp] theorem respond_clusters (r : Response) : (respond s r).clusters = s.clusters := rfl
@[simp] theorem respond_creg (r : Response) : (respond s r).creg = s.creg := rfl
@[simp] theorem respond_cwords (r : Response) : (respond s r).cwords = s.cwords := rfl
@[simp] theorem respond_answers (r : Response) : (respond s r).answers = s.answers := rfl
@[simp] theorem respond_t (r : Response) : (respond s r).t = s.t := rfl
@[simp] theorem respond_c (r : Response) : (respond s r).c = s.c := rfl
@[simp] theorem respond_x (r : Response) : (respond s r).x = s.x := rfl
@[simp] theorem respond_f (r : Response) : (respond s r).f = s.f := rfl
@[simp] theorem respond_w (r : Response) : (respond s r).w = s.w := rfl
@[simp] theorem respond_d (r : Response) : (respond s r).d = s.d := rfl
@[simp] theorem respond_h (r : Response) : (respond s r).h = s.h := rfl
@[simp] theorem respond_resp (r : Response) : (respond s r).resp = r := rfl

/-! ### schedule -/

@[simp] theorem schedule_cores (u : Nat) (i : Instr) : (schedule s u i).cores = s.cores := rfl
@[simp] theorem schedule_clusters (u : Nat) (i : Instr) : (schedule s u i).clusters = s.clusters := rfl
@[simp] theorem schedule_creg (u : Nat) (i : Instr) : (schedule s u i).creg = s.creg := rfl
@[simp] theorem schedule_cwords (u : Nat) (i : Instr) : (schedule s u i).cwords = s.cwords := rfl
@[simp] theorem schedule_resp (u : Nat) (i : Instr) : (schedule s u i).resp = s.resp := rfl
@[simp] theorem schedule_answers (u : Nat) (i : Instr) : (schedule s u i).answers = s.answers := rfl
@[simp] theorem schedule_c (u : Nat) (i : Instr) : (schedule s u i).c = s.c := rfl
@[simp] theorem schedule_x (u : Nat) (i : Instr) : (schedule s u i).x = s.x := rfl
@[simp] theorem schedule_f (u : Nat) (i : Instr) : (schedule s u i).f = s.f := rfl
@[simp] theorem schedule_w (u : Nat) (i : Instr) : (schedule s u i).w = s.w := rfl
@[simp] theorem schedule_d (u : Nat) (i : Instr) : (schedule s u i).d = s.d := rfl
@[simp] theorem schedule_h (u : Nat) (i : Instr) : (schedule s u i).h = s.h := rfl
@[simp] theorem schedule_now (u : Nat) (i : Instr) : (schedule s u i).t.now = s.t.now := rfl
@[simp] theorem schedule_tbl (u : Nat) (i : Instr) : (schedule s u i).t.tbl = s.t.tbl := rfl
@[simp] theorem schedule_tbAt (u : Nat) (i : Instr) : (schedule s u i).t.tbAt = s.t.tbAt := rfl
@[simp] theorem schedule_fast (u : Nat) (i : Instr) : (schedule s u i).t.fast = s.t.fast := rfl
@[simp] theorem schedule_frozen (u : Nat) (i : Instr) : (schedule s u i).t.frozen = s.t.frozen := rfl
@[simp] theorem schedule_supplies (u : Nat) (i : Instr) : (schedule s u i).t.supplies = s.t.supplies := rfl
@[simp] theorem schedule_todo (u : Nat) (i : Instr) : (schedule s u i).t.todo = s.t.todo := rfl
@[simp] theorem schedule_phase (u : Nat) (i : Instr) : (schedule s u i).t.phase = s.t.phase := rfl
@[simp] theorem schedule_agenda (u : Nat) (i : Instr) : (schedule s u i).t.agenda = (u, i) :: s.t.agenda := rfl
@[simp] theorem schedule_inputs (u : Nat) (i : Instr) : (schedule s u i).t.inputs = s.t.inputs := rfl
@[simp] theorem schedule_free (u : Nat) (i : Instr) : (schedule s u i).t.free = s.t.free := rfl
@[simp] theorem schedule_fcore (u : Nat) (i : Instr) : (schedule s u i).t.fcore = s.t.fcore := rfl
@[simp] theorem schedule_fqueue (u : Nat) (i : Instr) : (schedule s u i).t.fqueue = s.t.fqueue := rfl
@[simp] theorem schedule_nextId (u : Nat) (i : Instr) : (schedule s u i).t.nextId = s.t.nextId := rfl

/-! ### draw -/

@[simp] theorem draw_cores : ((draw s).2).cores = s.cores := rfl
@[simp] theorem draw_clusters : ((draw s).2).clusters = s.clusters := rfl
@[simp] theorem draw_creg : ((draw s).2).creg = s.creg := rfl
@[simp] theorem draw_cwords : ((draw s).2).cwords = s.cwords := rfl
@[simp] theorem draw_resp : ((draw s).2).resp = s.resp := rfl
@[simp] theorem draw_answers : ((draw s).2).answers = s.answers := rfl
@[simp] theorem draw_c : ((draw s).2).c = s.c := rfl
@[simp] theorem draw_x : ((draw s).2).x = s.x := rfl
@[simp] theorem draw_f : ((draw s).2).f = s.f := rfl
@[simp] theorem draw_w : ((draw s).2).w = s.w := rfl
@[simp] theorem draw_d : ((draw s).2).d = s.d := rfl
@[simp] theorem draw_h : ((draw s).2).h = s.h := rfl
@[simp] theorem draw_now : ((draw s).2).t.now = s.t.now := rfl
@[simp] theorem draw_tbl : ((draw s).2).t.tbl = s.t.tbl := rfl
@[simp] theorem draw_tbAt : ((draw s).2).t.tbAt = s.t.tbAt := rfl
@[simp] theorem draw_fast : ((draw s).2).t.fast = s.t.fast := rfl
@[simp] theorem draw_frozen : ((draw s).2).t.frozen = s.t.frozen := rfl
@[simp] theorem draw_supplies : ((draw s).2).t.supplies = s.t.supplies := rfl
@[simp] theorem draw_todo : ((draw s).2).t.todo = s.t.todo := rfl
@[simp] theorem draw_phase : ((draw s).2).t.phase = s.t.phase := rfl
@[simp] theorem draw_agenda : ((draw s).2).t.agenda = s.t.agenda := rfl
@[simp] theorem draw_inputs : ((draw s).2).t.inputs = s.t.inputs := rfl
@[simp] theorem draw_free : ((draw s).2).t.free = s.t.free + 1 := rfl
@[simp] theorem draw_fcore : ((draw s).2).t.fcore = s.t.fcore := rfl
@[simp] theorem draw_fqueue : ((draw s).2).t.fqueue = s.t.fqueue := rfl
@[simp] theorem draw_nextId : ((draw s).2).t.nextId = s.t.nextId := rfl

/-! ### newId -/

@[simp] theorem newId_cores : ((newId s).2).cores = s.cores := rfl
@[simp] theorem newId_clusters : ((newId s).2).clusters = s.clusters := rfl
@[simp] theorem newId_creg : ((newId s).2).creg = s.creg := rfl
@[simp] theorem newId_cwords : ((newId s).2).cwords = s.cwords := rfl
@[simp] theorem newId_resp : ((newId s).2).resp = s.resp := rfl
@[simp] theorem newId_answers : ((newId s).2).answers = s.answers := rfl
@[simp] theorem newId_c : ((newId s).2).c = s.c := rfl
@[simp] theorem newId_x : ((newId s).2).x = s.x := rfl
@[simp] theorem newId_f : ((newId s).2).f = s.f := rfl
@[simp] theorem newId_w : ((newId s).2).w = s.w := rfl
@[simp] theorem newId_d : ((newId s).2).d = s.d := rfl
@[simp] theorem newId_h : ((newId s).2).h = s.h := rfl
@[simp] theorem newId_now : ((newId s).2).t.now = s.t.now := rfl
@[simp] theorem newId_tbl : ((newId s).2).t.tbl = s.t.tbl := rfl
@[simp] theorem newId_tbAt : ((newId s).2).t.tbAt = s.t.tbAt := rfl
@[simp] theorem newId_fast : ((newId s).2).t.fast = s.t.fast := rfl
@[simp] theorem newId_frozen : ((newId s).2).t.frozen = s.t.frozen := rfl
@[simp] theorem newId_supplies : ((newId s).2).t.supplies = s.t.supplies := rfl
@[simp] theorem newId_todo : ((newId s).2).t.todo = s.t.todo := rfl
@[simp] theorem newId_phase : ((newId s).2).t.phase = s.t.phase := rfl
@[simp] theorem newId_agenda : ((newId s).2).t.agenda = s.t.agenda := rfl
@[simp] theorem newId_inputs : ((newId s).2).t.inputs = s.t.inputs := rfl
@[simp] theorem newId_free : ((newId s).2).t.free = s.t.free := rfl
@[simp] theorem newId_fcore : ((newId s).2).t.fcore = s.t.fcore := rfl
@[simp] theorem newId_fqueue : ((newId s).2).t.fqueue = s.t.fqueue := rfl
@[simp] theorem newId_nextId : ((newId s).2).t.nextId = s.t.nextId + 1 := rfl

@[simp] theorem draw_fst : (draw s).1 = s.t.free := rfl
@[simp] theorem newId_fst : (newId s).1 = s.t.nextId := rfl

/-! ## What each reading does not see -/

@[simp] theorem getCore_setCl (n : Nat) (v : Cluster) (c' : Nat) : getCore (setCl s n v) c' = getCore s c' := rfl
@[simp] theorem getCore_modCl (n : Nat) (g : Cluster → Cluster) (c' : Nat) : getCore (modCl s n g) c' = getCore s c' := rfl
@[simp] theorem getCore_setQ (n : Nat) (v : Queue) (c' : Nat) : getCore (setQ s n v) c' = getCore s c' := rfl
@[simp] theorem getCore_modQ (n : Nat) (g : Queue → Queue) (c' : Nat) : getCore (modQ s n g) c' = getCore s c' := rfl
@[simp] theorem getCore_setJob (n : Nat) (v : Job) (c' : Nat) : getCore (setJob s n v) c' = getCore s c' := rfl
@[simp] theorem getCore_modJob (n : Nat) (g : Job → Job) (c' : Nat) : getCore (modJob s n g) c' = getCore s c' := rfl
@[simp] theorem getCore_setReq (n : Nat) (v : Req) (c' : Nat) : getCore (setReq s n v) c' = getCore s c' := rfl
@[simp] theorem getCore_modReq (n : Nat) (g : Req → Req) (c' : Nat) : getCore (modReq s n g) c' = getCore s c' := rfl
@[simp] theorem getCore_dropReq (n : Nat) (c' : Nat) : getCore (dropReq s n) c' = getCore s c' := rfl
@[simp] theorem getCore_setUnit (n : Nat) (v : LUnit) (c' : Nat) : getCore (setUnit s n v) c' = getCore s c' := rfl
@[simp] theorem getCore_modUnit (n : Nat) (g : LUnit → LUnit) (c' : Nat) : getCore (modUnit s n g) c' = getCore s c' := rfl
@[simp] theorem getCore_setCreg (o : Nat) (v : BitVec 512) (c' : Nat) : getCore (setCreg s o v) c' = getCore s c' := rfl
@[simp] theorem getCore_respond (r : Response) (c' : Nat) : getCore (respond s r) c' = getCore s c' := rfl
@[simp] theorem getCore_schedule (u : Nat) (i : Instr) (c' : Nat) : getCore (schedule s u i) c' = getCore s c' := rfl
@[simp] theorem getCore_draw (c' : Nat) : getCore ((draw s).2) c' = getCore s c' := rfl
@[simp] theorem getCore_newId (c' : Nat) : getCore ((newId s).2) c' = getCore s c' := rfl
@[simp] theorem getCtx_setCl (n : Nat) (v : Cluster) (c' x' : Nat) : getCtx (setCl s n v) c' x' = getCtx s c' x' := rfl
@[simp] theorem getCtx_modCl (n : Nat) (g : Cluster → Cluster) (c' x' : Nat) : getCtx (modCl s n g) c' x' = getCtx s c' x' := rfl
@[simp] theorem getCtx_setQ (n : Nat) (v : Queue) (c' x' : Nat) : getCtx (setQ s n v) c' x' = getCtx s c' x' := rfl
@[simp] theorem getCtx_modQ (n : Nat) (g : Queue → Queue) (c' x' : Nat) : getCtx (modQ s n g) c' x' = getCtx s c' x' := rfl
@[simp] theorem getCtx_setJob (n : Nat) (v : Job) (c' x' : Nat) : getCtx (setJob s n v) c' x' = getCtx s c' x' := rfl
@[simp] theorem getCtx_modJob (n : Nat) (g : Job → Job) (c' x' : Nat) : getCtx (modJob s n g) c' x' = getCtx s c' x' := rfl
@[simp] theorem getCtx_setReq (n : Nat) (v : Req) (c' x' : Nat) : getCtx (setReq s n v) c' x' = getCtx s c' x' := rfl
@[simp] theorem getCtx_modReq (n : Nat) (g : Req → Req) (c' x' : Nat) : getCtx (modReq s n g) c' x' = getCtx s c' x' := rfl
@[simp] theorem getCtx_dropReq (n : Nat) (c' x' : Nat) : getCtx (dropReq s n) c' x' = getCtx s c' x' := rfl
@[simp] theorem getCtx_setUnit (n : Nat) (v : LUnit) (c' x' : Nat) : getCtx (setUnit s n v) c' x' = getCtx s c' x' := rfl
@[simp] theorem getCtx_modUnit (n : Nat) (g : LUnit → LUnit) (c' x' : Nat) : getCtx (modUnit s n g) c' x' = getCtx s c' x' := rfl
@[simp] theorem getCtx_setCreg (o : Nat) (v : BitVec 512) (c' x' : Nat) : getCtx (setCreg s o v) c' x' = getCtx s c' x' := rfl
@[simp] theorem getCtx_respond (r : Response) (c' x' : Nat) : getCtx (respond s r) c' x' = getCtx s c' x' := rfl
@[simp] theorem getCtx_schedule (u : Nat) (i : Instr) (c' x' : Nat) : getCtx (schedule s u i) c' x' = getCtx s c' x' := rfl
@[simp] theorem getCtx_draw (c' x' : Nat) : getCtx ((draw s).2) c' x' = getCtx s c' x' := rfl
@[simp] theorem getCtx_newId (c' x' : Nat) : getCtx ((newId s).2) c' x' = getCtx s c' x' := rfl
@[simp] theorem getCl_setCore (c : Nat) (k : Core) (m : Nat) : getCl (setCore s c k) m = getCl s m := rfl
@[simp] theorem getCl_modCore (c : Nat) (g : Core → Core) (m : Nat) : getCl (modCore s c g) m = getCl s m := rfl
@[simp] theorem getCl_setCtx (c x : Nat) (v : Ctx) (m : Nat) : getCl (setCtx s c x v) m = getCl s m := rfl
@[simp] theorem getCl_modCtx (c x : Nat) (g : Ctx → Ctx) (m : Nat) : getCl (modCtx s c x g) m = getCl s m := rfl
@[simp] theorem getCl_modRegs (c x : Nat) (g : Regs → Regs) (m : Nat) : getCl (modRegs s c x g) m = getCl s m := rfl
@[simp] theorem getCl_setQ (n : Nat) (v : Queue) (m : Nat) : getCl (setQ s n v) m = getCl s m := rfl
@[simp] theorem getCl_modQ (n : Nat) (g : Queue → Queue) (m : Nat) : getCl (modQ s n g) m = getCl s m := rfl
@[simp] theorem getCl_setJob (n : Nat) (v : Job) (m : Nat) : getCl (setJob s n v) m = getCl s m := rfl
@[simp] theorem getCl_modJob (n : Nat) (g : Job → Job) (m : Nat) : getCl (modJob s n g) m = getCl s m := rfl
@[simp] theorem getCl_setReq (n : Nat) (v : Req) (m : Nat) : getCl (setReq s n v) m = getCl s m := rfl
@[simp] theorem getCl_modReq (n : Nat) (g : Req → Req) (m : Nat) : getCl (modReq s n g) m = getCl s m := rfl
@[simp] theorem getCl_dropReq (n : Nat) (m : Nat) : getCl (dropReq s n) m = getCl s m := rfl
@[simp] theorem getCl_setUnit (n : Nat) (v : LUnit) (m : Nat) : getCl (setUnit s n v) m = getCl s m := rfl
@[simp] theorem getCl_modUnit (n : Nat) (g : LUnit → LUnit) (m : Nat) : getCl (modUnit s n g) m = getCl s m := rfl
@[simp] theorem getCl_setCreg (o : Nat) (v : BitVec 512) (m : Nat) : getCl (setCreg s o v) m = getCl s m := rfl
@[simp] theorem getCl_respond (r : Response) (m : Nat) : getCl (respond s r) m = getCl s m := rfl
@[simp] theorem getCl_schedule (u : Nat) (i : Instr) (m : Nat) : getCl (schedule s u i) m = getCl s m := rfl
@[simp] theorem getCl_draw (m : Nat) : getCl ((draw s).2) m = getCl s m := rfl
@[simp] theorem getCl_newId (m : Nat) : getCl ((newId s).2) m = getCl s m := rfl
@[simp] theorem getQ_setCore (c : Nat) (k : Core) (m : Nat) : getQ (setCore s c k) m = getQ s m := rfl
@[simp] theorem getQ_modCore (c : Nat) (g : Core → Core) (m : Nat) : getQ (modCore s c g) m = getQ s m := rfl
@[simp] theorem getQ_setCtx (c x : Nat) (v : Ctx) (m : Nat) : getQ (setCtx s c x v) m = getQ s m := rfl
@[simp] theorem getQ_modCtx (c x : Nat) (g : Ctx → Ctx) (m : Nat) : getQ (modCtx s c x g) m = getQ s m := rfl
@[simp] theorem getQ_modRegs (c x : Nat) (g : Regs → Regs) (m : Nat) : getQ (modRegs s c x g) m = getQ s m := rfl
@[simp] theorem getQ_setCl (n : Nat) (v : Cluster) (m : Nat) : getQ (setCl s n v) m = getQ s m := rfl
@[simp] theorem getQ_modCl (n : Nat) (g : Cluster → Cluster) (m : Nat) : getQ (modCl s n g) m = getQ s m := rfl
@[simp] theorem getQ_setJob (n : Nat) (v : Job) (m : Nat) : getQ (setJob s n v) m = getQ s m := rfl
@[simp] theorem getQ_modJob (n : Nat) (g : Job → Job) (m : Nat) : getQ (modJob s n g) m = getQ s m := rfl
@[simp] theorem getQ_setReq (n : Nat) (v : Req) (m : Nat) : getQ (setReq s n v) m = getQ s m := rfl
@[simp] theorem getQ_modReq (n : Nat) (g : Req → Req) (m : Nat) : getQ (modReq s n g) m = getQ s m := rfl
@[simp] theorem getQ_dropReq (n : Nat) (m : Nat) : getQ (dropReq s n) m = getQ s m := rfl
@[simp] theorem getQ_setUnit (n : Nat) (v : LUnit) (m : Nat) : getQ (setUnit s n v) m = getQ s m := rfl
@[simp] theorem getQ_modUnit (n : Nat) (g : LUnit → LUnit) (m : Nat) : getQ (modUnit s n g) m = getQ s m := rfl
@[simp] theorem getQ_setCreg (o : Nat) (v : BitVec 512) (m : Nat) : getQ (setCreg s o v) m = getQ s m := rfl
@[simp] theorem getQ_respond (r : Response) (m : Nat) : getQ (respond s r) m = getQ s m := rfl
@[simp] theorem getQ_schedule (u : Nat) (i : Instr) (m : Nat) : getQ (schedule s u i) m = getQ s m := rfl
@[simp] theorem getQ_draw (m : Nat) : getQ ((draw s).2) m = getQ s m := rfl
@[simp] theorem getQ_newId (m : Nat) : getQ ((newId s).2) m = getQ s m := rfl
@[simp] theorem getJob_setCore (c : Nat) (k : Core) (m : Nat) : getJob (setCore s c k) m = getJob s m := rfl
@[simp] theorem getJob_modCore (c : Nat) (g : Core → Core) (m : Nat) : getJob (modCore s c g) m = getJob s m := rfl
@[simp] theorem getJob_setCtx (c x : Nat) (v : Ctx) (m : Nat) : getJob (setCtx s c x v) m = getJob s m := rfl
@[simp] theorem getJob_modCtx (c x : Nat) (g : Ctx → Ctx) (m : Nat) : getJob (modCtx s c x g) m = getJob s m := rfl
@[simp] theorem getJob_modRegs (c x : Nat) (g : Regs → Regs) (m : Nat) : getJob (modRegs s c x g) m = getJob s m := rfl
@[simp] theorem getJob_setCl (n : Nat) (v : Cluster) (m : Nat) : getJob (setCl s n v) m = getJob s m := rfl
@[simp] theorem getJob_modCl (n : Nat) (g : Cluster → Cluster) (m : Nat) : getJob (modCl s n g) m = getJob s m := rfl
@[simp] theorem getJob_setQ (n : Nat) (v : Queue) (m : Nat) : getJob (setQ s n v) m = getJob s m := rfl
@[simp] theorem getJob_modQ (n : Nat) (g : Queue → Queue) (m : Nat) : getJob (modQ s n g) m = getJob s m := rfl
@[simp] theorem getJob_setReq (n : Nat) (v : Req) (m : Nat) : getJob (setReq s n v) m = getJob s m := rfl
@[simp] theorem getJob_modReq (n : Nat) (g : Req → Req) (m : Nat) : getJob (modReq s n g) m = getJob s m := rfl
@[simp] theorem getJob_dropReq (n : Nat) (m : Nat) : getJob (dropReq s n) m = getJob s m := rfl
@[simp] theorem getJob_setUnit (n : Nat) (v : LUnit) (m : Nat) : getJob (setUnit s n v) m = getJob s m := rfl
@[simp] theorem getJob_modUnit (n : Nat) (g : LUnit → LUnit) (m : Nat) : getJob (modUnit s n g) m = getJob s m := rfl
@[simp] theorem getJob_setCreg (o : Nat) (v : BitVec 512) (m : Nat) : getJob (setCreg s o v) m = getJob s m := rfl
@[simp] theorem getJob_respond (r : Response) (m : Nat) : getJob (respond s r) m = getJob s m := rfl
@[simp] theorem getJob_schedule (u : Nat) (i : Instr) (m : Nat) : getJob (schedule s u i) m = getJob s m := rfl
@[simp] theorem getJob_draw (m : Nat) : getJob ((draw s).2) m = getJob s m := rfl
@[simp] theorem getJob_newId (m : Nat) : getJob ((newId s).2) m = getJob s m := rfl
@[simp] theorem getReq_setCore (c : Nat) (k : Core) (m : Nat) : getReq (setCore s c k) m = getReq s m := rfl
@[simp] theorem getReq_modCore (c : Nat) (g : Core → Core) (m : Nat) : getReq (modCore s c g) m = getReq s m := rfl
@[simp] theorem getReq_setCtx (c x : Nat) (v : Ctx) (m : Nat) : getReq (setCtx s c x v) m = getReq s m := rfl
@[simp] theorem getReq_modCtx (c x : Nat) (g : Ctx → Ctx) (m : Nat) : getReq (modCtx s c x g) m = getReq s m := rfl
@[simp] theorem getReq_modRegs (c x : Nat) (g : Regs → Regs) (m : Nat) : getReq (modRegs s c x g) m = getReq s m := rfl
@[simp] theorem getReq_setCl (n : Nat) (v : Cluster) (m : Nat) : getReq (setCl s n v) m = getReq s m := rfl
@[simp] theorem getReq_modCl (n : Nat) (g : Cluster → Cluster) (m : Nat) : getReq (modCl s n g) m = getReq s m := rfl
@[simp] theorem getReq_setQ (n : Nat) (v : Queue) (m : Nat) : getReq (setQ s n v) m = getReq s m := rfl
@[simp] theorem getReq_modQ (n : Nat) (g : Queue → Queue) (m : Nat) : getReq (modQ s n g) m = getReq s m := rfl
@[simp] theorem getReq_setJob (n : Nat) (v : Job) (m : Nat) : getReq (setJob s n v) m = getReq s m := rfl
@[simp] theorem getReq_modJob (n : Nat) (g : Job → Job) (m : Nat) : getReq (modJob s n g) m = getReq s m := rfl
@[simp] theorem getReq_setUnit (n : Nat) (v : LUnit) (m : Nat) : getReq (setUnit s n v) m = getReq s m := rfl
@[simp] theorem getReq_modUnit (n : Nat) (g : LUnit → LUnit) (m : Nat) : getReq (modUnit s n g) m = getReq s m := rfl
@[simp] theorem getReq_setCreg (o : Nat) (v : BitVec 512) (m : Nat) : getReq (setCreg s o v) m = getReq s m := rfl
@[simp] theorem getReq_respond (r : Response) (m : Nat) : getReq (respond s r) m = getReq s m := rfl
@[simp] theorem getReq_schedule (u : Nat) (i : Instr) (m : Nat) : getReq (schedule s u i) m = getReq s m := rfl
@[simp] theorem getReq_draw (m : Nat) : getReq ((draw s).2) m = getReq s m := rfl
@[simp] theorem getReq_newId (m : Nat) : getReq ((newId s).2) m = getReq s m := rfl
@[simp] theorem getUnit_setCore (c : Nat) (k : Core) (m : Nat) : getUnit (setCore s c k) m = getUnit s m := rfl
@[simp] theorem getUnit_modCore (c : Nat) (g : Core → Core) (m : Nat) : getUnit (modCore s c g) m = getUnit s m := rfl
@[simp] theorem getUnit_setCtx (c x : Nat) (v : Ctx) (m : Nat) : getUnit (setCtx s c x v) m = getUnit s m := rfl
@[simp] theorem getUnit_modCtx (c x : Nat) (g : Ctx → Ctx) (m : Nat) : getUnit (modCtx s c x g) m = getUnit s m := rfl
@[simp] theorem getUnit_modRegs (c x : Nat) (g : Regs → Regs) (m : Nat) : getUnit (modRegs s c x g) m = getUnit s m := rfl
@[simp] theorem getUnit_setCl (n : Nat) (v : Cluster) (m : Nat) : getUnit (setCl s n v) m = getUnit s m := rfl
@[simp] theorem getUnit_modCl (n : Nat) (g : Cluster → Cluster) (m : Nat) : getUnit (modCl s n g) m = getUnit s m := rfl
@[simp] theorem getUnit_setQ (n : Nat) (v : Queue) (m : Nat) : getUnit (setQ s n v) m = getUnit s m := rfl
@[simp] theorem getUnit_modQ (n : Nat) (g : Queue → Queue) (m : Nat) : getUnit (modQ s n g) m = getUnit s m := rfl
@[simp] theorem getUnit_setJob (n : Nat) (v : Job) (m : Nat) : getUnit (setJob s n v) m = getUnit s m := rfl
@[simp] theorem getUnit_modJob (n : Nat) (g : Job → Job) (m : Nat) : getUnit (modJob s n g) m = getUnit s m := rfl
@[simp] theorem getUnit_setReq (n : Nat) (v : Req) (m : Nat) : getUnit (setReq s n v) m = getUnit s m := rfl
@[simp] theorem getUnit_modReq (n : Nat) (g : Req → Req) (m : Nat) : getUnit (modReq s n g) m = getUnit s m := rfl
@[simp] theorem getUnit_dropReq (n : Nat) (m : Nat) : getUnit (dropReq s n) m = getUnit s m := rfl
@[simp] theorem getUnit_setCreg (o : Nat) (v : BitVec 512) (m : Nat) : getUnit (setCreg s o v) m = getUnit s m := rfl
@[simp] theorem getUnit_respond (r : Response) (m : Nat) : getUnit (respond s r) m = getUnit s m := rfl
@[simp] theorem getUnit_schedule (u : Nat) (i : Instr) (m : Nat) : getUnit (schedule s u i) m = getUnit s m := rfl
@[simp] theorem getUnit_draw (m : Nat) : getUnit ((draw s).2) m = getUnit s m := rfl
@[simp] theorem getUnit_newId (m : Nat) : getUnit ((newId s).2) m = getUnit s m := rfl
@[simp] theorem creg_setCore (c : Nat) (k : Core) (m : Nat) : creg (setCore s c k) m = creg s m := rfl
@[simp] theorem creg_modCore (c : Nat) (g : Core → Core) (m : Nat) : creg (modCore s c g) m = creg s m := rfl
@[simp] theorem creg_setCtx (c x : Nat) (v : Ctx) (m : Nat) : creg (setCtx s c x v) m = creg s m := rfl
@[simp] theorem creg_modCtx (c x : Nat) (g : Ctx → Ctx) (m : Nat) : creg (modCtx s c x g) m = creg s m := rfl
@[simp] theorem creg_modRegs (c x : Nat) (g : Regs → Regs) (m : Nat) : creg (modRegs s c x g) m = creg s m := rfl
@[simp] theorem creg_setCl (n : Nat) (v : Cluster) (m : Nat) : creg (setCl s n v) m = creg s m := rfl
@[simp] theorem creg_modCl (n : Nat) (g : Cluster → Cluster) (m : Nat) : creg (modCl s n g) m = creg s m := rfl
@[simp] theorem creg_setQ (n : Nat) (v : Queue) (m : Nat) : creg (setQ s n v) m = creg s m := rfl
@[simp] theorem creg_modQ (n : Nat) (g : Queue → Queue) (m : Nat) : creg (modQ s n g) m = creg s m := rfl
@[simp] theorem creg_setJob (n : Nat) (v : Job) (m : Nat) : creg (setJob s n v) m = creg s m := rfl
@[simp] theorem creg_modJob (n : Nat) (g : Job → Job) (m : Nat) : creg (modJob s n g) m = creg s m := rfl
@[simp] theorem creg_setReq (n : Nat) (v : Req) (m : Nat) : creg (setReq s n v) m = creg s m := rfl
@[simp] theorem creg_modReq (n : Nat) (g : Req → Req) (m : Nat) : creg (modReq s n g) m = creg s m := rfl
@[simp] theorem creg_dropReq (n : Nat) (m : Nat) : creg (dropReq s n) m = creg s m := rfl
@[simp] theorem creg_setUnit (n : Nat) (v : LUnit) (m : Nat) : creg (setUnit s n v) m = creg s m := rfl
@[simp] theorem creg_modUnit (n : Nat) (g : LUnit → LUnit) (m : Nat) : creg (modUnit s n g) m = creg s m := rfl
@[simp] theorem creg_respond (r : Response) (m : Nat) : creg (respond s r) m = creg s m := rfl
@[simp] theorem creg_schedule (u : Nat) (i : Instr) (m : Nat) : creg (schedule s u i) m = creg s m := rfl
@[simp] theorem creg_draw (m : Nat) : creg ((draw s).2) m = creg s m := rfl
@[simp] theorem creg_newId (m : Nat) : creg ((newId s).2) m = creg s m := rfl
@[simp] theorem timebase_setCore (c : Nat) (k : Core) : timebase (setCore s c k) = timebase s := rfl
@[simp] theorem timebase_modCore (c : Nat) (g : Core → Core) : timebase (modCore s c g) = timebase s := rfl
@[simp] theorem timebase_setCtx (c x : Nat) (v : Ctx) : timebase (setCtx s c x v) = timebase s := rfl
@[simp] theorem timebase_modCtx (c x : Nat) (g : Ctx → Ctx) : timebase (modCtx s c x g) = timebase s := rfl
@[simp] theorem timebase_modRegs (c x : Nat) (g : Regs → Regs) : timebase (modRegs s c x g) = timebase s := rfl
@[simp] theorem timebase_setCl (n : Nat) (v : Cluster) : timebase (setCl s n v) = timebase s := rfl
@[simp] theorem timebase_modCl (n : Nat) (g : Cluster → Cluster) : timebase (modCl s n g) = timebase s := rfl
@[simp] theorem timebase_setQ (n : Nat) (v : Queue) : timebase (setQ s n v) = timebase s := rfl
@[simp] theorem timebase_modQ (n : Nat) (g : Queue → Queue) : timebase (modQ s n g) = timebase s := rfl
@[simp] theorem timebase_setJob (n : Nat) (v : Job) : timebase (setJob s n v) = timebase s := rfl
@[simp] theorem timebase_modJob (n : Nat) (g : Job → Job) : timebase (modJob s n g) = timebase s := rfl
@[simp] theorem timebase_setReq (n : Nat) (v : Req) : timebase (setReq s n v) = timebase s := rfl
@[simp] theorem timebase_modReq (n : Nat) (g : Req → Req) : timebase (modReq s n g) = timebase s := rfl
@[simp] theorem timebase_dropReq (n : Nat) : timebase (dropReq s n) = timebase s := rfl
@[simp] theorem timebase_setUnit (n : Nat) (v : LUnit) : timebase (setUnit s n v) = timebase s := rfl
@[simp] theorem timebase_modUnit (n : Nat) (g : LUnit → LUnit) : timebase (modUnit s n g) = timebase s := rfl
@[simp] theorem timebase_setCreg (o : Nat) (v : BitVec 512) : timebase (setCreg s o v) = timebase s := rfl
@[simp] theorem timebase_respond (r : Response) : timebase (respond s r) = timebase s := rfl
@[simp] theorem timebase_schedule (u : Nat) (i : Instr) : timebase (schedule s u i) = timebase s := rfl
@[simp] theorem timebase_draw : timebase ((draw s).2) = timebase s := rfl
@[simp] theorem timebase_newId : timebase ((newId s).2) = timebase s := rfl

/-! ## Reading back -/

@[simp] theorem getCore_setCore (c c' : Nat) (k : Core) : getCore (setCore s c k) c' = if c = c' then k else getCore s c' :=
  smGet_smPut _ _ _ _ _

@[simp] theorem getCore_modCore (c c' : Nat) (g : Core → Core) :
    getCore (modCore s c g) c' = if c = c' then g (getCore s c) else getCore s c' := smGet_smPut _ _ _ _ _

@[simp] theorem getCl_setCl (n n' : Nat) (v : Cluster) : getCl (setCl s n v) n' = if n = n' then v else getCl s n' :=
  smGet_smPut _ _ _ _ _

@[simp] theorem getQ_setQ (n n' : Nat) (v : Queue) : getQ (setQ s n v) n' = if n = n' then v else getQ s n' :=
  smGet_smPut _ _ _ _ _

@[simp] theorem getJob_setJob (n n' : Nat) (v : Job) : getJob (setJob s n v) n' = if n = n' then v else getJob s n' :=
  smGet_smPut _ _ _ _ _

@[simp] theorem getReq_setReq (n n' : Nat) (v : Req) : getReq (setReq s n v) n' = if n = n' then v else getReq s n' :=
  smGet_smPut _ _ _ _ _

@[simp] theorem getReq_dropReq (n n' : Nat) : getReq (dropReq s n) n' = if n = n' then { } else getReq s n' :=
  smGet_smDel _ _ _ _

@[simp] theorem getUnit_setUnit (n n' : Nat) (v : LUnit) : getUnit (setUnit s n v) n' = if n = n' then v else getUnit s n' :=
  smGet_smPut _ _ _ _ _

@[simp] theorem creg_setCreg (a b : Nat) (v : BitVec 512) : creg (setCreg s a v) b = if a = b then v else creg s b :=
  smGet_smPut _ _ _ _ _

@[simp] theorem ctxOf_putCtx (k : Core) (x x' : Nat) (v : Ctx) : ctxOf (putCtx k x v) x' = if x = x' then v else ctxOf k x' :=
  smGet_smPut _ _ _ _ _

/-- A context written reads back; no other context of any core changes. -/
@[simp] theorem getCtx_setCtx (c x c' x' : Nat) (v : Ctx) :
    getCtx (setCtx s c x v) c' x' = if c = c' ∧ x = x' then v else getCtx s c' x' := by
  unfold getCtx setCtx
  by_cases hc : c = c' <;> simp [hc]

@[simp] theorem getCtx_modCtx (c x c' x' : Nat) (g : Ctx → Ctx) :
    getCtx (modCtx s c x g) c' x' = if c = c' ∧ x = x' then g (getCtx s c x) else getCtx s c' x' :=
  getCtx_setCtx s c x c' x' _

/-- A context of another core, and what a core change leaves of its own contexts. -/
@[simp] theorem getCtx_modCore (c c' x : Nat) (g : Core → Core) :
    getCtx (modCore s c g) c' x = if c = c' then ctxOf (g (getCore s c)) x else getCtx s c' x := by
  unfold getCtx
  by_cases hc : c = c' <;> simp [hc]

/-! ## The parts of a core that a context's update leaves -/

@[simp] theorem putCtx_running (k : Core) (x : Nat) (v : Ctx) : (putCtx k x v).running = k.running := rfl
@[simp] theorem putCtx_lastCtx (k : Core) (x : Nat) (v : Ctx) : (putCtx k x v).lastCtx = k.lastCtx := rfl
@[simp] theorem putCtx_consec (k : Core) (x : Nat) (v : Ctx) : (putCtx k x v).consec = k.consec := rfl
@[simp] theorem putCtx_nextIssue (k : Core) (x : Nat) (v : Ctx) : (putCtx k x v).nextIssue = k.nextIssue := rfl
@[simp] theorem putCtx_phi (k : Core) (x : Nat) (v : Ctx) : (putCtx k x v).phi = k.phi := rfl
@[simp] theorem putCtx_thrl (k : Core) (x : Nat) (v : Ctx) : (putCtx k x v).thrl = k.thrl := rfl
@[simp] theorem putCtx_bcache (k : Core) (x : Nat) (v : Ctx) : (putCtx k x v).bcache = k.bcache := rfl
@[simp] theorem putCtx_bfetch (k : Core) (x : Nat) (v : Ctx) : (putCtx k x v).bfetch = k.bfetch := rfl
@[simp] theorem putCtx_hot (k : Core) (x : Nat) (v : Ctx) : (putCtx k x v).hot = k.hot := rfl
@[simp] theorem putCtx_suspect (k : Core) (x : Nat) (v : Ctx) : (putCtx k x v).suspect = k.suspect := rfl
@[simp] theorem putCtx_disabled (k : Core) (x : Nat) (v : Ctx) : (putCtx k x v).disabled = k.disabled := rfl
@[simp] theorem putCtx_leaving (k : Core) (x : Nat) (v : Ctx) : (putCtx k x v).leaving = k.leaving := rfl
@[simp] theorem putCtx_katDue (k : Core) (x : Nat) (v : Ctx) : (putCtx k x v).katDue = k.katDue := rfl
@[simp] theorem putCtx_lastDec (k : Core) (x : Nat) (v : Ctx) : (putCtx k x v).lastDec = k.lastDec := rfl
@[simp] theorem putCtx_sp (k : Core) (x : Nat) (v : Ctx) : (putCtx k x v).sp = k.sp := rfl
@[simp] theorem putCtx_vf (k : Core) (x : Nat) (v : Ctx) : (putCtx k x v).vf = k.vf := rfl
@[simp] theorem putCtx_mx (k : Core) (x : Nat) (v : Ctx) : (putCtx k x v).mx = k.mx := rfl
@[simp] theorem putCtx_xb (k : Core) (x : Nat) (v : Ctx) : (putCtx k x v).xb = k.xb := rfl
@[simp] theorem putCtx_ctxs (k : Core) (x : Nat) (v : Ctx) : (putCtx k x v).ctxs = smPut k.ctxs x v := rfl
@[simp] theorem writeV_running (k : Core) (f : Bool) (a : Nat) (v : Wide) : (writeV k f a v).running = k.running := rfl
@[simp] theorem writeV_lastCtx (k : Core) (f : Bool) (a : Nat) (v : Wide) : (writeV k f a v).lastCtx = k.lastCtx := rfl
@[simp] theorem writeV_consec (k : Core) (f : Bool) (a : Nat) (v : Wide) : (writeV k f a v).consec = k.consec := rfl
@[simp] theorem writeV_nextIssue (k : Core) (f : Bool) (a : Nat) (v : Wide) : (writeV k f a v).nextIssue = k.nextIssue := rfl
@[simp] theorem writeV_phi (k : Core) (f : Bool) (a : Nat) (v : Wide) : (writeV k f a v).phi = k.phi := rfl
@[simp] theorem writeV_thrl (k : Core) (f : Bool) (a : Nat) (v : Wide) : (writeV k f a v).thrl = k.thrl := rfl
@[simp] theorem writeV_bcache (k : Core) (f : Bool) (a : Nat) (v : Wide) : (writeV k f a v).bcache = k.bcache := rfl
@[simp] theorem writeV_bfetch (k : Core) (f : Bool) (a : Nat) (v : Wide) : (writeV k f a v).bfetch = k.bfetch := rfl
@[simp] theorem writeV_hot (k : Core) (f : Bool) (a : Nat) (v : Wide) : (writeV k f a v).hot = k.hot := rfl
@[simp] theorem writeV_suspect (k : Core) (f : Bool) (a : Nat) (v : Wide) : (writeV k f a v).suspect = k.suspect := rfl
@[simp] theorem writeV_disabled (k : Core) (f : Bool) (a : Nat) (v : Wide) : (writeV k f a v).disabled = k.disabled := rfl
@[simp] theorem writeV_leaving (k : Core) (f : Bool) (a : Nat) (v : Wide) : (writeV k f a v).leaving = k.leaving := rfl
@[simp] theorem writeV_katDue (k : Core) (f : Bool) (a : Nat) (v : Wide) : (writeV k f a v).katDue = k.katDue := rfl
@[simp] theorem writeV_lastDec (k : Core) (f : Bool) (a : Nat) (v : Wide) : (writeV k f a v).lastDec = k.lastDec := rfl
@[simp] theorem writeV_sp (k : Core) (f : Bool) (a : Nat) (v : Wide) : (writeV k f a v).sp = k.sp := rfl
@[simp] theorem writeV_mx (k : Core) (f : Bool) (a : Nat) (v : Wide) : (writeV k f a v).mx = k.mx := rfl
@[simp] theorem writeV_xb (k : Core) (f : Bool) (a : Nat) (v : Wide) : (writeV k f a v).xb = k.xb := rfl
@[simp] theorem writeV_ctxs (k : Core) (f : Bool) (a : Nat) (v : Wide) : (writeV k f a v).ctxs = k.ctxs := rfl

/-! ## The parts of a register file that a register's update leaves -/

@[simp] theorem writeA_sregs (r : Regs) (f : Bool) (n : Nat) (v : Word) : (writeA r f n v).sregs = r.sregs := rfl
@[simp] theorem writeA_sEmpty (r : Regs) (f : Bool) (n : Nat) (v : Word) : (writeA r f n v).sEmpty = r.sEmpty := rfl
@[simp] theorem writeA_preds (r : Regs) (f : Bool) (n : Nat) (v : Word) : (writeA r f n v).preds = r.preds := rfl
@[simp] theorem writeA_masks (r : Regs) (f : Bool) (n : Nat) (v : Word) : (writeA r f n v).masks = r.masks := rfl
@[simp] theorem writeA_mEmpty (r : Regs) (f : Bool) (n : Nat) (v : Word) : (writeA r f n v).mEmpty = r.mEmpty := rfl
@[simp] theorem writeA_strides (r : Regs) (f : Bool) (n : Nat) (v : Word) : (writeA r f n v).strides = r.strides := rfl
@[simp] theorem writeA_ctrs (r : Regs) (f : Bool) (n : Nat) (v : Word) : (writeA r f n v).ctrs = r.ctrs := rfl
@[simp] theorem writeA_olcnt (r : Regs) (f : Bool) (n : Nat) (v : Word) : (writeA r f n v).olcnt = r.olcnt := rfl
@[simp] theorem writeA_rstack (r : Regs) (f : Bool) (n : Nat) (v : Word) : (writeA r f n v).rstack = r.rstack := rfl
@[simp] theorem writeA_loops (r : Regs) (f : Bool) (n : Nat) (v : Word) : (writeA r f n v).loops = r.loops := rfl
@[simp] theorem writeA_pend (r : Regs) (f : Bool) (n : Nat) (v : Word) : (writeA r f n v).pend = r.pend := rfl
@[simp] theorem writeA_pc (r : Regs) (f : Bool) (n : Nat) (v : Word) : (writeA r f n v).pc = r.pc := rfl
@[simp] theorem writeA_redirect (r : Regs) (f : Bool) (n : Nat) (v : Word) : (writeA r f n v).redirect = r.redirect := rfl
@[simp] theorem writeA_redirectPops (r : Regs) (f : Bool) (n : Nat) (v : Word) : (writeA r f n v).redirectPops = r.redirectPops := rfl
@[simp] theorem writeA_fpstat (r : Regs) (f : Bool) (n : Nat) (v : Word) : (writeA r f n v).fpstat = r.fpstat := rfl
@[simp] theorem writeA_donemask (r : Regs) (f : Bool) (n : Nat) (v : Word) : (writeA r f n v).donemask = r.donemask := rfl
@[simp] theorem writeA_vfbx (r : Regs) (f : Bool) (n : Nat) (v : Word) : (writeA r f n v).vfbx = r.vfbx := rfl
@[simp] theorem writeA_vfby (r : Regs) (f : Bool) (n : Nat) (v : Word) : (writeA r f n v).vfby = r.vfby := rfl
@[simp] theorem writeA_vcount (r : Regs) (f : Bool) (n : Nat) (v : Word) : (writeA r f n v).vcount = r.vcount := rfl
@[simp] theorem writeA_vpwrsel (r : Regs) (f : Bool) (n : Nat) (v : Word) : (writeA r f n v).vpwrsel = r.vpwrsel := rfl
@[simp] theorem writeA_fbTarget (r : Regs) (f : Bool) (n : Nat) (v : Word) : (writeA r f n v).fbTarget = r.fbTarget := rfl
@[simp] theorem writeK_sregs (r : Regs) (f : Bool) (n : Nat) (v : Word) : (writeK r f n v).sregs = r.sregs := rfl
@[simp] theorem writeK_sEmpty (r : Regs) (f : Bool) (n : Nat) (v : Word) : (writeK r f n v).sEmpty = r.sEmpty := rfl
@[simp] theorem writeK_preds (r : Regs) (f : Bool) (n : Nat) (v : Word) : (writeK r f n v).preds = r.preds := rfl
@[simp] theorem writeK_aregs (r : Regs) (f : Bool) (n : Nat) (v : Word) : (writeK r f n v).aregs = r.aregs := rfl
@[simp] theorem writeK_aEmpty (r : Regs) (f : Bool) (n : Nat) (v : Word) : (writeK r f n v).aEmpty = r.aEmpty := rfl
@[simp] theorem writeK_strides (r : Regs) (f : Bool) (n : Nat) (v : Word) : (writeK r f n v).strides = r.strides := rfl
@[simp] theorem writeK_ctrs (r : Regs) (f : Bool) (n : Nat) (v : Word) : (writeK r f n v).ctrs = r.ctrs := rfl
@[simp] theorem writeK_olcnt (r : Regs) (f : Bool) (n : Nat) (v : Word) : (writeK r f n v).olcnt = r.olcnt := rfl
@[simp] theorem writeK_rstack (r : Regs) (f : Bool) (n : Nat) (v : Word) : (writeK r f n v).rstack = r.rstack := rfl
@[simp] theorem writeK_loops (r : Regs) (f : Bool) (n : Nat) (v : Word) : (writeK r f n v).loops = r.loops := rfl
@[simp] theorem writeK_pend (r : Regs) (f : Bool) (n : Nat) (v : Word) : (writeK r f n v).pend = r.pend := rfl
@[simp] theorem writeK_pc (r : Regs) (f : Bool) (n : Nat) (v : Word) : (writeK r f n v).pc = r.pc := rfl
@[simp] theorem writeK_redirect (r : Regs) (f : Bool) (n : Nat) (v : Word) : (writeK r f n v).redirect = r.redirect := rfl
@[simp] theorem writeK_redirectPops (r : Regs) (f : Bool) (n : Nat) (v : Word) : (writeK r f n v).redirectPops = r.redirectPops := rfl
@[simp] theorem writeK_fpstat (r : Regs) (f : Bool) (n : Nat) (v : Word) : (writeK r f n v).fpstat = r.fpstat := rfl
@[simp] theorem writeK_donemask (r : Regs) (f : Bool) (n : Nat) (v : Word) : (writeK r f n v).donemask = r.donemask := rfl
@[simp] theorem writeK_vfbx (r : Regs) (f : Bool) (n : Nat) (v : Word) : (writeK r f n v).vfbx = r.vfbx := rfl
@[simp] theorem writeK_vfby (r : Regs) (f : Bool) (n : Nat) (v : Word) : (writeK r f n v).vfby = r.vfby := rfl
@[simp] theorem writeK_vcount (r : Regs) (f : Bool) (n : Nat) (v : Word) : (writeK r f n v).vcount = r.vcount := rfl
@[simp] theorem writeK_vpwrsel (r : Regs) (f : Bool) (n : Nat) (v : Word) : (writeK r f n v).vpwrsel = r.vpwrsel := rfl
@[simp] theorem writeK_fbTarget (r : Regs) (f : Bool) (n : Nat) (v : Word) : (writeK r f n v).fbTarget = r.fbTarget := rfl
@[simp] theorem writeC_sregs (r : Regs) (n : Nat) (v : BitVec 16) : (writeC r n v).sregs = r.sregs := rfl
@[simp] theorem writeC_sEmpty (r : Regs) (n : Nat) (v : BitVec 16) : (writeC r n v).sEmpty = r.sEmpty := rfl
@[simp] theorem writeC_preds (r : Regs) (n : Nat) (v : BitVec 16) : (writeC r n v).preds = r.preds := rfl
@[simp] theorem writeC_masks (r : Regs) (n : Nat) (v : BitVec 16) : (writeC r n v).masks = r.masks := rfl
@[simp] theorem writeC_mEmpty (r : Regs) (n : Nat) (v : BitVec 16) : (writeC r n v).mEmpty = r.mEmpty := rfl
@[simp] theorem writeC_aregs (r : Regs) (n : Nat) (v : BitVec 16) : (writeC r n v).aregs = r.aregs := rfl
@[simp] theorem writeC_aEmpty (r : Regs) (n : Nat) (v : BitVec 16) : (writeC r n v).aEmpty = r.aEmpty := rfl
@[simp] theorem writeC_strides (r : Regs) (n : Nat) (v : BitVec 16) : (writeC r n v).strides = r.strides := rfl
@[simp] theorem writeC_olcnt (r : Regs) (n : Nat) (v : BitVec 16) : (writeC r n v).olcnt = r.olcnt := rfl
@[simp] theorem writeC_rstack (r : Regs) (n : Nat) (v : BitVec 16) : (writeC r n v).rstack = r.rstack := rfl
@[simp] theorem writeC_loops (r : Regs) (n : Nat) (v : BitVec 16) : (writeC r n v).loops = r.loops := rfl
@[simp] theorem writeC_pend (r : Regs) (n : Nat) (v : BitVec 16) : (writeC r n v).pend = r.pend := rfl
@[simp] theorem writeC_pc (r : Regs) (n : Nat) (v : BitVec 16) : (writeC r n v).pc = r.pc := rfl
@[simp] theorem writeC_redirect (r : Regs) (n : Nat) (v : BitVec 16) : (writeC r n v).redirect = r.redirect := rfl
@[simp] theorem writeC_redirectPops (r : Regs) (n : Nat) (v : BitVec 16) : (writeC r n v).redirectPops = r.redirectPops := rfl
@[simp] theorem writeC_fpstat (r : Regs) (n : Nat) (v : BitVec 16) : (writeC r n v).fpstat = r.fpstat := rfl
@[simp] theorem writeC_donemask (r : Regs) (n : Nat) (v : BitVec 16) : (writeC r n v).donemask = r.donemask := rfl
@[simp] theorem writeC_vfbx (r : Regs) (n : Nat) (v : BitVec 16) : (writeC r n v).vfbx = r.vfbx := rfl
@[simp] theorem writeC_vfby (r : Regs) (n : Nat) (v : BitVec 16) : (writeC r n v).vfby = r.vfby := rfl
@[simp] theorem writeC_vcount (r : Regs) (n : Nat) (v : BitVec 16) : (writeC r n v).vcount = r.vcount := rfl
@[simp] theorem writeC_vpwrsel (r : Regs) (n : Nat) (v : BitVec 16) : (writeC r n v).vpwrsel = r.vpwrsel := rfl
@[simp] theorem writeC_fbTarget (r : Regs) (n : Nat) (v : BitVec 16) : (writeC r n v).fbTarget = r.fbTarget := rfl
@[simp] theorem raise_sregs (r : Regs) (g : BitVec 6) : (raise r g).sregs = r.sregs := rfl
@[simp] theorem raise_sEmpty (r : Regs) (g : BitVec 6) : (raise r g).sEmpty = r.sEmpty := rfl
@[simp] theorem raise_preds (r : Regs) (g : BitVec 6) : (raise r g).preds = r.preds := rfl
@[simp] theorem raise_masks (r : Regs) (g : BitVec 6) : (raise r g).masks = r.masks := rfl
@[simp] theorem raise_mEmpty (r : Regs) (g : BitVec 6) : (raise r g).mEmpty = r.mEmpty := rfl
@[simp] theorem raise_aregs (r : Regs) (g : BitVec 6) : (raise r g).aregs = r.aregs := rfl
@[simp] theorem raise_aEmpty (r : Regs) (g : BitVec 6) : (raise r g).aEmpty = r.aEmpty := rfl
@[simp] theorem raise_strides (r : Regs) (g : BitVec 6) : (raise r g).strides = r.strides := rfl
@[simp] theorem raise_ctrs (r : Regs) (g : BitVec 6) : (raise r g).ctrs = r.ctrs := rfl
@[simp] theorem raise_olcnt (r : Regs) (g : BitVec 6) : (raise r g).olcnt = r.olcnt := rfl
@[simp] theorem raise_rstack (r : Regs) (g : BitVec 6) : (raise r g).rstack = r.rstack := rfl
@[simp] theorem raise_loops (r : Regs) (g : BitVec 6) : (raise r g).loops = r.loops := rfl
@[simp] theorem raise_pend (r : Regs) (g : BitVec 6) : (raise r g).pend = r.pend := rfl
@[simp] theorem raise_pc (r : Regs) (g : BitVec 6) : (raise r g).pc = r.pc := rfl
@[simp] theorem raise_redirect (r : Regs) (g : BitVec 6) : (raise r g).redirect = r.redirect := rfl
@[simp] theorem raise_redirectPops (r : Regs) (g : BitVec 6) : (raise r g).redirectPops = r.redirectPops := rfl
@[simp] theorem raise_donemask (r : Regs) (g : BitVec 6) : (raise r g).donemask = r.donemask := rfl
@[simp] theorem raise_vfbx (r : Regs) (g : BitVec 6) : (raise r g).vfbx = r.vfbx := rfl
@[simp] theorem raise_vfby (r : Regs) (g : BitVec 6) : (raise r g).vfby = r.vfby := rfl
@[simp] theorem raise_vcount (r : Regs) (g : BitVec 6) : (raise r g).vcount = r.vcount := rfl
@[simp] theorem raise_vpwrsel (r : Regs) (g : BitVec 6) : (raise r g).vpwrsel = r.vpwrsel := rfl
@[simp] theorem raise_fbTarget (r : Regs) (g : BitVec 6) : (raise r g).fbTarget = r.fbTarget := rfl
@[simp] theorem writeS_preds (r : Regs) (n : Nat) (v : Word) : (writeS r n v).preds = r.preds := by unfold writeS; split <;> rfl
@[simp] theorem writeS_masks (r : Regs) (n : Nat) (v : Word) : (writeS r n v).masks = r.masks := by unfold writeS; split <;> rfl
@[simp] theorem writeS_mEmpty (r : Regs) (n : Nat) (v : Word) : (writeS r n v).mEmpty = r.mEmpty := by unfold writeS; split <;> rfl
@[simp] theorem writeS_aregs (r : Regs) (n : Nat) (v : Word) : (writeS r n v).aregs = r.aregs := by unfold writeS; split <;> rfl
@[simp] theorem writeS_aEmpty (r : Regs) (n : Nat) (v : Word) : (writeS r n v).aEmpty = r.aEmpty := by unfold writeS; split <;> rfl
@[simp] theorem writeS_strides (r : Regs) (n : Nat) (v : Word) : (writeS r n v).strides = r.strides := by unfold writeS; split <;> rfl
@[simp] theorem writeS_ctrs (r : Regs) (n : Nat) (v : Word) : (writeS r n v).ctrs = r.ctrs := by unfold writeS; split <;> rfl
@[simp] theorem writeS_olcnt (r : Regs) (n : Nat) (v : Word) : (writeS r n v).olcnt = r.olcnt := by unfold writeS; split <;> rfl
@[simp] theorem writeS_rstack (r : Regs) (n : Nat) (v : Word) : (writeS r n v).rstack = r.rstack := by unfold writeS; split <;> rfl
@[simp] theorem writeS_loops (r : Regs) (n : Nat) (v : Word) : (writeS r n v).loops = r.loops := by unfold writeS; split <;> rfl
@[simp] theorem writeS_pend (r : Regs) (n : Nat) (v : Word) : (writeS r n v).pend = r.pend := by unfold writeS; split <;> rfl
@[simp] theorem writeS_pc (r : Regs) (n : Nat) (v : Word) : (writeS r n v).pc = r.pc := by unfold writeS; split <;> rfl
@[simp] theorem writeS_redirect (r : Regs) (n : Nat) (v : Word) : (writeS r n v).redirect = r.redirect := by unfold writeS; split <;> rfl
@[simp] theorem writeS_redirectPops (r : Regs) (n : Nat) (v : Word) : (writeS r n v).redirectPops = r.redirectPops := by unfold writeS; split <;> rfl
@[simp] theorem writeS_fpstat (r : Regs) (n : Nat) (v : Word) : (writeS r n v).fpstat = r.fpstat := by unfold writeS; split <;> rfl
@[simp] theorem writeS_donemask (r : Regs) (n : Nat) (v : Word) : (writeS r n v).donemask = r.donemask := by unfold writeS; split <;> rfl
@[simp] theorem writeS_vfbx (r : Regs) (n : Nat) (v : Word) : (writeS r n v).vfbx = r.vfbx := by unfold writeS; split <;> rfl
@[simp] theorem writeS_vfby (r : Regs) (n : Nat) (v : Word) : (writeS r n v).vfby = r.vfby := by unfold writeS; split <;> rfl
@[simp] theorem writeS_vcount (r : Regs) (n : Nat) (v : Word) : (writeS r n v).vcount = r.vcount := by unfold writeS; split <;> rfl
@[simp] theorem writeS_vpwrsel (r : Regs) (n : Nat) (v : Word) : (writeS r n v).vpwrsel = r.vpwrsel := by unfold writeS; split <;> rfl
@[simp] theorem writeS_fbTarget (r : Regs) (n : Nat) (v : Word) : (writeS r n v).fbTarget = r.fbTarget := by unfold writeS; split <;> rfl
@[simp] theorem writeP_sregs (r : Regs) (n : Nat) (b : Bool) : (writeP r n b).sregs = r.sregs := by unfold writeP; split <;> rfl
@[simp] theorem writeP_sEmpty (r : Regs) (n : Nat) (b : Bool) : (writeP r n b).sEmpty = r.sEmpty := by unfold writeP; split <;> rfl
@[simp] theorem writeP_masks (r : Regs) (n : Nat) (b : Bool) : (writeP r n b).masks = r.masks := by unfold writeP; split <;> rfl
@[simp] theorem writeP_mEmpty (r : Regs) (n : Nat) (b : Bool) : (writeP r n b).mEmpty = r.mEmpty := by unfold writeP; split <;> rfl
@[simp] theorem writeP_aregs (r : Regs) (n : Nat) (b : Bool) : (writeP r n b).aregs = r.aregs := by unfold writeP; split <;> rfl
@[simp] theorem writeP_aEmpty (r : Regs) (n : Nat) (b : Bool) : (writeP r n b).aEmpty = r.aEmpty := by unfold writeP; split <;> rfl
@[simp] theorem writeP_strides (r : Regs) (n : Nat) (b : Bool) : (writeP r n b).strides = r.strides := by unfold writeP; split <;> rfl
@[simp] theorem writeP_ctrs (r : Regs) (n : Nat) (b : Bool) : (writeP r n b).ctrs = r.ctrs := by unfold writeP; split <;> rfl
@[simp] theorem writeP_olcnt (r : Regs) (n : Nat) (b : Bool) : (writeP r n b).olcnt = r.olcnt := by unfold writeP; split <;> rfl
@[simp] theorem writeP_rstack (r : Regs) (n : Nat) (b : Bool) : (writeP r n b).rstack = r.rstack := by unfold writeP; split <;> rfl
@[simp] theorem writeP_loops (r : Regs) (n : Nat) (b : Bool) : (writeP r n b).loops = r.loops := by unfold writeP; split <;> rfl
@[simp] theorem writeP_pend (r : Regs) (n : Nat) (b : Bool) : (writeP r n b).pend = r.pend := by unfold writeP; split <;> rfl
@[simp] theorem writeP_pc (r : Regs) (n : Nat) (b : Bool) : (writeP r n b).pc = r.pc := by unfold writeP; split <;> rfl
@[simp] theorem writeP_redirect (r : Regs) (n : Nat) (b : Bool) : (writeP r n b).redirect = r.redirect := by unfold writeP; split <;> rfl
@[simp] theorem writeP_redirectPops (r : Regs) (n : Nat) (b : Bool) : (writeP r n b).redirectPops = r.redirectPops := by unfold writeP; split <;> rfl
@[simp] theorem writeP_fpstat (r : Regs) (n : Nat) (b : Bool) : (writeP r n b).fpstat = r.fpstat := by unfold writeP; split <;> rfl
@[simp] theorem writeP_donemask (r : Regs) (n : Nat) (b : Bool) : (writeP r n b).donemask = r.donemask := by unfold writeP; split <;> rfl
@[simp] theorem writeP_vfbx (r : Regs) (n : Nat) (b : Bool) : (writeP r n b).vfbx = r.vfbx := by unfold writeP; split <;> rfl
@[simp] theorem writeP_vfby (r : Regs) (n : Nat) (b : Bool) : (writeP r n b).vfby = r.vfby := by unfold writeP; split <;> rfl
@[simp] theorem writeP_vcount (r : Regs) (n : Nat) (b : Bool) : (writeP r n b).vcount = r.vcount := by unfold writeP; split <;> rfl
@[simp] theorem writeP_vpwrsel (r : Regs) (n : Nat) (b : Bool) : (writeP r n b).vpwrsel = r.vpwrsel := by unfold writeP; split <;> rfl
@[simp] theorem writeP_fbTarget (r : Regs) (n : Nat) (b : Bool) : (writeP r n b).fbTarget = r.fbTarget := by unfold writeP; split <;> rfl

end Sys2Proof.Laws
end

