-- ==== Sys2Proof/Laws/Ops.lean ====
section
/-! SUPPORT. What the operations that instructions share leave unchanged: records and events, taking a trap and returning
from it, results on their way, and what a bundle that does not issue does. -/

namespace Sys2Proof.Laws

open Sys2Proof Sys2Proof.Machine

variable (s : State)

/-! ## Records and events -/

@[simp] theorem bvPush_cores (b : BitVec 128) : (bvPush s b).cores = s.cores := by
  rfl
@[simp] theorem bvPush_clusters (b : BitVec 128) : (bvPush s b).clusters = s.clusters := by
  rfl
@[simp] theorem bvPush_creg (b : BitVec 128) : (bvPush s b).creg = s.creg := by
  rfl
@[simp] theorem bvPush_cwords (b : BitVec 128) : (bvPush s b).cwords = s.cwords := by
  rfl
@[simp] theorem bvPush_resp (b : BitVec 128) : (bvPush s b).resp = s.resp := by
  rfl
@[simp] theorem bvPush_answers (b : BitVec 128) : (bvPush s b).answers = s.answers := by
  rfl
@[simp] theorem bvPush_t (b : BitVec 128) : (bvPush s b).t = s.t := by
  rfl
@[simp] theorem bvPush_c (b : BitVec 128) : (bvPush s b).c = s.c := by
  rfl
@[simp] theorem bvPush_x (b : BitVec 128) : (bvPush s b).x = s.x := by
  rfl
@[simp] theorem bvPush_f (b : BitVec 128) : (bvPush s b).f = s.f := by
  rfl
@[simp] theorem bvPush_w (b : BitVec 128) : (bvPush s b).w = s.w := by
  rfl
@[simp] theorem bvPush_h (b : BitVec 128) : (bvPush s b).h = s.h := by
  rfl
@[simp] theorem bvRecord_cores (k : Nat) (q : Option Nat) (v : Nat) : (bvRecord s k q v).cores = s.cores := by
  unfold bvRecord; split <;> rfl
@[simp] theorem bvRecord_clusters (k : Nat) (q : Option Nat) (v : Nat) : (bvRecord s k q v).clusters = s.clusters := by
  unfold bvRecord; split <;> rfl
@[simp] theorem bvRecord_creg (k : Nat) (q : Option Nat) (v : Nat) : (bvRecord s k q v).creg = s.creg := by
  unfold bvRecord; split <;> rfl
@[simp] theorem bvRecord_cwords (k : Nat) (q : Option Nat) (v : Nat) : (bvRecord s k q v).cwords = s.cwords := by
  unfold bvRecord; split <;> rfl
@[simp] theorem bvRecord_resp (k : Nat) (q : Option Nat) (v : Nat) : (bvRecord s k q v).resp = s.resp := by
  unfold bvRecord; split <;> rfl
@[simp] theorem bvRecord_answers (k : Nat) (q : Option Nat) (v : Nat) : (bvRecord s k q v).answers = s.answers := by
  unfold bvRecord; split <;> rfl
@[simp] theorem bvRecord_t (k : Nat) (q : Option Nat) (v : Nat) : (bvRecord s k q v).t = s.t := by
  unfold bvRecord; split <;> rfl
@[simp] theorem bvRecord_c (k : Nat) (q : Option Nat) (v : Nat) : (bvRecord s k q v).c = s.c := by
  unfold bvRecord; split <;> rfl
@[simp] theorem bvRecord_x (k : Nat) (q : Option Nat) (v : Nat) : (bvRecord s k q v).x = s.x := by
  unfold bvRecord; split <;> rfl
@[simp] theorem bvRecord_f (k : Nat) (q : Option Nat) (v : Nat) : (bvRecord s k q v).f = s.f := by
  unfold bvRecord; split <;> rfl
@[simp] theorem bvRecord_w (k : Nat) (q : Option Nat) (v : Nat) : (bvRecord s k q v).w = s.w := by
  unfold bvRecord; split <;> rfl
@[simp] theorem bvRecord_h (k : Nat) (q : Option Nat) (v : Nat) : (bvRecord s k q v).h = s.h := by
  unfold bvRecord; split <;> rfl
@[simp] theorem bvStopOnEvent_cores (b : Nat) : (bvStopOnEvent s b).cores = s.cores := by
  unfold bvStopOnEvent; split <;> rfl
@[simp] theorem bvStopOnEvent_clusters (b : Nat) : (bvStopOnEvent s b).clusters = s.clusters := by
  unfold bvStopOnEvent; split <;> rfl
@[simp] theorem bvStopOnEvent_creg (b : Nat) : (bvStopOnEvent s b).creg = s.creg := by
  unfold bvStopOnEvent; split <;> rfl
@[simp] theorem bvStopOnEvent_cwords (b : Nat) : (bvStopOnEvent s b).cwords = s.cwords := by
  unfold bvStopOnEvent; split <;> rfl
@[simp] theorem bvStopOnEvent_resp (b : Nat) : (bvStopOnEvent s b).resp = s.resp := by
  unfold bvStopOnEvent; split <;> rfl
@[simp] theorem bvStopOnEvent_answers (b : Nat) : (bvStopOnEvent s b).answers = s.answers := by
  unfold bvStopOnEvent; split <;> rfl
@[simp] theorem bvStopOnEvent_t (b : Nat) : (bvStopOnEvent s b).t = s.t := by
  unfold bvStopOnEvent; split <;> rfl
@[simp] theorem bvStopOnEvent_c (b : Nat) : (bvStopOnEvent s b).c = s.c := by
  unfold bvStopOnEvent; split <;> rfl
@[simp] theorem bvStopOnEvent_x (b : Nat) : (bvStopOnEvent s b).x = s.x := by
  unfold bvStopOnEvent; split <;> rfl
@[simp] theorem bvStopOnEvent_f (b : Nat) : (bvStopOnEvent s b).f = s.f := by
  unfold bvStopOnEvent; split <;> rfl
@[simp] theorem bvStopOnEvent_w (b : Nat) : (bvStopOnEvent s b).w = s.w := by
  unfold bvStopOnEvent; split <;> rfl
@[simp] theorem bvStopOnEvent_h (b : Nat) : (bvStopOnEvent s b).h = s.h := by
  unfold bvStopOnEvent; split <;> rfl
@[simp] theorem postEvent_cores (ty : Nat) (k : Option Nat) (p : BitVec 4) (v : Nat) : (postEvent s ty k p v).cores = s.cores := by
  unfold postEvent; simp only []; split <;> rfl
@[simp] theorem postEvent_clusters (ty : Nat) (k : Option Nat) (p : BitVec 4) (v : Nat) : (postEvent s ty k p v).clusters = s.clusters := by
  unfold postEvent; simp only []; split <;> rfl
@[simp] theorem postEvent_creg (ty : Nat) (k : Option Nat) (p : BitVec 4) (v : Nat) : (postEvent s ty k p v).creg = s.creg := by
  unfold postEvent; simp only []; split <;> rfl
@[simp] theorem postEvent_cwords (ty : Nat) (k : Option Nat) (p : BitVec 4) (v : Nat) : (postEvent s ty k p v).cwords = s.cwords := by
  unfold postEvent; simp only []; split <;> rfl
@[simp] theorem postEvent_resp (ty : Nat) (k : Option Nat) (p : BitVec 4) (v : Nat) : (postEvent s ty k p v).resp = s.resp := by
  unfold postEvent; simp only []; split <;> rfl
@[simp] theorem postEvent_answers (ty : Nat) (k : Option Nat) (p : BitVec 4) (v : Nat) : (postEvent s ty k p v).answers = s.answers := by
  unfold postEvent; simp only []; split <;> rfl
@[simp] theorem postEvent_t (ty : Nat) (k : Option Nat) (p : BitVec 4) (v : Nat) : (postEvent s ty k p v).t = s.t := by
  unfold postEvent; simp only []; split <;> rfl
@[simp] theorem postEvent_c (ty : Nat) (k : Option Nat) (p : BitVec 4) (v : Nat) : (postEvent s ty k p v).c = s.c := by
  unfold postEvent; simp only []; split <;> rfl
@[simp] theorem postEvent_x (ty : Nat) (k : Option Nat) (p : BitVec 4) (v : Nat) : (postEvent s ty k p v).x = s.x := by
  unfold postEvent; simp only []; split <;> rfl
@[simp] theorem postEvent_f (ty : Nat) (k : Option Nat) (p : BitVec 4) (v : Nat) : (postEvent s ty k p v).f = s.f := by
  unfold postEvent; simp only []; split <;> rfl
@[simp] theorem postEvent_d (ty : Nat) (k : Option Nat) (p : BitVec 4) (v : Nat) : (postEvent s ty k p v).d = s.d := by
  unfold postEvent; simp only []; split <;> rfl
@[simp] theorem postEvent_h (ty : Nat) (k : Option Nat) (p : BitVec 4) (v : Nat) : (postEvent s ty k p v).h = s.h := by
  unfold postEvent; simp only []; split <;> rfl

/-- An event is put in the queue of events or left with its poster; nothing else of firmware's state changes (R354). -/
theorem postEvent_w (ty : Nat) (k : Option Nat) (p : BitVec 4) (v : Nat) :
    let e : Event := { type := ty, key := k, part := p, time := timebase s, data := BitVec.ofNat 128 v }
    (postEvent s ty k p v).w = { s.w with events := s.w.events ++ [e] } ∨
      (postEvent s ty k p v).w = { s.w with backlog := s.w.backlog ++ [e] } := by
  unfold postEvent; simp only []
  split
  · exact .inl rfl
  · exact .inr rfl

/-! ## Traps -/

@[simp] theorem stopWithTrap_clusters (c x cls cause slot detail origin : Nat) (b : BitVec 32) (dn : BitVec 8) : (stopWithTrap s c x cls cause slot detail origin b dn).clusters = s.clusters := by
  rfl
@[simp] theorem stopWithTrap_creg (c x cls cause slot detail origin : Nat) (b : BitVec 32) (dn : BitVec 8) : (stopWithTrap s c x cls cause slot detail origin b dn).creg = s.creg := by
  rfl
@[simp] theorem stopWithTrap_cwords (c x cls cause slot detail origin : Nat) (b : BitVec 32) (dn : BitVec 8) : (stopWithTrap s c x cls cause slot detail origin b dn).cwords = s.cwords := by
  rfl
@[simp] theorem stopWithTrap_resp (c x cls cause slot detail origin : Nat) (b : BitVec 32) (dn : BitVec 8) : (stopWithTrap s c x cls cause slot detail origin b dn).resp = s.resp := by
  rfl
@[simp] theorem stopWithTrap_answers (c x cls cause slot detail origin : Nat) (b : BitVec 32) (dn : BitVec 8) : (stopWithTrap s c x cls cause slot detail origin b dn).answers = s.answers := by
  rfl
@[simp] theorem stopWithTrap_t (c x cls cause slot detail origin : Nat) (b : BitVec 32) (dn : BitVec 8) : (stopWithTrap s c x cls cause slot detail origin b dn).t = s.t := by
  rfl
@[simp] theorem stopWithTrap_c (c x cls cause slot detail origin : Nat) (b : BitVec 32) (dn : BitVec 8) : (stopWithTrap s c x cls cause slot detail origin b dn).c = s.c := by
  rfl
@[simp] theorem stopWithTrap_x (c x cls cause slot detail origin : Nat) (b : BitVec 32) (dn : BitVec 8) : (stopWithTrap s c x cls cause slot detail origin b dn).x = s.x := by
  rfl
@[simp] theorem stopWithTrap_f (c x cls cause slot detail origin : Nat) (b : BitVec 32) (dn : BitVec 8) : (stopWithTrap s c x cls cause slot detail origin b dn).f = s.f := by
  rfl
@[simp] theorem stopWithTrap_d (c x cls cause slot detail origin : Nat) (b : BitVec 32) (dn : BitVec 8) : (stopWithTrap s c x cls cause slot detail origin b dn).d = s.d := by
  rfl
@[simp] theorem stopWithTrap_h (c x cls cause slot detail origin : Nat) (b : BitVec 32) (dn : BitVec 8) : (stopWithTrap s c x cls cause slot detail origin b dn).h = s.h := by
  rfl

/-- A field that stopping a member keeps is kept over all members. -/
theorem foldl_keeps {α β : Type} (f : State → α) (g : State → β → State) (h : ∀ s b, f (g s b) = f s) (l : List β) (s : State) :
    f (l.foldl g s) = f s := by
  induction l generalizing s with
  | nil => rfl
  | cons b l ih => rw [List.foldl_cons, ih, h]

@[simp] theorem stopLater_clusters (c x : Nat) (k : StopTrap) (b : BitVec 32) (dn : BitVec 8) : (stopLater s c x k b dn).clusters = s.clusters := by
  unfold stopLater; split <;> rfl
@[simp] theorem stopLater_creg (c x : Nat) (k : StopTrap) (b : BitVec 32) (dn : BitVec 8) : (stopLater s c x k b dn).creg = s.creg := by
  unfold stopLater; split <;> rfl
@[simp] theorem stopLater_cwords (c x : Nat) (k : StopTrap) (b : BitVec 32) (dn : BitVec 8) : (stopLater s c x k b dn).cwords = s.cwords := by
  unfold stopLater; split <;> rfl
@[simp] theorem stopLater_resp (c x : Nat) (k : StopTrap) (b : BitVec 32) (dn : BitVec 8) : (stopLater s c x k b dn).resp = s.resp := by
  unfold stopLater; split <;> rfl
@[simp] theorem stopLater_answers (c x : Nat) (k : StopTrap) (b : BitVec 32) (dn : BitVec 8) : (stopLater s c x k b dn).answers = s.answers := by
  unfold stopLater; split <;> rfl
@[simp] theorem stopLater_t (c x : Nat) (k : StopTrap) (b : BitVec 32) (dn : BitVec 8) : (stopLater s c x k b dn).t = s.t := by
  unfold stopLater; split <;> rfl
@[simp] theorem stopLater_c (c x : Nat) (k : StopTrap) (b : BitVec 32) (dn : BitVec 8) : (stopLater s c x k b dn).c = s.c := by
  unfold stopLater; split <;> rfl
@[simp] theorem stopLater_x (c x : Nat) (k : StopTrap) (b : BitVec 32) (dn : BitVec 8) : (stopLater s c x k b dn).x = s.x := by
  unfold stopLater; split <;> rfl
@[simp] theorem stopLater_f (c x : Nat) (k : StopTrap) (b : BitVec 32) (dn : BitVec 8) : (stopLater s c x k b dn).f = s.f := by
  unfold stopLater; split <;> rfl
@[simp] theorem stopLater_d (c x : Nat) (k : StopTrap) (b : BitVec 32) (dn : BitVec 8) : (stopLater s c x k b dn).d = s.d := by
  unfold stopLater; split <;> rfl
@[simp] theorem stopLater_h (c x : Nat) (k : StopTrap) (b : BitVec 32) (dn : BitVec 8) : (stopLater s c x k b dn).h = s.h := by
  unfold stopLater; split <;> rfl
@[simp] theorem takeTrap_clusters (c x cls cause slot detail : Nat) (b : BitVec 32) (dn : BitVec 8) (own : List (Nat × Nat × Nat × Nat × Nat)) (sd : Nat → BitVec 8) :
    (takeTrap s c x cls cause slot detail b dn own sd).clusters = s.clusters := by
  unfold takeTrap
  simp only [postEvent_clusters, bvStopOnEvent_clusters, bvRecord_clusters]
  rw [foldl_keeps (fun s => s.clusters) _ (fun s m => by split <;> simp only [stopLater_clusters])]
  simp only [stopLater_clusters]
@[simp] theorem takeTrap_creg (c x cls cause slot detail : Nat) (b : BitVec 32) (dn : BitVec 8) (own : List (Nat × Nat × Nat × Nat × Nat)) (sd : Nat → BitVec 8) :
    (takeTrap s c x cls cause slot detail b dn own sd).creg = s.creg := by
  unfold takeTrap
  simp only [postEvent_creg, bvStopOnEvent_creg, bvRecord_creg]
  rw [foldl_keeps (fun s => s.creg) _ (fun s m => by split <;> simp only [stopLater_creg])]
  simp only [stopLater_creg]
@[simp] theorem takeTrap_cwords (c x cls cause slot detail : Nat) (b : BitVec 32) (dn : BitVec 8) (own : List (Nat × Nat × Nat × Nat × Nat)) (sd : Nat → BitVec 8) :
    (takeTrap s c x cls cause slot detail b dn own sd).cwords = s.cwords := by
  unfold takeTrap
  simp only [postEvent_cwords, bvStopOnEvent_cwords, bvRecord_cwords]
  rw [foldl_keeps (fun s => s.cwords) _ (fun s m => by split <;> simp only [stopLater_cwords])]
  simp only [stopLater_cwords]
@[simp] theorem takeTrap_resp (c x cls cause slot detail : Nat) (b : BitVec 32) (dn : BitVec 8) (own : List (Nat × Nat × Nat × Nat × Nat)) (sd : Nat → BitVec 8) :
    (takeTrap s c x cls cause slot detail b dn own sd).resp = s.resp := by
  unfold takeTrap
  simp only [postEvent_resp, bvStopOnEvent_resp, bvRecord_resp]
  rw [foldl_keeps (fun s => s.resp) _ (fun s m => by split <;> simp only [stopLater_resp])]
  simp only [stopLater_resp]
@[simp] theorem takeTrap_answers (c x cls cause slot detail : Nat) (b : BitVec 32) (dn : BitVec 8) (own : List (Nat × Nat × Nat × Nat × Nat)) (sd : Nat → BitVec 8) :
    (takeTrap s c x cls cause slot detail b dn own sd).answers = s.answers := by
  unfold takeTrap
  simp only [postEvent_answers, bvStopOnEvent_answers, bvRecord_answers]
  rw [foldl_keeps (fun s => s.answers) _ (fun s m => by split <;> simp only [stopLater_answers])]
  simp only [stopLater_answers]
@[simp] theorem takeTrap_t (c x cls cause slot detail : Nat) (b : BitVec 32) (dn : BitVec 8) (own : List (Nat × Nat × Nat × Nat × Nat)) (sd : Nat → BitVec 8) :
    (takeTrap s c x cls cause slot detail b dn own sd).t = s.t := by
  unfold takeTrap
  simp only [postEvent_t, bvStopOnEvent_t, bvRecord_t]
  rw [foldl_keeps (fun s => s.t) _ (fun s m => by split <;> simp only [stopLater_t])]
  simp only [stopLater_t]
@[simp] theorem takeTrap_c (c x cls cause slot detail : Nat) (b : BitVec 32) (dn : BitVec 8) (own : List (Nat × Nat × Nat × Nat × Nat)) (sd : Nat → BitVec 8) :
    (takeTrap s c x cls cause slot detail b dn own sd).c = s.c := by
  unfold takeTrap
  simp only [postEvent_c, bvStopOnEvent_c, bvRecord_c]
  rw [foldl_keeps (fun s => s.c) _ (fun s m => by split <;> simp only [stopLater_c])]
  simp only [stopLater_c]
@[simp] theorem takeTrap_x (c x cls cause slot detail : Nat) (b : BitVec 32) (dn : BitVec 8) (own : List (Nat × Nat × Nat × Nat × Nat)) (sd : Nat → BitVec 8) :
    (takeTrap s c x cls cause slot detail b dn own sd).x = s.x := by
  unfold takeTrap
  simp only [postEvent_x, bvStopOnEvent_x, bvRecord_x]
  rw [foldl_keeps (fun s => s.x) _ (fun s m => by split <;> simp only [stopLater_x])]
  simp only [stopLater_x]
@[simp] theorem takeTrap_f (c x cls cause slot detail : Nat) (b : BitVec 32) (dn : BitVec 8) (own : List (Nat × Nat × Nat × Nat × Nat)) (sd : Nat → BitVec 8) :
    (takeTrap s c x cls cause slot detail b dn own sd).f = s.f := by
  unfold takeTrap
  simp only [postEvent_f, bvStopOnEvent_f, bvRecord_f]
  rw [foldl_keeps (fun s => s.f) _ (fun s m => by split <;> simp only [stopLater_f])]
  simp only [stopLater_f]
@[simp] theorem takeTrap_h (c x cls cause slot detail : Nat) (b : BitVec 32) (dn : BitVec 8) (own : List (Nat × Nat × Nat × Nat × Nat)) (sd : Nat → BitVec 8) :
    (takeTrap s c x cls cause slot detail b dn own sd).h = s.h := by
  unfold takeTrap
  simp only [postEvent_h, bvStopOnEvent_h, bvRecord_h]
  rw [foldl_keeps (fun s => s.h) _ (fun s m => by split <;> simp only [stopLater_h])]
  simp only [stopLater_h]
@[simp] theorem returnFromTrap_clusters (c x : Nat) (st : Bool) : (returnFromTrap s c x st).clusters = s.clusters := by
  unfold returnFromTrap; simp only []; split <;> rfl
@[simp] theorem returnFromTrap_creg (c x : Nat) (st : Bool) : (returnFromTrap s c x st).creg = s.creg := by
  unfold returnFromTrap; simp only []; split <;> rfl
@[simp] theorem returnFromTrap_cwords (c x : Nat) (st : Bool) : (returnFromTrap s c x st).cwords = s.cwords := by
  unfold returnFromTrap; simp only []; split <;> rfl
@[simp] theorem returnFromTrap_resp (c x : Nat) (st : Bool) : (returnFromTrap s c x st).resp = s.resp := by
  unfold returnFromTrap; simp only []; split <;> rfl
@[simp] theorem returnFromTrap_answers (c x : Nat) (st : Bool) : (returnFromTrap s c x st).answers = s.answers := by
  unfold returnFromTrap; simp only []; split <;> rfl
@[simp] theorem returnFromTrap_t (c x : Nat) (st : Bool) : (returnFromTrap s c x st).t = s.t := by
  unfold returnFromTrap; simp only []; split <;> rfl
@[simp] theorem returnFromTrap_c (c x : Nat) (st : Bool) : (returnFromTrap s c x st).c = s.c := by
  unfold returnFromTrap; simp only []; split <;> rfl
@[simp] theorem returnFromTrap_x (c x : Nat) (st : Bool) : (returnFromTrap s c x st).x = s.x := by
  unfold returnFromTrap; simp only []; split <;> rfl
@[simp] theorem returnFromTrap_f (c x : Nat) (st : Bool) : (returnFromTrap s c x st).f = s.f := by
  unfold returnFromTrap; simp only []; split <;> rfl
@[simp] theorem returnFromTrap_w (c x : Nat) (st : Bool) : (returnFromTrap s c x st).w = s.w := by
  unfold returnFromTrap; simp only []; split <;> rfl
@[simp] theorem returnFromTrap_d (c x : Nat) (st : Bool) : (returnFromTrap s c x st).d = s.d := by
  unfold returnFromTrap; simp only []; split <;> rfl
@[simp] theorem returnFromTrap_h (c x : Nat) (st : Bool) : (returnFromTrap s c x st).h = s.h := by
  unfold returnFromTrap; simp only []; split <;> rfl

/-! ## Results -/

@[simp] theorem postResult_clusters (c x lat : Nat) (d : Dst) (v : Wide) (fl : BitVec 6) (ld : Bool) (ue : Option (Nat × Nat × Nat)) : (postResult s c x lat d v fl ld ue).clusters = s.clusters := by
  unfold postResult; simp only []; split <;> rfl
@[simp] theorem postResult_creg (c x lat : Nat) (d : Dst) (v : Wide) (fl : BitVec 6) (ld : Bool) (ue : Option (Nat × Nat × Nat)) : (postResult s c x lat d v fl ld ue).creg = s.creg := by
  unfold postResult; simp only []; split <;> rfl
@[simp] theorem postResult_cwords (c x lat : Nat) (d : Dst) (v : Wide) (fl : BitVec 6) (ld : Bool) (ue : Option (Nat × Nat × Nat)) : (postResult s c x lat d v fl ld ue).cwords = s.cwords := by
  unfold postResult; simp only []; split <;> rfl
@[simp] theorem postResult_resp (c x lat : Nat) (d : Dst) (v : Wide) (fl : BitVec 6) (ld : Bool) (ue : Option (Nat × Nat × Nat)) : (postResult s c x lat d v fl ld ue).resp = s.resp := by
  unfold postResult; simp only []; split <;> rfl
@[simp] theorem postResult_answers (c x lat : Nat) (d : Dst) (v : Wide) (fl : BitVec 6) (ld : Bool) (ue : Option (Nat × Nat × Nat)) : (postResult s c x lat d v fl ld ue).answers = s.answers := by
  unfold postResult; simp only []; split <;> rfl
@[simp] theorem postResult_c (c x lat : Nat) (d : Dst) (v : Wide) (fl : BitVec 6) (ld : Bool) (ue : Option (Nat × Nat × Nat)) : (postResult s c x lat d v fl ld ue).c = s.c := by
  unfold postResult; simp only []; split <;> rfl
@[simp] theorem postResult_x (c x lat : Nat) (d : Dst) (v : Wide) (fl : BitVec 6) (ld : Bool) (ue : Option (Nat × Nat × Nat)) : (postResult s c x lat d v fl ld ue).x = s.x := by
  unfold postResult; simp only []; split <;> rfl
@[simp] theorem postResult_f (c x lat : Nat) (d : Dst) (v : Wide) (fl : BitVec 6) (ld : Bool) (ue : Option (Nat × Nat × Nat)) : (postResult s c x lat d v fl ld ue).f = s.f := by
  unfold postResult; simp only []; split <;> rfl
@[simp] theorem postResult_w (c x lat : Nat) (d : Dst) (v : Wide) (fl : BitVec 6) (ld : Bool) (ue : Option (Nat × Nat × Nat)) : (postResult s c x lat d v fl ld ue).w = s.w := by
  unfold postResult; simp only []; split <;> rfl
@[simp] theorem postResult_d (c x lat : Nat) (d : Dst) (v : Wide) (fl : BitVec 6) (ld : Bool) (ue : Option (Nat × Nat × Nat)) : (postResult s c x lat d v fl ld ue).d = s.d := by
  unfold postResult; simp only []; split <;> rfl
@[simp] theorem postResult_h (c x lat : Nat) (d : Dst) (v : Wide) (fl : BitVec 6) (ld : Bool) (ue : Option (Nat × Nat × Nat)) : (postResult s c x lat d v fl ld ue).h = s.h := by
  unfold postResult; simp only []; split <;> rfl
@[simp] theorem postResult_now (c x lat : Nat) (d : Dst) (v : Wide) (fl : BitVec 6) (ld : Bool) (ue : Option (Nat × Nat × Nat)) : (postResult s c x lat d v fl ld ue).t.now = s.t.now := by
  unfold postResult; simp only []; split <;> rfl
@[simp] theorem postResult_tbl (c x lat : Nat) (d : Dst) (v : Wide) (fl : BitVec 6) (ld : Bool) (ue : Option (Nat × Nat × Nat)) : (postResult s c x lat d v fl ld ue).t.tbl = s.t.tbl := by
  unfold postResult; simp only []; split <;> rfl
@[simp] theorem postResult_tbAt (c x lat : Nat) (d : Dst) (v : Wide) (fl : BitVec 6) (ld : Bool) (ue : Option (Nat × Nat × Nat)) : (postResult s c x lat d v fl ld ue).t.tbAt = s.t.tbAt := by
  unfold postResult; simp only []; split <;> rfl
@[simp] theorem postResult_fast (c x lat : Nat) (d : Dst) (v : Wide) (fl : BitVec 6) (ld : Bool) (ue : Option (Nat × Nat × Nat)) : (postResult s c x lat d v fl ld ue).t.fast = s.t.fast := by
  unfold postResult; simp only []; split <;> rfl
@[simp] theorem postResult_frozen (c x lat : Nat) (d : Dst) (v : Wide) (fl : BitVec 6) (ld : Bool) (ue : Option (Nat × Nat × Nat)) : (postResult s c x lat d v fl ld ue).t.frozen = s.t.frozen := by
  unfold postResult; simp only []; split <;> rfl
@[simp] theorem postResult_supplies (c x lat : Nat) (d : Dst) (v : Wide) (fl : BitVec 6) (ld : Bool) (ue : Option (Nat × Nat × Nat)) : (postResult s c x lat d v fl ld ue).t.supplies = s.t.supplies := by
  unfold postResult; simp only []; split <;> rfl
@[simp] theorem postResult_todo (c x lat : Nat) (d : Dst) (v : Wide) (fl : BitVec 6) (ld : Bool) (ue : Option (Nat × Nat × Nat)) : (postResult s c x lat d v fl ld ue).t.todo = s.t.todo := by
  unfold postResult; simp only []; split <;> rfl
@[simp] theorem postResult_phase (c x lat : Nat) (d : Dst) (v : Wide) (fl : BitVec 6) (ld : Bool) (ue : Option (Nat × Nat × Nat)) : (postResult s c x lat d v fl ld ue).t.phase = s.t.phase := by
  unfold postResult; simp only []; split <;> rfl
@[simp] theorem postResult_inputs (c x lat : Nat) (d : Dst) (v : Wide) (fl : BitVec 6) (ld : Bool) (ue : Option (Nat × Nat × Nat)) : (postResult s c x lat d v fl ld ue).t.inputs = s.t.inputs := by
  unfold postResult; simp only []; split <;> rfl
@[simp] theorem postResult_free (c x lat : Nat) (d : Dst) (v : Wide) (fl : BitVec 6) (ld : Bool) (ue : Option (Nat × Nat × Nat)) : (postResult s c x lat d v fl ld ue).t.free = s.t.free := by
  unfold postResult; simp only []; split <;> rfl
@[simp] theorem postResult_fcore (c x lat : Nat) (d : Dst) (v : Wide) (fl : BitVec 6) (ld : Bool) (ue : Option (Nat × Nat × Nat)) : (postResult s c x lat d v fl ld ue).t.fcore = s.t.fcore := by
  unfold postResult; simp only []; split <;> rfl
@[simp] theorem postResult_fqueue (c x lat : Nat) (d : Dst) (v : Wide) (fl : BitVec 6) (ld : Bool) (ue : Option (Nat × Nat × Nat)) : (postResult s c x lat d v fl ld ue).t.fqueue = s.t.fqueue := by
  unfold postResult; simp only []; split <;> rfl
@[simp] theorem postPending_clusters (c x : Nat) (d : Dst) (q : Nat) : (postPending s c x d q).clusters = s.clusters := by
  rfl
@[simp] theorem postPending_creg (c x : Nat) (d : Dst) (q : Nat) : (postPending s c x d q).creg = s.creg := by
  rfl
@[simp] theorem postPending_cwords (c x : Nat) (d : Dst) (q : Nat) : (postPending s c x d q).cwords = s.cwords := by
  rfl
@[simp] theorem postPending_resp (c x : Nat) (d : Dst) (q : Nat) : (postPending s c x d q).resp = s.resp := by
  rfl
@[simp] theorem postPending_answers (c x : Nat) (d : Dst) (q : Nat) : (postPending s c x d q).answers = s.answers := by
  rfl
@[simp] theorem postPending_c (c x : Nat) (d : Dst) (q : Nat) : (postPending s c x d q).c = s.c := by
  rfl
@[simp] theorem postPending_x (c x : Nat) (d : Dst) (q : Nat) : (postPending s c x d q).x = s.x := by
  rfl
@[simp] theorem postPending_f (c x : Nat) (d : Dst) (q : Nat) : (postPending s c x d q).f = s.f := by
  rfl
@[simp] theorem postPending_w (c x : Nat) (d : Dst) (q : Nat) : (postPending s c x d q).w = s.w := by
  rfl
@[simp] theorem postPending_d (c x : Nat) (d : Dst) (q : Nat) : (postPending s c x d q).d = s.d := by
  rfl
@[simp] theorem postPending_h (c x : Nat) (d : Dst) (q : Nat) : (postPending s c x d q).h = s.h := by
  rfl
@[simp] theorem postPending_now (c x : Nat) (d : Dst) (q : Nat) : (postPending s c x d q).t.now = s.t.now := by
  rfl
@[simp] theorem postPending_tbl (c x : Nat) (d : Dst) (q : Nat) : (postPending s c x d q).t.tbl = s.t.tbl := by
  rfl
@[simp] theorem postPending_tbAt (c x : Nat) (d : Dst) (q : Nat) : (postPending s c x d q).t.tbAt = s.t.tbAt := by
  rfl
@[simp] theorem postPending_fast (c x : Nat) (d : Dst) (q : Nat) : (postPending s c x d q).t.fast = s.t.fast := by
  rfl
@[simp] theorem postPending_frozen (c x : Nat) (d : Dst) (q : Nat) : (postPending s c x d q).t.frozen = s.t.frozen := by
  rfl
@[simp] theorem postPending_supplies (c x : Nat) (d : Dst) (q : Nat) : (postPending s c x d q).t.supplies = s.t.supplies := by
  rfl
@[simp] theorem postPending_todo (c x : Nat) (d : Dst) (q : Nat) : (postPending s c x d q).t.todo = s.t.todo := by
  rfl
@[simp] theorem postPending_phase (c x : Nat) (d : Dst) (q : Nat) : (postPending s c x d q).t.phase = s.t.phase := by
  rfl
@[simp] theorem postPending_inputs (c x : Nat) (d : Dst) (q : Nat) : (postPending s c x d q).t.inputs = s.t.inputs := by
  rfl
@[simp] theorem postPending_free (c x : Nat) (d : Dst) (q : Nat) : (postPending s c x d q).t.free = s.t.free := by
  rfl
@[simp] theorem postPending_fcore (c x : Nat) (d : Dst) (q : Nat) : (postPending s c x d q).t.fcore = s.t.fcore := by
  rfl
@[simp] theorem postPending_fqueue (c x : Nat) (d : Dst) (q : Nat) : (postPending s c x d q).t.fqueue = s.t.fqueue := by
  rfl

/-- A result changes one core only. -/
theorem postResult_other (c x lat : Nat) (d : Dst) (v : Wide) (fl : BitVec 6) (ld : Bool) (ue : Option (Nat × Nat × Nat))
    (c' : Nat) (h : c ≠ c') : getCore (postResult s c x lat d v fl ld ue) c' = getCore s c' := by
  unfold postResult; simp only []
  split
  · simp [h, modCtx, setCtx]
  · simp [h, modCtx, setCtx]

theorem postPending_other (c x : Nat) (d : Dst) (q c' : Nat) (h : c ≠ c') :
    getCore (postPending s c x d q) c' = getCore s c' := by
  unfold postPending
  simp [h, modCtx, setCtx]

/-! ## A bundle that does not issue -/

@[simp] theorem leaveSlot_clusters (c x : Nat) (st : CtxStatus) : (leaveSlot s c x st).clusters = s.clusters := by
  rfl
@[simp] theorem leaveSlot_creg (c x : Nat) (st : CtxStatus) : (leaveSlot s c x st).creg = s.creg := by
  rfl
@[simp] theorem leaveSlot_cwords (c x : Nat) (st : CtxStatus) : (leaveSlot s c x st).cwords = s.cwords := by
  rfl
@[simp] theorem leaveSlot_resp (c x : Nat) (st : CtxStatus) : (leaveSlot s c x st).resp = s.resp := by
  rfl
@[simp] theorem leaveSlot_answers (c x : Nat) (st : CtxStatus) : (leaveSlot s c x st).answers = s.answers := by
  rfl
@[simp] theorem leaveSlot_t (c x : Nat) (st : CtxStatus) : (leaveSlot s c x st).t = s.t := by
  rfl
@[simp] theorem leaveSlot_c (c x : Nat) (st : CtxStatus) : (leaveSlot s c x st).c = s.c := by
  rfl
@[simp] theorem leaveSlot_x (c x : Nat) (st : CtxStatus) : (leaveSlot s c x st).x = s.x := by
  rfl
@[simp] theorem leaveSlot_f (c x : Nat) (st : CtxStatus) : (leaveSlot s c x st).f = s.f := by
  rfl
@[simp] theorem leaveSlot_w (c x : Nat) (st : CtxStatus) : (leaveSlot s c x st).w = s.w := by
  rfl
@[simp] theorem leaveSlot_d (c x : Nat) (st : CtxStatus) : (leaveSlot s c x st).d = s.d := by
  rfl
@[simp] theorem leaveSlot_h (c x : Nat) (st : CtxStatus) : (leaveSlot s c x st).h = s.h := by
  rfl
@[simp] theorem holdBundle_clusters (c x n g : Nat) (l : List SlotOp) : (holdBundle s c x n g l).clusters = s.clusters := by
  rfl
@[simp] theorem holdBundle_creg (c x n g : Nat) (l : List SlotOp) : (holdBundle s c x n g l).creg = s.creg := by
  rfl
@[simp] theorem holdBundle_cwords (c x n g : Nat) (l : List SlotOp) : (holdBundle s c x n g l).cwords = s.cwords := by
  rfl
@[simp] theorem holdBundle_resp (c x n g : Nat) (l : List SlotOp) : (holdBundle s c x n g l).resp = s.resp := by
  rfl
@[simp] theorem holdBundle_answers (c x n g : Nat) (l : List SlotOp) : (holdBundle s c x n g l).answers = s.answers := by
  rfl
@[simp] theorem holdBundle_t (c x n g : Nat) (l : List SlotOp) : (holdBundle s c x n g l).t = s.t := by
  rfl
@[simp] theorem holdBundle_c (c x n g : Nat) (l : List SlotOp) : (holdBundle s c x n g l).c = s.c := by
  rfl
@[simp] theorem holdBundle_x (c x n g : Nat) (l : List SlotOp) : (holdBundle s c x n g l).x = s.x := by
  rfl
@[simp] theorem holdBundle_f (c x n g : Nat) (l : List SlotOp) : (holdBundle s c x n g l).f = s.f := by
  rfl
@[simp] theorem holdBundle_w (c x n g : Nat) (l : List SlotOp) : (holdBundle s c x n g l).w = s.w := by
  rfl
@[simp] theorem holdBundle_d (c x n g : Nat) (l : List SlotOp) : (holdBundle s c x n g l).d = s.d := by
  rfl
@[simp] theorem holdBundle_h (c x n g : Nat) (l : List SlotOp) : (holdBundle s c x n g l).h = s.h := by
  rfl
@[simp] theorem wakeDomain_clusters (c d : Nat) : (wakeDomain s c d).clusters = s.clusters := by
  unfold wakeDomain; split <;> rfl
@[simp] theorem wakeDomain_creg (c d : Nat) : (wakeDomain s c d).creg = s.creg := by
  unfold wakeDomain; split <;> rfl
@[simp] theorem wakeDomain_cwords (c d : Nat) : (wakeDomain s c d).cwords = s.cwords := by
  unfold wakeDomain; split <;> rfl
@[simp] theorem wakeDomain_resp (c d : Nat) : (wakeDomain s c d).resp = s.resp := by
  unfold wakeDomain; split <;> rfl
@[simp] theorem wakeDomain_answers (c d : Nat) : (wakeDomain s c d).answers = s.answers := by
  unfold wakeDomain; split <;> rfl
@[simp] theorem wakeDomain_c (c d : Nat) : (wakeDomain s c d).c = s.c := by
  unfold wakeDomain; split <;> rfl
@[simp] theorem wakeDomain_x (c d : Nat) : (wakeDomain s c d).x = s.x := by
  unfold wakeDomain; split <;> rfl
@[simp] theorem wakeDomain_f (c d : Nat) : (wakeDomain s c d).f = s.f := by
  unfold wakeDomain; split <;> rfl
@[simp] theorem wakeDomain_w (c d : Nat) : (wakeDomain s c d).w = s.w := by
  unfold wakeDomain; split <;> rfl
@[simp] theorem wakeDomain_d (c d : Nat) : (wakeDomain s c d).d = s.d := by
  unfold wakeDomain; split <;> rfl
@[simp] theorem wakeDomain_h (c d : Nat) : (wakeDomain s c d).h = s.h := by
  unfold wakeDomain; split <;> rfl
@[simp] theorem blockCtx_clusters (c x cause slot detail : Nat) : (blockCtx s c x cause slot detail).clusters = s.clusters := by
  unfold blockCtx; simp only [leaveSlot_clusters]; split <;> split <;> simp
@[simp] theorem blockCtx_creg (c x cause slot detail : Nat) : (blockCtx s c x cause slot detail).creg = s.creg := by
  unfold blockCtx; simp only [leaveSlot_creg]; split <;> split <;> simp
@[simp] theorem blockCtx_cwords (c x cause slot detail : Nat) : (blockCtx s c x cause slot detail).cwords = s.cwords := by
  unfold blockCtx; simp only [leaveSlot_cwords]; split <;> split <;> simp
@[simp] theorem blockCtx_resp (c x cause slot detail : Nat) : (blockCtx s c x cause slot detail).resp = s.resp := by
  unfold blockCtx; simp only [leaveSlot_resp]; split <;> split <;> simp
@[simp] theorem blockCtx_answers (c x cause slot detail : Nat) : (blockCtx s c x cause slot detail).answers = s.answers := by
  unfold blockCtx; simp only [leaveSlot_answers]; split <;> split <;> simp
@[simp] theorem blockCtx_c (c x cause slot detail : Nat) : (blockCtx s c x cause slot detail).c = s.c := by
  unfold blockCtx; simp only [leaveSlot_c]; split <;> split <;> simp
@[simp] theorem blockCtx_x (c x cause slot detail : Nat) : (blockCtx s c x cause slot detail).x = s.x := by
  unfold blockCtx; simp only [leaveSlot_x]; split <;> split <;> simp
@[simp] theorem blockCtx_f (c x cause slot detail : Nat) : (blockCtx s c x cause slot detail).f = s.f := by
  unfold blockCtx; simp only [leaveSlot_f]; split <;> split <;> simp
@[simp] theorem blockCtx_w (c x cause slot detail : Nat) : (blockCtx s c x cause slot detail).w = s.w := by
  unfold blockCtx; simp only [leaveSlot_w]; split <;> split <;> simp
@[simp] theorem blockCtx_d (c x cause slot detail : Nat) : (blockCtx s c x cause slot detail).d = s.d := by
  unfold blockCtx; simp only [leaveSlot_d]; split <;> split <;> simp
@[simp] theorem blockCtx_h (c x cause slot detail : Nat) : (blockCtx s c x cause slot detail).h = s.h := by
  unfold blockCtx; simp only [leaveSlot_h]; split <;> split <;> simp

/-- What a slot operation executed alone may answer: it stops only where no context runs; else it issues, is held, waits or
traps, and the answer is a next state. -/
theorem issueOne_cases (op : SlotOp) :
    ((getCore s s.t.fcore).running = none ∧ issueOne s op = .fault .noContext) ∨
    (∃ x, (getCore s s.t.fcore).running = some x ∧
      ((∃ rc, judge s s.t.fcore x [op] 0 = .go rc ∧ issueOne s op = .next (effects s s.t.fcore x [op] rc s)) ∨
       (∃ n g, judge s s.t.fcore x [op] 0 = .hold n g ∧ issueOne s op = .next (holdBundle s s.t.fcore x n g [op])) ∨
       (∃ a k b, judge s s.t.fcore x [op] 0 = .block a k b ∧ issueOne s op = .next (blockCtx s s.t.fcore x a k b)) ∨
       (∃ l a k b, judge s s.t.fcore x [op] 0 = .trap l a k b ∧
          issueOne s op = .next (takeTrap s s.t.fcore x l a k b (getCtx s s.t.fcore x).r.pc)))) := by
  unfold issueOne
  cases h : (getCore s s.t.fcore).running with
  | none => exact .inl ⟨rfl, rfl⟩
  | some x =>
    refine .inr ⟨x, rfl, ?_⟩
    simp only []
    cases hj : judge s s.t.fcore x [op] 0 with
    | go rc => exact .inl ⟨rc, rfl, rfl⟩
    | hold n g => exact .inr (.inl ⟨n, g, rfl, rfl⟩)
    | block a k b => exact .inr (.inr (.inl ⟨a, k, b, rfl, rfl⟩))
    | trap l a k b => exact .inr (.inr (.inr ⟨l, a, k, b, rfl, rfl⟩))

/-- An operation alone in its bundle has its effect by its guard and nothing more. -/
theorem effects_one (c x : Nat) (op : SlotOp) (rc : List Nat) (s1 : State) :
    effects s c x [op] rc s1 = effOf (envOf s c x [op] rc) s1 op := rfl

end Sys2Proof.Laws
end

