-- ==== Sys2Proof/Machine/BrasmText.lean ====
section
/-! DEFINITION. Source text of the assembler brasm: lines, tokens, expressions and symbols (R229, R232). An error carries the
number of the rule that it breaks (R237). -/

namespace Sys2Proof.Machine.Brasm

/-- What a part of the assembler gives: a result, or the rule broken. -/
abbrev R (α : Type) := Except Nat α

/-- A diagnostic: the line and the rule (R237). -/
structure Diag where
  line : Nat
  rule : Nat
  deriving DecidableEq, Repr

/-- Attach a line to an error. -/
def atLine {α : Type} (n : Nat) : R α → Except Diag α
  | .ok a => .ok a
  | .error r => .error { line := n, rule := r }

/-! ## Lines (R229) -/

/-- The lines of a text. -/
def splitLines : List Char → List (List Char)
  | [] => [[]]
  | c :: cs => match splitLines cs with
    | [] => [[c]]
    | l :: ls => if c = '\n' then [] :: l :: ls else (c :: l) :: ls

/-- A line without its comment: `;` or `//` starts one. -/
def dropComment : List Char → List Char
  | [] => []
  | c :: cs =>
    if c = ';' then []
    else if c = '/' && cs.head? = some '/' then []
    else c :: dropComment cs

def isBlank (c : Char) : Bool := c = ' ' || c = '\t' || c = '\r'

/-- A line without the blanks at its end. -/
def trimEnd (l : List Char) : List Char := (l.reverse.dropWhile isBlank).reverse

/-- Join each line that ends in `&` with the next; each result carries the number of its first line. -/
def joinLines : Nat → List (List Char) → List (Nat × List Char)
  | _, [] => []
  | n, l :: ls =>
    let t := trimEnd (dropComment l)
    if t.getLast? = some '&' then
      match joinLines (n + 1) ls with
      | [] => [(n, t.dropLast)]
      | (_, u) :: r => (n, t.dropLast ++ ' ' :: u) :: r
    else (n, t) :: joinLines (n + 1) ls

/-! ## Tokens -/

/-- A token: a number; a name; a name after a dot that follows a name or a bracket directly, a suffix; a name after a free dot, a
directive; the dot alone, the current location; any other sign. -/
inductive Tok where
  | num (v : Nat)
  | word (s : String)
  | sfx (s : String)
  | dir (s : String)
  | dot
  | sign (s : String)
  deriving DecidableEq, Repr

def isNameChar (c : Char) : Bool := c.isAlphanum || c = '_'
def isNameStart (c : Char) : Bool := c.isAlpha || c = '_'

/-- Names without case (R229). -/
def lower (s : String) : String := String.ofList (s.toList.map Char.toLower)

/-- A digit in any base up to 16. -/
def digitOf (c : Char) : Option Nat :=
  if '0' ≤ c ∧ c ≤ '9' then some (c.toNat - 48)
  else if 'a' ≤ c ∧ c ≤ 'f' then some (c.toNat - 87)
  else if 'A' ≤ c ∧ c ≤ 'F' then some (c.toNat - 55)
  else none

/-- Digits in a base, underscores ignored; none where a sign is no digit of the base. -/
def digits (base : Nat) : Nat → List Char → Option Nat
  | v, [] => some v
  | v, c :: cs =>
    if c = '_' then digits base v cs
    else match digitOf c with
      | some d => if d < base then digits base (v * base + d) cs else none
      | none => none

/-- A number: decimal, 0x or 0b, with underscores between digits (R232). A value of 65 bits or more is no 64-bit integer. -/
def numberOf (l : List Char) : Option Nat :=
  let body (base : Nat) (cs : List Char) : Option Nat :=
    if cs = [] ∨ cs.head? = some '_' ∨ cs.getLast? = some '_' then none else digits base 0 cs
  let v := match l with
    | '0' :: 'x' :: cs => body 16 cs
    | '0' :: 'X' :: cs => body 16 cs
    | '0' :: 'b' :: cs => body 2 cs
    | '0' :: 'B' :: cs => body 2 cs
    | _ => body 10 l
  v.filter (· < 2 ^ 64)

/-- The tokens of a line. `adj` tells whether the last character belonged to a name, number or closing bracket; the first argument
bounds the work by the length of the line. -/
def lex : Nat → Bool → List Char → R (List Tok)
  | 0, _, _ => .ok []
  | _, _, [] => .ok []
  | n + 1, adj, c :: cs =>
    if isBlank c then lex n false cs
    else if isNameStart c then
      let w := (c :: cs).takeWhile isNameChar
      (lex n true ((c :: cs).dropWhile isNameChar)).map (Tok.word (String.ofList w) :: ·)
    else if c.isDigit then
      match numberOf ((c :: cs).takeWhile isNameChar) with
      | some v => (lex n true ((c :: cs).dropWhile isNameChar)).map (Tok.num v :: ·)
      | none => .error 232
    else if c = '.' then
      match cs with
      | d :: ds =>
        if d = '.' then (lex n false ds).map (Tok.sign ".." :: ·)
        else if isNameStart d then
          let w := String.ofList (cs.takeWhile isNameChar)
          (lex n true (cs.dropWhile isNameChar)).map ((if adj then Tok.sfx w else Tok.dir w) :: ·)
        else (lex n false cs).map (Tok.dot :: ·)
      | [] => .ok [.dot]
    else if (c = '<' || c = '>') && cs.head? = some c then
      (lex n false cs.tail).map (Tok.sign (String.ofList [c, c]) :: ·)
    else if "()|,:+-*/%&^~!=".toList.contains c then
      (lex n (c = ')') cs).map (Tok.sign (String.ofList [c]) :: ·)
    else .error 229

/-- Split at a sign outside brackets; a `|` inside brackets is an operator (R229). -/
def splitTop (sep : String) : Nat → List Tok → List (List Tok)
  | _, [] => [[]]
  | d, t :: ts =>
    let d' := if t = .sign "(" then d + 1 else if t = .sign ")" then d - 1 else d
    if d = 0 && t = .sign sep then [] :: splitTop sep 0 ts
    else match splitTop sep d' ts with
      | [] => [[t]]
      | l :: ls => (t :: l) :: ls

/-- Operands, separated by commas; no token at all is no operand. -/
def operandsIn (ts : List Tok) : List (List Tok) := if ts = [] then [] else splitTop "," 0 ts

/-- The tokens inside a bracket that has been opened, and those after it. -/
def inBracket : Nat → List Tok → Option (List Tok × List Tok)
  | _, [] => none
  | d, t :: ts =>
    if t = .sign ")" && d = 0 then some ([], ts)
    else
      let d' := if t = .sign "(" then d + 1 else if t = .sign ")" then d - 1 else d
      (inBracket d' ts).map (fun r => (t :: r.1, r.2))

/-! ## Registers -/

/-- The register files and their sizes (R182, R199). -/
def files : List (String × Nat) :=
  [("s", 64), ("x", 64), ("y", 64), ("p", 16), ("a", 16), ("b", 16), ("c", 16), ("k", 8), ("j", 8), ("acc", 4), ("q", 16)]

/-- A file name followed by a decimal index, whatever the size of the file. -/
def indexed (s : String) : Option (String × Nat) :=
  let l := (lower s).toList
  let f := l.takeWhile Char.isAlpha
  let d := l.dropWhile Char.isAlpha
  if d = [] || !d.all Char.isDigit || (d.length > 1 && d.head? = some '0') then none
  else (digits 10 0 d).map (fun n => (String.ofList f, n))

/-- A register name (R6). -/
def regName (s : String) : Option (String × Nat) :=
  (indexed s).filter (fun r => files.any (fun f => f.1 = r.1 && r.2 < f.2))

/-- An operand that is one register name. -/
def regOf : List Tok → Option (String × Nat)
  | [.word s] => regName s
  | _ => none

/-! ## Expressions (R232) -/

/-- An expression. -/
inductive Ex where
  | lit (v : Nat)
  | loc
  | name (s : String)
  | neg (e : Ex)
  | cpl (e : Ex)
  | bin (op : String) (l r : Ex)
  deriving DecidableEq, Repr

/-- How strongly a binary operator binds; 0 for any other sign. -/
def levelOf (s : String) : Nat :=
  if s = "|" then 1 else if s = "^" then 2 else if s = "&" then 3 else if s = "<<" || s = ">>" then 4
  else if s = "+" || s = "-" then 5 else if s = "*" || s = "/" || s = "%" then 6 else 0

mutual
/-- An expression whose operators bind at least at a level; 7 is an operand with its signs. -/
def exAt : Nat → Nat → List Tok → Option (Ex × List Tok)
  | 0, _, _ => none
  | n + 1, l, ts =>
    if l ≥ 7 then
      match ts with
      | .num v :: r => some (.lit v, r)
      | .dot :: r => some (.loc, r)
      | .word s :: r => some (.name s, r)
      | .sign s :: r =>
        if s = "-" then (exAt n 7 r).map (fun p => (.neg p.1, p.2))
        else if s = "~" then (exAt n 7 r).map (fun p => (.cpl p.1, p.2))
        else if s = "(" then
          match exAt n 1 r with
          | some (e, .sign ")" :: r) => some (e, r)
          | _ => none
        else none
      | _ => none
    else
      match exAt n (l + 1) ts with
      | some (e, r) => exTail n l e r
      | none => none
/-- The rest of a row of operators of one level, joined from the left. -/
def exTail : Nat → Nat → Ex → List Tok → Option (Ex × List Tok)
  | 0, _, _, _ => none
  | n + 1, l, e, ts =>
    match ts with
    | .sign s :: r =>
      if levelOf s = l then
        match exAt n (l + 1) r with
        | some (f, r) => exTail n l (.bin s e f) r
        | none => none
      else some (e, ts)
    | _ => some (e, ts)
end

/-- A whole operand as an expression. -/
def exOf (ts : List Tok) : R Ex :=
  match exAt (16 * ts.length + 16) 1 ts with
  | some (e, []) => .ok e
  | _ => .error 232

/-- A 64-bit two's complement integer. -/
def s64 (v : Int) : Int := (BitVec.ofInt 64 v).toInt

/-- A binary operator on 64-bit integers: `/` and `%` truncate toward zero, `>>` is arithmetic. A negative count shifts nothing
that the manual states. -/
def binOp (op : String) (a b : Int) : R Int :=
  if op = "+" then .ok (s64 (a + b)) else if op = "-" then .ok (s64 (a - b)) else if op = "*" then .ok (s64 (a * b))
  else if op = "/" then if b = 0 then .error 232 else .ok (s64 (a.tdiv b))
  else if op = "%" then if b = 0 then .error 232 else .ok (s64 (a.tmod b))
  else if op = "<<" then if b < 0 then .error 232 else .ok (s64 (a * 2 ^ (min b.toNat 64)))
  else if op = ">>" then if b < 0 then .error 232 else .ok (a.fdiv (2 ^ (min b.toNat 63)))
  else
    let x := BitVec.ofInt 64 a
    let y := BitVec.ofInt 64 b
    if op = "&" then .ok (x &&& y).toInt else if op = "^" then .ok (x ^^^ y).toInt else .ok (x ||| y).toInt

/-- What a name stands for. A `.tensor` may name what follows it, so its expression is kept with the location. -/
inductive SymVal where
  | const (v : Int)
  /-- a label with the kernel it lies in -/
  | label (v : Int) (kernel : Option Nat)
  | later (e : Ex) (loc : Int)
  deriving DecidableEq, Repr

/-- The symbols defined, latest first. -/
abbrev Syms := List (String × SymVal)

def symOf (y : Syms) (s : String) : Option SymVal := (y.find? (fun p => p.1 = s)).map (·.2)

/-- The value of an expression at a location, with the values of names. -/
def evalEx (look : String → R Int) (loc : Int) : Ex → R Int
  | .lit v => .ok (s64 v)
  | .loc => .ok loc
  | .neg e => (evalEx look loc e).map (fun v => s64 (-v))
  | .cpl e => (evalEx look loc e).map (fun v => s64 (-v - 1))
  | .bin op l r => do
    let a ← evalEx look loc l
    let b ← evalEx look loc r
    binOp op a b
  | .name s => look s

/-- The value of a name; the first argument bounds the chain of names that stand for expressions. -/
def valueOf (y : Syms) : Nat → String → R Int
  | 0, _ => .error 232
  | n + 1, s => match symOf y s with
    | some (.const v) => .ok v
    | some (.label v _) => .ok v
    | some (.later e loc) => evalEx (valueOf y n) loc e
    | none => .error 232

/-- The names in an expression. -/
def namesIn : Ex → List String
  | .name s => [s]
  | .neg e => namesIn e
  | .cpl e => namesIn e
  | .bin _ l r => namesIn l ++ namesIn r
  | _ => []

/-- Whether an expression uses the current location. -/
def usesLoc : Ex → Bool
  | .loc => true
  | .neg e => usesLoc e
  | .cpl e => usesLoc e
  | .bin _ l r => usesLoc l || usesLoc r
  | _ => false

/-- Where an expression is evaluated: the location, the symbols, the kernel around it. -/
structure Cx where
  loc : Int
  syms : Syms
  kernel : Option Nat := none

def Cx.eval (c : Cx) (ts : List Tok) : R Int := do
  let e ← exOf ts
  evalEx (valueOf c.syms (c.syms.length + 1)) c.loc e

/-- An operand in a range: a value outside it is an error, never cut (R232). -/
def Cx.num (c : Cx) (lo hi : Int) (ts : List Tok) : R Int := do
  let v ← c.eval ts
  if lo ≤ v ∧ v ≤ hi then .ok v else .error 232

/-- Likewise, as a field of `w` bits. -/
def Cx.field (c : Cx) (lo hi : Int) (w : Nat) (ts : List Tok) : R Nat :=
  (c.num lo hi ts).map (fun v => (BitVec.ofInt w v).toNat)

end Sys2Proof.Machine.Brasm
end

