-- ==== Sys2Proof/Machine/BrasmOps.lean ====
section
/-! DEFINITION. Slot operations in brasm's source: guards, suffixes and operands of every mnemonic, the slot that each takes and
its word (R230, R231, R233, R239 to R265, R268 to R285, R291, R304, R333). -/

namespace Sys2Proof.Machine.Brasm

/-- Where an operation may stand: a position, or C0 else C1 (R231). -/
inductive Place where
  | at_ (pos : Nat)
  | c0OrC1
  deriving DecidableEq, Repr

/-- An operation encoded: its place, opcode and operand bits. -/
structure Enc where
  place : Place
  op : Nat
  x : Nat
  deriving DecidableEq, Repr

/-! ## Operands -/

/-- A register of one of some files (R231). -/
def regIn (fs : List String) (ts : List Tok) : R (String × Nat) :=
  match regOf ts with
  | some r => if fs.contains r.1 then .ok r else .error 231
  | none => .error 231
def sReg (ts : List Tok) : R Nat := (regIn ["s"] ts).map (·.2)
def pReg (ts : List Tok) : R Nat := (regIn ["p"] ts).map (·.2)
def cReg (ts : List Tok) : R Nat := (regIn ["c"] ts).map (·.2)
/-- An x or y register: its file as 0 or 1, and its number. -/
def xyReg (ts : List Tok) : R (Nat × Nat) := (regIn ["x", "y"] ts).map (fun r => (if r.1 = "y" then 1 else 0, r.2))
/-- An a or b register: its slot as 0 or 1, and its number. -/
def abReg (ts : List Tok) : R (Nat × Nat) := (regIn ["a", "b"] ts).map (fun r => (if r.1 = "b" then 1 else 0, r.2))
/-- A k or j mask. -/
def kjReg (ts : List Tok) : R (Nat × Nat) := (regIn ["k", "j"] ts).map (fun r => (if r.1 = "j" then 1 else 0, r.2))
/-- An accumulator (R291). -/
def accReg (ts : List Tok) : R Nat := (regIn ["acc"] ts).map (·.2)
/-- A register of the slot's own file. -/
def sameFile (f : Nat) (r : R (Nat × Nat)) : R Nat := do
  let v ← r
  if v.1 = f then .ok v.2 else .error 231
/-- A box quad, named by its first register (R231). -/
def quad (ts : List Tok) : R (Nat × Nat) := do
  let v ← abReg ts
  if v.2 % 4 = 0 then .ok (v.1, v.2 / 4) else .error 231
/-- A keyword, whatever its case. -/
def keyword (table : List (String × Nat)) : List Tok → R Nat
  | [.word s] => match table.find? (fun p => p.1 = lower s) with
    | some p => .ok p.2
    | none => .error 230
  | _ => .error 230

/-! ## Suffixes (R230) -/

/-- The next suffix, out of a table. -/
def takeSfx (table : List (String × Nat)) : List String → R (Nat × List String)
  | s :: l => match table.find? (fun p => p.1 = s) with
    | some p => .ok (p.2, l)
    | none => .error 230
  | [] => .error 230
/-- A suffix that may be absent. -/
def optSfx (table : List (String × Nat)) (d : Nat) (l : List String) : Nat × List String :=
  match l with
  | s :: r => match table.find? (fun p => p.1 = s) with
    | some p => (p.2, r)
    | none => (d, l)
  | [] => (d, [])
/-- No suffix is left. -/
def noSfx (l : List String) : R Unit := if l = [] then .ok () else .error 230

def number (l : List String) : List (String × Nat) := l.zip (List.range l.length)
def tyFull : List (String × Nat) := number ["i8", "i16", "i32", "n8", "n16", "n32", "f16", "b16", "f32"]
def tyArith : List (String × Nat) := number ["i8", "i16", "i32", "f16", "b16", "f32"]
def tySat : List (String × Nat) := number ["i8", "i16", "i32", "n8", "n16", "n32"]
def tyWidth : List (String × Nat) :=
  [("i8", 0), ("n8", 0), ("i16", 1), ("n16", 1), ("f16", 1), ("b16", 1), ("i32", 2), ("n32", 2), ("f32", 2)]
def tyAbs : List (String × Nat) := [("i8", 0), ("i16", 1), ("i32", 2), ("f16", 6), ("b16", 7), ("f32", 8)]
def tyScl : List (String × Nat) := number ["f16", "b16", "f32"]
def tyCvt : List (String × Nat) := number ["i8", "i16", "i32", "n8", "n16", "f16", "b16", "f32"]
def tyF : List (String × Nat) := number ["f32", "f16", "b16"]
def rmodes : List (String × Nat) := number ["rn", "rz", "ru", "rd"]
def hints : List (String × Nat) := [("na", 1), ("by", 2)]
def widths : List (String × Nat) := number ["w8", "w16", "w32", "w64"]
def cmpModes : List (String × Nat) := [("and", 1), ("or", 2), ("u", 3)]
def scopes : List (String × Nat) := number ["core", "cl", "dev", "sys"]
def cells : List (String × Nat) := number ["mad", "ada", "csl"]

/-- Operand bits d, a, b of six bits each. -/
def rrr (d a b : Nat) : Nat := d * 4096 + a * 64 + b

/-! ## S slot (R239 to R249) -/

def intNames : List String :=
  ["add", "sub", "and", "or", "xor", "andn", "shl", "shr", "sar", "mul", "mulh", "mulhn", "div", "divn", "rem", "remn", "min",
   "max", "minn", "maxn"]

/-- The immediate forms: opcode and range (R241). -/
def immForms : List (String × Nat × Int × Int) :=
  [("add", 0x15, -32, 31), ("and", 0x16, -32, 31), ("or", 0x17, -32, 31), ("xor", 0x18, -32, 31), ("shl", 0x19, 0, 63),
   ("shr", 0x1A, 0, 63), ("sar", 0x1B, 0, 63)]

/-- ADD to MAXN, with a register or an immediate; `sub` with an immediate is ADD of its negative (R239, R241). -/
def encInt (c : Cx) (m : String) (ops : List (List Tok)) : R Enc :=
  match ops with
  | [d, a, b] => do
    let d ← sReg d
    let a ← sReg a
    match regOf b with
    | some _ =>
      let b ← sReg b
      .ok ⟨.at_ 0, 1 + intNames.idxOf m, rrr d a b⟩
    | none =>
      if m = "sub" then
        let v ← c.num (-31) 32 b
        .ok ⟨.at_ 0, 0x15, rrr d a (BitVec.ofInt 6 (-v)).toNat⟩
      else match immForms.find? (fun f => f.1 = m) with
        | some (_, op, lo, hi) =>
          let i ← c.field lo hi 6 b
          .ok ⟨.at_ 0, op, rrr d a i⟩
        | none => .error 230
  | _ => .error 230

/-- SETW, SEXT, CLZ, POPC (R242). -/
def encBits (c : Cx) (m : String) (sf : List String) (ops : List (List Tok)) : R Enc :=
  if m = "setw" then
    match ops with
    | [d, i, k] => do
      noSfx sf
      let d ← sReg d
      let k ← c.field 0 5 3 k
      let i ← c.field 0 (if k = 5 then 15 else 4095) 12 i
      .ok ⟨.at_ 0, 0x1C + k, d * 4096 + i⟩
    | _ => .error 230
  else match ops with
    | [d, a] => do
      let d ← sReg d
      let a ← sReg a
      if m = "sext" then
        let (t, sf) ← takeSfx (number ["i8", "i16", "i32"]) sf
        noSfx sf
        .ok ⟨.at_ 0, 0x22, rrr d a t⟩
      else
        noSfx sf
        .ok ⟨.at_ 0, if m = "clz" then 0x23 else 0x24, rrr d a 0⟩
    | _ => .error 230

/-- CMP and FCMP (R243, R245). -/
def encCmp (c : Cx) (m : String) (sf : List String) (ops : List (List Tok)) : R Enc := do
  let (cc, sf) ← takeSfx (number (if m = "cmp" then ["eq", "ne", "lt", "le", "ltn", "len"] else ["eq", "lt", "le"])) sf
  let (t, sf) ← if m = "cmp" then .ok (0, sf) else takeSfx tyF sf
  let (md, sf) := optSfx cmpModes 0 sf
  noSfx sf
  match ops with
  | [p, a, b] =>
    let p ← pReg p
    let a ← sReg a
    let w (b : Nat) : Nat := p * 2 ^ 14 + md * 2 ^ 12 + a * 64 + b
    if m = "cmp" then
      match regOf b with
      | some _ =>
        let b ← sReg b
        .ok ⟨.at_ 0, 0x25 + cc, w b⟩
      | none =>
        let i ← if cc ≥ 4 then c.field 0 63 6 b else c.field (-32) 31 6 b
        .ok ⟨.at_ 0, 0x2B + cc, w i⟩
    else
      let b ← sReg b
      .ok ⟨.at_ 0, 0x43 + 3 * cc + t, w b⟩
  | _ => .error 230

def fpNames : List String := ["fadd", "fsub", "fmul", "ffma", "fmin", "fmax"]

/-- FADD to FMAX (R244). -/
def encFp (m : String) (sf : List String) (ops : List (List Tok)) : R Enc := do
  let (t, sf) ← takeSfx tyF sf
  noSfx sf
  match ops with
  | [d, a, b] =>
    let d ← sReg d
    let a ← sReg a
    let b ← sReg b
    .ok ⟨.at_ 0, 0x31 + 3 * fpNames.idxOf m + t, rrr d a b⟩
  | _ => .error 230

/-- FCVT, ITOF and FTOI (R246): the rounding suffix may stand before or after the types. -/
def encCvt (m : String) (sf : List String) (ops : List (List Tok)) : R Enc := do
  let rm := ((sf.filterMap (fun s => rmodes.find? (fun p => p.1 = s))).head?.map (·.2)).getD 0
  let ty := sf.filter (fun s => !rmodes.any (fun p => p.1 = s))
  let lead := sf.head?.any (fun s => rmodes.any (fun p => p.1 = s))
  let tail := sf.getLast?.any (fun s => rmodes.any (fun p => p.1 = s))
  if ty.length + 1 < sf.length ∨ (ty.length < sf.length ∧ !lead ∧ !tail) then .error 230
  else
    let e : Nat × Nat × Nat ←
      if m = "fcvt" then do
        let (y, sf) ← takeSfx tyF ty
        let (x, sf) ← takeSfx tyF sf
        noSfx sf
        .ok (0x4C, x, y)
      else if m = "itof" then do
        let (y, sf) ← takeSfx tyF ty
        let (u, sf) := optSfx [("n64", 2)] 0 sf
        noSfx sf
        .ok (0x4D, u, y)
      else do
        let (y, sf) ← takeSfx (number ["i8", "i16", "i32", "i64", "n8", "n16", "n32", "n64"]) ty
        let (x, sf) ← takeSfx tyF sf
        noSfx sf
        .ok (0x4E + y / 4, x, y % 4)
    match ops with
    | [d, a] =>
      let d ← sReg d
      let a ← sReg a
      .ok ⟨.at_ 0, e.1, d * 4096 + a * 64 + rm * 16 + e.2.1 * 4 + e.2.2⟩
    | _ => .error 230

/-- PAND to PMOV and PNOT (R247). -/
def encPred (m : String) (sf : List String) (ops : List (List Tok)) : R Enc := do
  noSfx sf
  let w (sub p a b : Nat) : Enc := ⟨.at_ 0, 0x50, p * 2 ^ 14 + a * 2 ^ 8 + sub * 16 + b⟩
  match ops with
  | [p, a] =>
    let p ← pReg p
    let a ← pReg a
    if m = "pmov" then .ok (w 4 p a 0) else if m = "pnot" then .ok (w 3 p 0 a) else .error 230
  | [p, a, b] =>
    let p ← pReg p
    let a ← pReg a
    let b ← pReg b
    if m = "pmov" || m = "pnot" then .error 230 else .ok (w (["pand", "por", "pxor", "pandn"].idxOf m) p a b)
  | _ => .error 230

/-- The numbers of the special registers by name (R35, R201). -/
def specials : List (String × Nat) :=
  [("ctxid", 0x000), ("rank", 0x001), ("gsize", 0x002), ("vfbx", 0x003), ("vfby", 0x004), ("fpstat", 0x005), ("lcnt", 0x006),
   ("vcount", 0x007), ("donemask", 0x008), ("olcnt", 0x009), ("rsdepth", 0x00A), ("ldepth", 0x00B), ("vpwrx", 0x00C),
   ("vpwry", 0x00D), ("jobflg", 0x00E), ("vpwrsel", 0x00F), ("thrl", 0x100), ("cplfree", 0x101), ("xbstat", 0x102),
   ("xdrift", 0x103), ("monlim", 0x104), ("monper", 0x105), ("waypart", 0x200), ("cmap", 0x201), ("cmapn", 0x202)]

/-- Whether a name is that of a special register. -/
def isSpecial (s : String) : Bool :=
  specials.any (fun p => p.1 = lower s) || (match indexed s with
    | some ("xctl", n) => decide (n < 64)
    | _ => false)

/-- A special register by name or number (R249). -/
def special (c : Cx) (ts : List Tok) : R Nat :=
  match ts with
  | [.word s] =>
    match specials.find? (fun p => p.1 = lower s), indexed s with
    | some p, _ => .ok p.2
    | none, some ("xctl", n) => if n < 64 then .ok (0x180 + n) else c.field 0 4095 12 ts
    | none, _ => c.field 0 4095 12 ts
  | _ => c.field 0 4095 12 ts

/-- SEL, MOVA, MFS and MTS (R248, R249). -/
def encMove (c : Cx) (m : String) (sf : List String) (ops : List (List Tok)) : R Enc := do
  noSfx sf
  match ops with
  | [d, a, b] =>
    let d ← sReg d
    let a ← sReg a
    let b ← sReg b
    if m = "sel" then .ok ⟨.at_ 0, 0x51, rrr d a b⟩ else .error 230
  | [d, a] =>
    if m = "mova" then
      let d ← sReg d
      let (f, r) ← abReg a
      .ok ⟨.at_ 0, 0x52, d * 4096 + f * 16 + r⟩
    else if m = "mfs" then
      let d ← sReg d
      let n ← special c a
      .ok ⟨.at_ 0, 0x53, d * 4096 + n⟩
    else if m = "mts" then
      let n ← special c d
      let s ← sReg a
      .ok ⟨.at_ 0, 0x54, s * 4096 + n⟩
    else .error 230
  | _ => .error 230

/-! ## V slots (R268 to R285) -/

/-- The slot that a file's V operation takes: V0 for x and k, V1 for y and j (R231). -/
def vPlace (f : Nat) : Place := .at_ (1 + f)

/-- Operations with a type and three registers: opcode base and types. -/
def vTyped : List (String × Nat × List (String × Nat)) :=
  [("vadd", 0x55, tyArith), ("vsub", 0x5B, tyArith), ("vmul", 0x61, tyArith), ("vfma", 0x67, tyArith), ("vmin", 0x6D, tyFull),
   ("vmax", 0x76, tyFull), ("vsadd", 0x7F, tySat), ("vssub", 0x85, tySat), ("vshl", 0x94, tyWidth), ("vshr", 0x97, tyWidth),
   ("vsar", 0x9A, tyWidth), ("vscl", 0xB4, tyScl), ("vand", 0xA6, []), ("vor", 0xA7, []), ("vxor", 0xA8, []), ("vperm", 0xAA, []),
   ("vdq", 0xBF, [])]

/-- Three vector registers of one file. -/
def enc3V (op : Nat) (ops : List (List Tok)) : R Enc :=
  match ops with
  | [d, a, b] => do
    let (f, d) ← xyReg d
    let a ← sameFile f (xyReg a)
    let b ← sameFile f (xyReg b)
    .ok ⟨vPlace f, op, rrr d a b⟩
  | _ => .error 230

/-- VCMP: `.gt` and `.ge` are `.lt` and `.le` with a and b exchanged (R268, R273). -/
def encVcmp (sf : List String) (ops : List (List Tok)) : R Enc := do
  let (cc, sf) ← takeSfx (number ["eq", "ne", "lt", "le", "gt", "ge"]) sf
  let (t, sf) ← takeSfx tyFull sf
  noSfx sf
  match ops with
  | [d, a, b] =>
    let (f, d) ← kjReg d
    let a ← sameFile f (xyReg a)
    let b ← sameFile f (xyReg b)
    let (cnd, a, b) := if cc ≥ 4 then (cc - 2, b, a) else (cc, a, b)
    .ok ⟨vPlace f, 0x8B + t, d * 2 ^ 15 + cnd * 4096 + a * 64 + b⟩
  | _ => .error 230

/-- Operations of one source whose TY field holds the type: opcode, types, and whether the source is an s register. -/
def vUnary : List (String × Nat × List (String × Nat) × Bool) :=
  [("vreds", 0x9D, tyFull, false), ("vredm", 0x9E, tyFull, false), ("vredn", 0x9F, tyFull, false), ("vabs", 0xA0, tyAbs, false),
   ("vneg", 0xA1, tyAbs, false), ("vsplat", 0xA2, tyFull, true), ("vexp2", 0xB0, [("f32", 0)], false),
   ("vlog2", 0xB1, [("f32", 0)], false), ("vrcp", 0xB2, [("f32", 0)], false), ("vrsq", 0xB3, [("f32", 0)], false)]

def encVun (op : Nat) (tys : List (String × Nat)) (scalar : Bool) (sf : List String) (ops : List (List Tok)) : R Enc := do
  let (t, sf) ← if tys.length = 1 then .ok (optSfx tys 0 sf) else takeSfx tys sf
  noSfx sf
  match ops with
  | [d, a] =>
    let (f, d) ← xyReg d
    let a ← if scalar then sReg a else sameFile f (xyReg a)
    .ok ⟨vPlace f, op, rrr d a t⟩
  | _ => .error 230

def kopNames : List (String × Nat) := number ["and", "or", "xor", "andn", "not", "mov"]

/-- KOP (R275). -/
def encKop (sf : List String) (ops : List (List Tok)) : R Enc := do
  let (k, sf) ← takeSfx kopNames sf
  noSfx sf
  match ops with
  | d :: a :: r =>
    let (f, d) ← kjReg d
    let a ← sameFile f (kjReg a)
    let b ← match r with
      | [] => if k ≥ 4 then .ok 0 else .error 230
      | [b] => if k < 4 then sameFile f (kjReg b) else .error 230
      | _ => .error 230
    .ok ⟨vPlace f, 0xAF, k * 2 ^ 15 + d * 4096 + a * 64 + b⟩
  | _ => .error 230

/-- The other V operations: VSET, VSEL, VROT, XFER, VTEST, VFRAME, VCVT, VQMX (R272 to R285). -/
def encVother (c : Cx) (m : String) (sf : List String) (ops : List (List Tok)) : R Enc := do
  if m = "vset" then
    let (w, sf) ← takeSfx tyWidth sf
    noSfx sf
    match ops with
    | [d, i] =>
      let (f, d) ← xyReg d
      let v ← if w = 0 then c.num (-128) 255 i else c.num (-2048) 2047 i
      let v := if w = 0 ∧ v > 127 then v - 256 else v
      .ok ⟨vPlace f, 0xA3 + w, d * 4096 + (BitVec.ofInt 12 v).toNat⟩
    | _ => .error 230
  else if m = "vcvt" then
    let (rm, sf) := optSfx rmodes 0 sf
    let (dc, sf) ← takeSfx tyCvt sf
    let (sc, sf) ← takeSfx tyCvt sf
    noSfx sf
    match ops with
    | [d, a] =>
      let (f, d) ← xyReg d
      let a ← sameFile f (xyReg a)
      .ok ⟨vPlace f, 0xB7 + rm, rrr d a (8 * dc + sc)⟩
    | _ => .error 230
  else if m = "vqmx" then
    let (rm, sf) := optSfx rmodes 0 sf
    noSfx sf
    enc3V (0xBB + rm) ops
  else
    noSfx sf
    match ops with
    | [d, a, k] =>
      if m = "vsel" then
        let (f, d) ← xyReg d
        let a ← sameFile f (xyReg a)
        let k ← sameFile f (kjReg k)
        .ok ⟨vPlace f, 0xA9, rrr d a k⟩
      else if m = "vrot" then
        let (f, d) ← xyReg d
        let a ← sameFile f (xyReg a)
        let i ← c.field 0 63 6 k
        .ok ⟨vPlace f, 0xAB, rrr d a i⟩
      else if m = "vtest" then
        let p ← pReg d
        let e ← pReg a
        let (f, v) ← xyReg k
        .ok ⟨vPlace f, 0xAD, p * 2 ^ 14 + e * 2 ^ 10 + v⟩
      else .error 230
    | [d, a] =>
      if m = "xfer" then
        let (f, d) ← xyReg d
        let a ← sameFile (1 - f) (xyReg a)
        .ok ⟨vPlace f, 0xAC, rrr d a 0⟩
      else if m = "vframe" then
        let f ← keyword [("x", 0), ("y", 1)] d
        let i ← c.field (-64) 63 7 a
        .ok ⟨vPlace f, 0xAE, i⟩
      else .error 230
    | _ => .error 230

/-! ## C slots (R304) -/

/-- C0 for the a file, C1 for the b file (R231). -/
def cPlace (f : Nat) : Place := .at_ (4 + f)

/-- LDV, STV, LDS, STS. -/
def encSp (c : Cx) (m : String) (sf : List String) (ops : List (List Tok)) : R Enc := do
  noSfx sf
  match ops with
  | [d, b, r, i] =>
    let (op, d) ←
      if m = "ldv" || m = "stv" then do
        let (f, d) ← xyReg d
        .ok ((if m = "ldv" then 0xC0 else 0xC2) + f, d)
      else do
        let d ← sReg d
        .ok (if m = "lds" then 0xC4 else 0xC5, d)
    let b ← c.field 0 31 5 b
    let (f, r) ← abReg r
    let i ← c.field 0 7 3 i
    .ok ⟨cPlace f, op, d * 4096 + b * 128 + r * 8 + i⟩
  | _ => .error 230

/-- COPY, COPYO, COPYN, WFILL. -/
def encCopy (c : Cx) (m : String) (sf : List String) (ops : List (List Tok)) : R Enc := do
  let (h, sf) := optSfx hints 0 sf
  noSfx sf
  match ops with
  | [n, t, q] =>
    let n ← cReg n
    let t ← c.field 0 (if m = "wfill" then 63 else 255) 8 t
    let (f, q) ← quad q
    .ok ⟨cPlace f, 0xC6 + ["copy", "copyo", "copyn", "wfill"].idxOf m, n * 2 ^ 14 + t * 64 + h * 16 + q * 4⟩
  | _ => .error 230

def atomNames : List String := ["aadd", "aswap", "acas", "amin", "amax", "aand", "aor"]

/-- GLD, GST and the atomics. -/
def encAcc (m : String) (sf : List String) (ops : List (List Tok)) : R Enc := do
  let (h, sf) := optSfx hints 0 sf
  let atom := atomNames.contains m
  let (w, sf) ← takeSfx (if atom then [("w32", 2), ("w64", 3)] else widths) sf
  noSfx sf
  let x (d e q : Nat) : Nat := d * 2 ^ 14 + e * 2 ^ 10 + h * 16 + q * 4 + w
  match ops with
  | [d, q] =>
    if atom then .error 230
    else
      let (f, d) ← abReg d
      let q ← sameFile f (quad q)
      .ok ⟨cPlace f, if m = "gld" then 0xCC else 0xCD, x d 0 q⟩
  | [d, e, q] =>
    if atom then
      let (f, d) ← abReg d
      let e ← sameFile f (abReg e)
      let q ← sameFile f (quad q)
      .ok ⟨cPlace f, 0xCE + atomNames.idxOf m, x d e q⟩
    else .error 230
  | _ => .error 230

/-- TREL, TSTAT, ASET, AADDI, ASTR, CFENCE, PREF. -/
def encCother (c : Cx) (m : String) (sf : List String) (ops : List (List Tok)) : R Enc := do
  if m = "cfence" then
    let (k, sf) ← takeSfx scopes sf
    noSfx sf
    if ops = [] then .ok ⟨.c0OrC1, 0xD8, k⟩ else .error 230
  else if m = "pref" then
    let (h, sf) := optSfx hints 0 sf
    noSfx sf
    match ops with
    | [q] =>
      let (f, q) ← quad q
      .ok ⟨cPlace f, 0xD9, h * 16 + q * 4⟩
    | _ => .error 230
  else
    noSfx sf
    match ops with
    | [t] =>
      if m = "trel" then
        let t ← c.field 0 255 8 t
        .ok ⟨.c0OrC1, 0xCA, t * 64⟩
      else .error 230
    | [d, t] =>
      if m = "tstat" then
        let p ← pReg d
        let t ← c.field 0 255 8 t
        .ok ⟨.c0OrC1, 0xCB, p * 2 ^ 14 + t * 64⟩
      else if m = "aset" then
        let (f, d) ← abReg d
        let s ← sReg t
        .ok ⟨cPlace f, 0xD5, d * 2 ^ 14 + s⟩
      else if m = "aaddi" || m = "astr" then
        let (f, d) ← abReg d
        let i ← c.field (-2048) 2047 12 t
        .ok ⟨cPlace f, if m = "aaddi" then 0xD6 else 0xD7, d * 2 ^ 14 + i⟩
      else .error 230
    | _ => .error 230

/-! ## M slot (R291) -/

def encM (c : Cx) (m : String) (sf : List String) (ops : List (List Tok)) : R Enc := do
  if m = "mshift" then
    let (k, sf) := optSfx cells 3 sf
    noSfx sf
    match ops with
    | [v, t, r] =>
      let (f, v) ← xyReg v
      let t ← accReg t
      let r ← c.field 0 127 7 r
      .ok ⟨.at_ 3, 0xDD, v * 4096 + f * 2048 + k * 512 + t * 128 + r⟩
    | _ => .error 230
  else if m = "mdrain" then
    let (k, sf) ← takeSfx tyF sf
    noSfx sf
    match ops with
    | [d, t, r] =>
      let (f, d) ← xyReg d
      let t ← accReg t
      let r ← c.field 0 127 7 r
      .ok ⟨.at_ 3, 0xDE + k, d * 4096 + f * 2048 + t * 128 + r⟩
    | _ => .error 230
  else
    noSfx sf
    match ops with
    | [] => if m = "mswap" then .ok ⟨.at_ 3, 0xDC, 0⟩ else if m = "mflush" then .ok ⟨.at_ 3, 0xE2, 0⟩ else .error 230
    | [t] =>
      if m = "mclr" then
        let t ← accReg t
        .ok ⟨.at_ 3, 0xE1, t * 128⟩
      else .error 230
    | [k, w] =>
      if m = "mpush" then
        let k ← c.field 0 63 6 k
        let w ← c.field 0 4095 12 w
        .ok ⟨.at_ 3, 0xDB, k * 4096 + w⟩
      else .error 230
    | [a, b, k] =>
      if m = "mcfg" then
        let a ← keyword [("i8", 0), ("mx8", 8)] a
        let b ← keyword [("i8", 0), ("mx8", 8), ("q4", 9), ("xc4", 10)] b
        let k ← keyword cells k
        .ok ⟨.at_ 3, 0xDA, a * 2 ^ 14 + b * 2 ^ 10 + k * 256⟩
      else .error 230
    | _ => .error 230

/-! ## B slot (R233, R250 to R264) -/

/-- A branch target: with a label, or the current location, it is target minus own address, and each label lies in the same kernel;
of constants alone it is the offset (R232). -/
def target (c : Cx) (ts : List Tok) : R Nat := do
  let e ← exOf ts
  let v ← c.eval ts
  let labels := (namesIn e).filterMap (fun s => match symOf c.syms s with
    | some (.label _ k) => some k
    | _ => none)
  if labels.any (· ≠ c.kernel) then .error 232
  else
    let o := if labels ≠ [] || usesLoc e then v - c.loc else v
    if -131072 ≤ o ∧ o ≤ 131071 then .ok (BitVec.ofInt 18 o).toNat else .error 232

/-- LOOP: a count or an s register, and the label of the body's last bundle (R233). -/
def encLoop (c : Cx) (n last : List Tok) : R Enc := do
  let e ← c.eval last
  let len := e - (c.loc + 1)
  if len < 0 ∨ 63 < len then .error 233
  else match regOf n with
    | some _ =>
      let s ← sReg n
      .ok ⟨.at_ 6, 0xE8, len.toNat * 2048 + s⟩
    | none =>
      let k ← c.field 0 2047 11 n
      .ok ⟨.at_ 6, 0xE8, 2 ^ 17 + len.toNat * 2048 + k⟩

/-- B operations with no operand. -/
def bPlain : List (String × Nat) := [("ret", 0xE7), ("rdv", 0xEB), ("yield", 0xED), ("halt", 0xEE)]

def encB (c : Cx) (m : String) (sf : List String) (ops : List (List Tok)) : R Enc := do
  if m = "vgate" then
    let (k, sf) ← takeSfx (number ["on", "ret", "off"]) sf
    noSfx sf
    match ops with
    | [f, i] =>
      let f ← keyword [("x", 0), ("y", 1)] f
      let i ← c.field 0 255 8 i
      .ok ⟨.at_ 6, 0xF2, f * 2 ^ 17 + k * 2 ^ 15 + i⟩
    | _ => .error 230
  else
    noSfx sf
    match ops with
    | [] => match bPlain.find? (fun p => p.1 = m) with
      | some p => .ok ⟨.at_ 6, p.2, 0⟩
      | none => .error 230
    | [a] =>
      if m = "br" || m = "call" || m = "fbreg" then
        let t ← target c a
        .ok ⟨.at_ 6, if m = "br" then 0xE3 else if m = "call" then 0xE5 else 0xF0, t⟩
      else if m = "brx" || m = "callx" || m = "seg" then
        let s ← sReg a
        .ok ⟨.at_ 6, if m = "brx" then 0xE4 else if m = "callx" then 0xE6 else 0xEA, s⟩
      else if m = "stage" then
        let i ← c.field 0 7 3 a
        .ok ⟨.at_ 6, 0xE9, i⟩
      else if m = "sys" || m = "bkpt" then
        let i ← c.field 0 4095 12 a
        .ok ⟨.at_ 6, if m = "sys" then 0xEF else 0xF1, i⟩
      else .error 230
    | [a, b] =>
      if m = "loop" then encLoop c a b
      else if m = "waitc" then
        let n ← cReg a
        let l ← c.field 0 16383 14 b
        .ok ⟨.at_ 6, 0xEC, n * 2 ^ 14 + l⟩
      else .error 230
    | _ => .error 230

/-! ## A slot (R333) -/

def encA (c : Cx) (m : String) (sf : List String) (ops : List (List Tok)) : R Enc := do
  let arr (ts : List Tok) : R Nat := c.field 0 63 6 ts
  let xa (op a : Nat) (v : Nat × Nat) (k : Nat) : Enc := ⟨.at_ 7, op, a * 4096 + v.1 * 2048 + v.2 * 32 + k⟩
  if m = "xmvm" then
    let (o, sf) := optSfx (number ["f32", "f16", "b16", "i32"]) 0 sf
    noSfx sf
    match ops with
    | [a, d, s, n] =>
      let a ← arr a
      let d ← c.eval d
      let dep ← if d = 64 then .ok 0 else if d = 128 then .ok 1 else if d = 256 then .ok 2 else if d = 512 then .ok 3 else .error 232
      let s ← c.field 0 7 3 s
      let n ← c.field 1 16 5 n
      .ok ⟨.at_ 7, 0xF3, a * 4096 + dep * 1024 + s * 128 + (n - 1) * 8 + o * 2⟩
    | _ => .error 230
  else if m = "xpush" then
    let (k, sf) := optSfx (number ["i8", "b16"]) 0 sf
    noSfx sf
    match ops with
    | [v] =>
      let (f, v) ← xyReg v
      .ok ⟨.at_ 7, 0xF4, v * 4096 + f * 2048 + k * 1024⟩
    | _ => .error 230
  else if m = "xremap" then
    let (k, sf) := optSfx [("clr", 1)] 0 sf
    noSfx sf
    match ops with
    | [a] =>
      let a ← arr a
      if k = 1 then .ok (xa 0xF8 a (0, 0) 31) else .error 230
    | [a, r] =>
      let a ← arr a
      let r ← c.field 0 23 5 r
      if k = 0 then .ok (xa 0xF8 a (0, 0) r) else .error 230
    | _ => .error 230
  else if m = "xcal" then
    let (k, sf) ← takeSfx (number ["off", "gain", "mon"]) sf
    noSfx sf
    match ops with
    | [a] =>
      let a ← arr a
      if k = 2 then .ok (xa 0xFA a (0, 0) 16) else .error 230
    | [a, v, g] =>
      let a ← arr a
      let v ← xyReg v
      let g ← c.field 0 7 3 g
      if k < 2 then .ok (xa 0xFA a v (8 * k + g)) else .error 230
    | _ => .error 230
  else if m = "xldc" then
    let (k, sf) ← takeSfx (number ["code", "ver"]) sf
    noSfx sf
    match ops with
    | [v, a] =>
      let v ← xyReg v
      let a ← arr a
      .ok (xa 0xFE a v k)
    | _ => .error 230
  else
    noSfx sf
    match ops with
    | [] => if m = "xgate" then .ok ⟨.at_ 7, 0xFB, 0⟩ else if m = "xwake" then .ok ⟨.at_ 7, 0xFC, 0⟩ else .error 230
    | [a] =>
      if m = "xpop" then
        let (f, v) ← xyReg a
        .ok ⟨.at_ 7, 0xF5, v * 4096 + f * 2048⟩
      else if m = "xmon" then
        let a ← arr a
        .ok (xa 0xF9 a (0, 0) 0)
      else .error 230
    | [a, b] =>
      if m = "xver" then
        let a ← arr a
        let v ← xyReg b
        .ok (xa 0xF7 a v 0)
      else if m = "xstat" then
        let d ← sReg a
        let a ← arr b
        .ok ⟨.at_ 7, 0xFD, d * 4096 + a * 64⟩
      else .error 230
    | [a, v, k] =>
      if m = "xprog" then
        let a ← arr a
        let v ← xyReg v
        let k ← c.field 1 15 4 k
        .ok (xa 0xF6 a v k)
      else .error 230
    | _ => .error 230

/-! ## An operation -/

/-- Every mnemonic with the group that its operands follow. -/
def groups : List (Nat × List String) :=
  [(0, intNames), (1, ["setw", "sext", "clz", "popc"]), (2, ["cmp", "fcmp"]), (3, fpNames), (4, ["fcvt", "itof", "ftoi"]),
   (5, ["pand", "por", "pxor", "pandn", "pmov", "pnot"]), (6, ["sel", "mova", "mfs", "mts"]), (7, vTyped.map (·.1)),
   (8, ["vcmp"]), (9, vUnary.map (·.1)), (10, ["kop"]),
   (11, ["vset", "vsel", "vrot", "xfer", "vtest", "vframe", "vcvt", "vqmx"]), (12, ["ldv", "stv", "lds", "sts"]),
   (13, ["copy", "copyo", "copyn", "wfill"]), (14, ["gld", "gst"] ++ atomNames),
   (15, ["trel", "tstat", "aset", "aaddi", "astr", "cfence", "pref"]),
   (16, ["mcfg", "mpush", "mswap", "mshift", "mdrain", "mclr", "mflush"]),
   (17, ["br", "brx", "call", "callx", "ret", "loop", "stage", "seg", "rdv", "waitc", "yield", "halt", "sys", "fbreg", "bkpt",
         "vgate"]),
   (18, ["xmvm", "xpush", "xpop", "xprog", "xver", "xremap", "xmon", "xcal", "xgate", "xwake", "xstat", "xldc"])]

def groupOf (m : String) : Option Nat := (groups.find? (fun g => g.2.contains m)).map (·.1)

/-- The mnemonics of the slot operations (R230). -/
def isMnemonic (m : String) : Bool := m = "nop" || (groupOf m).isSome

/-- An operation by its mnemonic, suffixes but for `.e`, and operands. -/
def encOp (c : Cx) (m : String) (sf : List String) (ops : List (List Tok)) : R Enc :=
  match groupOf m with
  | some 0 => do
    noSfx sf
    encInt c m ops
  | some 1 => encBits c m sf ops
  | some 2 => encCmp c m sf ops
  | some 3 => encFp m sf ops
  | some 4 => encCvt m sf ops
  | some 5 => encPred m sf ops
  | some 6 => encMove c m sf ops
  | some 7 => match vTyped.find? (fun v => v.1 = m) with
    | some (_, op, tys) =>
      if tys = [] then do
        noSfx sf
        enc3V op ops
      else do
        let (t, sf) ← takeSfx tys sf
        noSfx sf
        enc3V (op + t) ops
    | none => .error 230
  | some 8 => encVcmp sf ops
  | some 9 => match vUnary.find? (fun v => v.1 = m) with
    | some (_, op, tys, sc) => encVun op tys sc sf ops
    | none => .error 230
  | some 10 => encKop sf ops
  | some 11 => encVother c m sf ops
  | some 12 => encSp c m sf ops
  | some 13 => encCopy c m sf ops
  | some 14 => encAcc m sf ops
  | some 15 => encCother c m sf ops
  | some 16 => encM c m sf ops
  | some 17 => encB c m sf ops
  | some 18 => encA c m sf ops
  | _ => .error 230

/-- The guard `(pN)` or `(!pN)` in front of an operation, and the tokens after it (R230). -/
def guardIn (ts : List Tok) : R (Bool × Nat × List Tok) :=
  match ts with
  | .sign "(" :: .sign "!" :: .word s :: .sign ")" :: r => do
    let p ← pReg [.word s]
    .ok (true, p, r)
  | .sign "(" :: .word s :: .sign ")" :: r => do
    let p ← pReg [.word s]
    .ok (false, p, r)
  | _ => .ok (false, 0, ts)

/-- The suffixes after a mnemonic. -/
def suffixes : List Tok → List String × List Tok
  | .sfx s :: r => let q := suffixes r; (lower s :: q.1, q.2)
  | ts => ([], ts)

/-- A slot operation: its place and its word; `nop` alone fills no slot (R229, R230). A word that the part would not decode is refused
(R225). -/
def operation (c : Cx) (ts : List Tok) : R (Option (Place × BitVec 32)) :=
  match ts with
  | [.word s] => if lower s = "nop" then .ok none else go ts
  | _ => go ts
where
  go (ts : List Tok) : R (Option (Place × BitVec 32)) := do
    let (n, g, r) ← guardIn ts
    match r with
    | .word m :: r =>
      let (sf, r) := suffixes r
      let wait := sf.getLast? ≠ some "e"
      let e ← encOp c (lower m) (if wait then sf else sf.dropLast) (operandsIn r)
      let w := slotWord ⟨n, BitVec.ofNat 4 g, wait⟩ (BitVec.ofNat 8 e.op) (BitVec.ofNat 18 e.x)
      let pos := match e.place with
        | .at_ p => p
        | .c0OrC1 => 4
      match slotOpAt pos w with
      | some o => if o.bad then .error 225 else .ok (some (e.place, w))
      | none => .error 225
    | _ => .error 229

/-! ## A bundle (R231) -/

/-- Put a word at a position that is still empty. -/
def fill (b : List (Nat × BitVec 32)) (pos : Nat) (w : BitVec 32) : R (List (Nat × BitVec 32)) :=
  if b.any (fun p => p.1 = pos) then .error 231 else .ok ((pos, w) :: b)

/-- The operations that name a position first, then those that take C0 or else C1. -/
def arrange (l : List (Place × BitVec 32)) : R (List (Nat × BitVec 32)) := do
  let b ← l.foldlM (fun b p => match p.1 with
    | .at_ pos => fill b pos p.2
    | .c0OrC1 => .ok b) []
  l.foldlM (fun b p => match p.1 with
    | .at_ _ => .ok b
    | .c0OrC1 => fill b (if b.any (fun q => q.1 = 4) then 5 else 4) p.2) b

/-- The words of a bundle by position. -/
def bundleOf (c : Cx) (ts : List Tok) : R (List (Nat × BitVec 32)) := do
  let parts := splitTop "|" 0 ts
  if parts.length > 8 then .error 229
  else
    let l ← parts.mapM (operation c)
    arrange (l.filterMap id)

/-- The word at a position; NOP where no operation stands. -/
def wordAt (b : List (Nat × BitVec 32)) (pos : Nat) : BitVec 32 := ((b.find? (fun p => p.1 = pos)).map (·.2)).getD 0

/-- The 32 bytes of a bundle (R215). -/
def bundleBytes (b : List (Nat × BitVec 32)) : List Byte := (List.range 8).flatMap (fun i => bytesOf 4 (wordAt b i).toNat)

end Sys2Proof.Machine.Brasm
end

