-- ==== Sys2Proof/Machine/BrasmTasks.lean ====
section
/-! DEFINITION. Embor tasks in brasm's source: suffixes, operands and words (R168 to R184). -/

namespace Sys2Proof.Machine.Brasm

/-- The tasks and their opcodes (R171). -/
def taskNames : List (String × Nat) :=
  [("kern", 0x01), ("gang", 0x02), ("tcopy", 0x03), ("tfill", 0x04), ("tdef", 0x10), ("tbind", 0x11), ("tdrop", 0x12), ("tsig", 0x20),
   ("twait", 0x21), ("tfence", 0x22), ("tset", 0x30), ("tadd", 0x31), ("tldq", 0x32), ("tloop", 0x38), ("tjmp", 0x39),
   ("tbrz", 0x3A), ("tmark", 0x40), ("tpri", 0x41), ("thalt", 0x7F)]

def isTask (m : String) : Bool := taskNames.any (fun t => t.1 = m)

/-- A task register. -/
def qReg (ts : List Tok) : R Nat :=
  match regOf ts with
  | some ("q", n) => .ok n
  | _ => .error 184

/-- A logical name T0 to T127. -/
def tName (s : String) : Option Nat := (indexed s).bind (fun r => if r.1 = "t" ∧ r.2 < 128 then some r.2 else none)

/-- The boxes of an operand: `f:l` pairs of tile numbers. -/
def boxesIn (c : Cx) (ts : List Tok) : R (List TBox) :=
  (splitTop "," 0 ts).mapM (fun b => match splitTop ":" 0 b with
    | [f, l] => do
      let f ← c.field 0 (2 ^ 24 - 1) 24 f
      let l ← c.field 0 (2 ^ 24 - 1) 24 l
      .ok { first := BitVec.ofNat 24 f, last := BitVec.ofNat 24 l }
    | _ => .error 184)

/-- The part of an operand after its name: the mode, boxes if any, and the task register if any. -/
def operandTail (c : Cx) (ref : Nat) (kind : Bool) (ts : List Tok) : R Operand := do
  let (m, r) ← match ts with
    | .sfx s :: r => match [("r", 1), ("w", 2), ("rw", 3)].find? (fun p => p.1 = lower s) with
      | some p => .ok (p.2, r)
      | none => .error 184
    | _ => .error 184
  let (bs, r) ← match r with
    | .sign "(" :: r => match inBracket 0 r with
      | some (l, r) => do
        let bs ← boxesIn c l
        if bs.length ≤ 4 then .ok (bs, r) else .error 184
      | none => .error 184
    | _ => .ok ([], r)
  let o : Operand := { ref := BitVec.ofNat 16 ref, kind, mode := BitVec.ofNat 2 m, qo := false, qr := 0, boxes := bs }
  match r with
  | [] => .ok o
  | [.sign "+", q] => do
    let q ← qReg [q]
    .ok { o with qo := true, qr := BitVec.ofNat 4 q }
  | _ => .error 184

/-- An operand: `tn` or `id(e)` with its tail. -/
def operandOf (c : Cx) (ts : List Tok) : R Operand :=
  match ts with
  | .word s :: r =>
    match tName s with
    | some n => operandTail c n false r
    | none =>
      if lower s = "id" then
        match r with
        | .sign "(" :: r => match inBracket 0 r with
          | some (e, r) => do
            let t ← c.field 0 0xFFFF 16 e
            operandTail c t true r
          | none => .error 184
        | _ => .error 184
      else .error 184
  | _ => .error 184

/-- Every field zero, PCL and PPOS included. -/
def hdr0 : TaskHdr := { fb := false, scope := 0, fbk := false, prot := false, pcl := 0, ppos := 0, qd := 0, cond := 0, imm := 0 }

/-- A name as the operand of TDEF, TBIND and TDROP: mode write, no box. -/
def nameOperand (ts : List Tok) : R Operand :=
  match ts with
  | [.word s] => match tName s with
    | some n => .ok { ref := BitVec.ofNat 16 n, kind := false, mode := 2, qo := false, qr := 0, boxes := [] }
    | none => .error 184
  | _ => .error 184

/-- A signal word: mode as the task needs it, no box. -/
def signalOperand (c : Cx) (mode : BitVec 2) (ts : List Tok) : R Operand := do
  let o ← operandOf c ts
  if o.mode = mode ∧ o.boxes = [] then .ok o else .error 171

/-- A value of `place`: `*` is 0xF. -/
def placeOf (c : Cx) (hi : Int) (ts : List Tok) : R Nat := if ts = [.sign "*"] then .ok 15 else c.field 0 hi 4 ts

/-- `place(c,p)` or `place(c)` as the last operand of KERN or GANG, and the operands before it. -/
def takePlace (c : Cx) (kern : Bool) (ops : List (List Tok)) : R (Nat × Nat × List (List Tok)) :=
  match ops.getLast? with
  | some (.word s :: .sign "(" :: r) =>
    if lower s = "place" then
      match inBracket 0 r with
      | some (l, []) => match splitTop "," 0 l, kern with
        | [a, b], true => do
          let a ← placeOf c 9 a
          let b ← placeOf c 7 b
          if a = 15 ∧ b ≠ 15 then .error 171 else .ok (a, b, ops.dropLast)
        | [a], false => do
          let a ← placeOf c 9 a
          .ok (a, 15, ops.dropLast)
        | _, _ => .error 184
      | _ => .error 184
    else .ok (15, 15, ops)
  | _ => .ok (15, 15, ops)

/-- A flag suffix that may be absent. -/
def flagSfx (s : String) (l : List String) : Bool × List String := let q := optSfx [(s, 1)] 0 l; (q.1 = 1, q.2)

/-- A 32-bit immediate, read signed or unsigned as the value needs. -/
def imm32 (c : Cx) (lo hi : Int) (ts : List Tok) : R (BitVec 32) := (c.num lo hi ts).map (BitVec.ofInt 32)

/-- A jump target as a number of 8-byte units from the task's own address. -/
def jumpTo (c : Cx) (ts : List Tok) : R (BitVec 32) := do
  let v ← c.eval ts
  let d := v - c.loc
  if d % 8 = 0 ∧ -(2 ^ 34) ≤ d ∧ d < 2 ^ 34 then .ok (BitVec.ofInt 32 (d / 8)) else .error 184

/-- The header and operands of a task by its name, suffixes and operands. -/
def taskFields (c : Cx) (m : String) (sf : List String) (ops : List (List Tok)) : R (TaskHdr × List Operand) := do
  if m = "kern" || m = "gang" then
    let (fb, sf) := flagSfx "fb" sf
    let (sc, sf) := optSfx scopes 2 sf
    let (fbk, sf) := flagSfx "fbk" sf
    let (pr, sf) := flagSfx "prot" sf
    noSfx sf
    let (pcl, ppos, ops) ← takePlace c (m = "kern") ops
    match ops with
    | k :: os =>
      let k ← imm32 c 0 (2 ^ 32 - 1) k
      let os ← os.mapM (operandOf c)
      if os.length ≤ 8 then
        .ok ({ hdr0 with fb, scope := BitVec.ofNat 2 sc, fbk, prot := pr, pcl := BitVec.ofNat 4 pcl, ppos := BitVec.ofNat 4 ppos,
                         imm := k }, os)
      else .error 168
    | [] => .error 184
  else if m = "tcopy" || m = "tfill" then
    let (fb, sf) := flagSfx "fb" sf
    let (sc, sf) := optSfx scopes 2 sf
    noSfx sf
    let h : TaskHdr := { hdr0 with fb, scope := BitVec.ofNat 2 sc }
    match ops with
    | [a, b, n] =>
      let a ← operandOf c a
      let b ← operandOf c b
      let n ← imm32 c 0 (2 ^ 32 - 1) n
      if m = "tcopy" ∧ a.mode = 1 ∧ b.mode = 2 then .ok ({ h with imm := n }, [a, b]) else .error 171
    | [a, v] =>
      let a ← operandOf c a
      let v ← imm32 c (-(2 ^ 31)) (2 ^ 32 - 1) v
      if m = "tfill" ∧ a.mode = 2 then .ok ({ h with imm := v }, [a]) else .error 171
    | _ => .error 184
  else if m = "tsig" || m = "twait" then
    let (cond, sf) ← if m = "twait" then takeSfx (number ["eq", "ne", "ge", "lt", "gen", "ltn"]) sf else .ok (0, sf)
    let (sc, sf) := optSfx scopes 2 sf
    noSfx sf
    match ops with
    | [o, i, q] =>
      let o ← signalOperand c (if m = "tsig" then 2 else 1) o
      let i ← imm32 c 0 (2 ^ 32 - 1) i
      let q ← qReg q
      .ok ({ hdr0 with scope := BitVec.ofNat 2 sc, cond := BitVec.ofNat 3 cond,
                       qd := BitVec.ofNat 4 q, imm := i }, [o])
    | _ => .error 184
  else if m = "tfence" then
    let (sc, sf) := optSfx scopes 2 sf
    noSfx sf
    if ops = [] then .ok ({ hdr0 with scope := BitVec.ofNat 2 sc }, []) else .error 184
  else if m = "tldq" then
    let (fb, sf) := flagSfx "fb" sf
    noSfx sf
    match ops with
    | [q, o, i] =>
      let q ← qReg q
      let o ← signalOperand c 1 o
      let i ← imm32 c 0 (2 ^ 32 - 1) i
      .ok ({ hdr0 with fb, qd := BitVec.ofNat 4 q, imm := i }, [o])
    | _ => .error 184
  else
    noSfx sf
    match ops with
    | [] => if m = "thalt" then .ok (hdr0, []) else .error 184
    | [a] =>
      if m = "tdrop" then
        let o ← nameOperand a
        .ok (hdr0, [o])
      else if m = "tjmp" then
        let i ← jumpTo c a
        .ok ({ hdr0 with imm := i }, [])
      else if m = "tmark" then
        let i ← imm32 c (-(2 ^ 31)) (2 ^ 32 - 1) a
        .ok ({ hdr0 with imm := i }, [])
      else if m = "tpri" then
        let i ← imm32 c 0 7 a
        .ok ({ hdr0 with imm := i }, [])
      else .error 184
    | [a, b] =>
      if m = "tbind" then
        let o ← nameOperand a
        let i ← imm32 c 1 0xDFFF b
        .ok ({ hdr0 with imm := i }, [o])
      else
        let q ← qReg a
        let i ← if m = "tset" || m = "tadd" then imm32 c (-(2 ^ 31)) (2 ^ 31 - 1) b else if m = "tloop" || m = "tbrz" then jumpTo c b
          else .error 184
        .ok ({ hdr0 with qd := BitVec.ofNat 4 q, imm := i }, [])
    | [a, b, k] =>
      if m = "tdef" then
        let o ← nameOperand a
        let i ← c.field 0 0xFFFF 16 b
        let w ← match k with
          | [.word s] => if lower s = "hbm" then .ok 0 else .error 184
          | .word s :: .sign "(" :: r => match inBracket 0 r with
            | some (l, []) => if lower s = "win" then (c.field 0 9 4 l).map (fun v => 2 ^ 16 + v * 2 ^ 17) else .error 184
            | _ => .error 184
          | _ => .error 184
        .ok ({ hdr0 with imm := BitVec.ofNat 32 (i + w) }, [o])
      else .error 184
    | _ => .error 184

/-- A task with its opcode. -/
def taskIn (c : Cx) (ts : List Tok) : R (Nat × TaskHdr × List Operand) :=
  match ts with
  | .word m :: r =>
    match taskNames.find? (fun t => t.1 = lower m) with
    | some (_, opc) => do
      let (sf, r) := suffixes r
      let (h, os) ← taskFields c (lower m) sf (operandsIn r)
      .ok (opc, h, os)
    | none => .error 184
  | _ => .error 184

/-- The bytes of a task (R168, R169). -/
def taskBytes (opc : Nat) (h : TaskHdr) (os : List Operand) : List Byte :=
  bytesOf 8 (taskHeader (BitVec.ofNat 8 opc) h (BitVec.ofNat 4 os.length)).toNat ++
    (os.flatMap operandWords).flatMap (fun w => bytesOf 16 w.toNat)

/-- The boxes that an operand's source names, counted without their values. -/
def boxCount : List Tok → Nat
  | .sfx _ :: .sign "(" :: r => match inBracket 0 r with
    | some (l, _) => (splitTop "," 0 l).length
    | none => 0
  | _ :: r => boxCount r
  | [] => 0

/-- Whether a task operand's source is an operand with a mode. -/
def isOperand (ts : List Tok) : Bool := ts.any (fun t => match t with
  | .sfx _ => true
  | _ => false)

/-- The length of a task in bytes, from its source alone (R169): the first pass needs no value. -/
def taskLength (ts : List Tok) : Nat :=
  match ts with
  | .word m :: r =>
    let os := operandsIn (suffixes r).2
    let m := lower m
    if m = "tdef" || m = "tbind" || m = "tdrop" then 24
    else 8 + (os.filter isOperand).foldl (fun n o => n + (if boxCount o > 2 then 32 else 16)) 0
  | _ => 8

end Sys2Proof.Machine.Brasm
end

