-- ==== Sys2Proof/Machine/Brasm.lean ====
section
/-! DEFINITION. The assembler brasm: directives and locations, the two passes, kernel headers and tile maps, and the checks that it
makes before it emits anything (R48, R184, R229 to R237, R302). The result is a code-tensor image with its task images. -/

namespace Sys2Proof.Machine.Brasm

/-! ## The first pass: names and locations -/

/-- What a line lies in. -/
inductive Block where
  | outside
  | kernel
  | stream
  deriving DecidableEq, Repr

/-- A tile-map entry as declared: banks, rows, and whether ready (R234). -/
structure BankDir where
  line : Nat
  blo : Nat
  bhi : Nat
  wlo : Nat
  whi : Nat
  ready : Bool
  deriving DecidableEq, Repr

/-- A bundle or a `.seg` of a kernel in source order. -/
inductive KItem where
  | bundle (line addr : Nat) (ts : List Tok)
  | seg (line addr : Nat) (ts : List Tok)
  deriving DecidableEq, Repr

/-- A kernel as declared (R234, R235). -/
structure Kern where
  line : Nat := 0
  index : Nat := 0
  flags : Nat := 0
  gsize : Nat := 1
  vfx : Nat := 1
  vfy : Nat := 1
  /-- keys whose values are taken in the second pass, with the location -/
  keys : List (String × Nat × List Tok) := []
  banks : List BankDir := []
  mirx : List Nat := []
  miry : List Nat := []
  items : List KItem := []
  /-- the bundle address after the last bundle -/
  fin : Nat := 0
  deriving DecidableEq, Repr

/-- The first pass under way. -/
structure Pass where
  block : Block := .outside
  /-- byte offset outside, bundle address in a kernel, task address in a stream -/
  loc : Nat := 0
  /-- the location outside, while in a stream -/
  saved : Nat := 0
  /-- the end of every byte emitted so far -/
  top : Nat := 0
  syms : Syms := []
  kern : Kern := {}
  kerns : List Kern := []
  sname : String := ""
  /-- the tasks of the open stream: line, address, source -/
  tasks : List (Nat × Nat × List Tok) := []
  streams : List (Nat × String × Nat × List (Nat × Nat × List Tok)) := []
  /-- data directives: line, offset, width, values -/
  data : List (Nat × Nat × Nat × List (List Tok)) := []
  /-- padding: line, offset, length -/
  pads : List (Nat × Nat × Nat) := []
  tensors : List (Nat × String) := []
  globals : List (Nat × String) := []

def directives : List String :=
  ["kernel", "endk", "stream", "ends", "bank", "mirror", "seg", "tensor", "org", "align", "equ", "global", "byte", "half", "word",
   "dword"]

/-- A name of its own: no register, special or not, no mnemonic and no directive (R232). -/
def freeName (s : String) : Bool :=
  let l := lower s
  !((regName s).isSome || isSpecial s || isMnemonic l || isTask l || directives.contains l)

/-- A name that may be defined, and is not yet (R232). -/
def define (p : Pass) (s : String) (v : SymVal) : R Pass :=
  if !freeName s || (symOf p.syms s).isSome then .error 232
  else .ok { p with syms := (s, v) :: p.syms }

/-- The kernel around the present line. -/
def Pass.inKernel (p : Pass) : Option Nat := if p.block = .kernel then some p.kern.index else none
/-- Evaluation with the symbols defined so far: a forward reference is an error (R232). -/
def Pass.now (p : Pass) : Cx := { loc := p.loc, syms := p.syms, kernel := p.inKernel }

/-- Values in a bracket. -/
def bracketed (ts : List Tok) : R (List (List Tok)) :=
  match ts with
  | .sign "(" :: r => match inBracket 0 r with
    | some (l, []) => .ok (operandsIn l)
    | _ => .error 235
  | _ => .error 235

/-- A key of `.kernel` (R235). -/
def kernelKey (p : Pass) (k : Kern) (ts : List Tok) : R Kern :=
  match ts with
  | [.word s] =>
    let i := ["matrix", "crossbar", "protected", "strict"].idxOf (lower s)
    if i < 4 then .ok { k with flags := k.flags ||| 2 ^ i } else .error 235
  | .word s :: .sign "=" :: v => do
    let s := lower s
    if s = "gsize" then
      let n ← p.now.field 1 8 4 v
      .ok { k with gsize := n }
    else if s = "frames" then
      let l ← bracketed v
      match l with
      | [x, y] =>
        let x ← p.now.field 0 64 7 x
        let y ← p.now.field 0 64 7 y
        .ok { k with vfx := x, vfy := y }
      | _ => .error 235
    else if s = "groups" || s = "gfmt" || s = "skew" then .ok { k with keys := k.keys ++ [(s, p.loc, v)] }
    else .error 235
  | _ => .error 235

/-- A range `lo..hi` (R234, R63). -/
def rangeOf (c : Cx) (hi : Nat) (ts : List Tok) : R (Nat × Nat) :=
  match splitTop ".." 0 ts with
  | [a, b] => do
    let a ← c.num 0 hi a
    let b ← c.num 0 hi b
    if a ≤ b then .ok (a.toNat, b.toNat) else .error 63
  | _ => .error 234

/-- `.kernel` opens a kernel; its first bundle goes after every byte so far, its own header included (R234). -/
def openKernel (p : Pass) (line : Nat) (ops : List (List Tok)) : R Pass :=
  match ops with
  | [.word s] :: i :: keys => do
    let i ← p.now.num 0 (2 ^ 32 - 1) i
    let p ← define p s (.const i)
    let k ← keys.foldlM (kernelKey p) { line, index := i.toNat }
    let top := max p.top (64 * i.toNat + 64)
    .ok { p with block := .kernel, kern := k, top, loc := (top + 31) / 32 }
  | _ => .error 234

/-- `.endk` closes a kernel: its tile map stands at the next bundle address (R234). -/
def closeKernel (p : Pass) : R Pass :=
  if p.kern.items.any (fun i => match i with
    | .bundle .. => true
    | .seg .. => false) then
    let fin := 32 * p.loc + 4 * p.kern.banks.length
    .ok { p with block := .outside, kerns := p.kerns ++ [{ p.kern with fin := p.loc }], kern := {}, loc := fin, top := max p.top fin }
  else .error 234

/-- `.org` sets the location; it does not move backwards (R234). -/
def orgTo (p : Pass) (ts : List Tok) : R Pass := do
  let v ← p.now.num 0 (2 ^ 62) ts
  if v < p.loc ∨ (p.block = .stream ∧ v % 8 ≠ 0) then .error 234
  else .ok { p with loc := v.toNat }

/-- `.align` pads with zero bytes, in a kernel with empty bundles (R234). -/
def alignTo (p : Pass) (line : Nat) (ts : List Tok) : R Pass := do
  let n ← p.now.num 1 (2 ^ 62) ts
  let n := n.toNat
  let unit := if p.block = .kernel then 32 else 1
  if 2 ^ n.log2 ≠ n ∨ n % unit ≠ 0 then .error 234
  else
    let u := n / unit
    let loc := (p.loc + u - 1) / u * u
    let p' : Pass := { p with loc }
    if p.block = .stream ∨ loc = p.loc then .ok p'
    else .ok { p' with pads := p.pads ++ [(line, unit * p.loc, unit * (loc - p.loc))], top := max p.top (unit * loc) }

/-- One `.bank` entry. -/
def bankDir (p : Pass) (line : Nat) (ops : List (List Tok)) : R Pass :=
  match ops with
  | [b, w, st] => do
    let (blo, bhi) ← rangeOf p.now 31 b
    let (wlo, whi) ← rangeOf p.now 511 w
    let r ← match st with
      | [.word s] => if lower s = "ready" then .ok true else if lower s = "empty" then .ok false else .error 234
      | _ => .error 234
    .ok { p with kern := { p.kern with banks := p.kern.banks ++ [{ line, blo, bhi, wlo, whi, ready := r }] } }
  | _ => .error 234

/-- `.mirror` names registers (R213, R234). -/
def mirrorDir (k : Kern) (ts : List Tok) : R Kern := do
  let (f, n) ← xyReg ts
  if f = 0 then .ok { k with mirx := if k.mirx.contains n then k.mirx else k.mirx ++ [n] }
  else .ok { k with miry := if k.miry.contains n then k.miry else k.miry ++ [n] }

/-- A directive (R234): used outside its context it is an error. -/
def directive (p : Pass) (line : Nat) (d : String) (ts : List Tok) : R Pass :=
  let ops := operandsIn ts
  let inside (b : Block) (r : R Pass) : R Pass := if p.block = b then r else .error 234
  if d = "kernel" then inside .outside (openKernel p line ops)
  else if d = "endk" then if ops = [] then inside .kernel (closeKernel p) else .error 234
  else if d = "stream" then
    match ops with
    | [[.word s]] => if !freeName s then .error 232 else inside .outside (.ok { p with block := .stream, sname := s, saved := p.loc, loc := 0, tasks := [] })
    | _ => .error 234
  else if d = "ends" then
    if ops = [] then
      inside .stream (.ok { p with block := .outside, loc := p.saved, streams := p.streams ++ [(line, p.sname, p.loc, p.tasks)], tasks := [] })
    else .error 234
  else if d = "bank" then inside .kernel (bankDir p line ops)
  else if d = "mirror" then
    inside .kernel (if ops = [] then .error 234 else (ops.foldlM mirrorDir p.kern).map (fun k => { p with kern := k }))
  else if d = "seg" then
    match ops with
    | [e] => inside .kernel (.ok { p with kern := { p.kern with items := p.kern.items ++ [.seg line p.loc e] } })
    | _ => .error 234
  else if d = "tensor" then
    match ops with
    | [[.word s], e] => do
      let x ← exOf e
      let p' ← define p s (.later x p.loc)
      .ok { p' with tensors := p.tensors ++ [(line, s)] }
    | _ => .error 234
  else if d = "org" then
    match ops with
    | [e] => orgTo p e
    | _ => .error 234
  else if d = "align" then
    match ops with
    | [e] => alignTo p line e
    | _ => .error 234
  else if d = "equ" then
    match ops with
    | [[.word s], e] => do
      let v ← p.now.eval e
      define p s (.const v)
    | _ => .error 234
  else if d = "global" then
    if ops = [] then .error 234
    else
      (ops.mapM (fun (o : List Tok) => (match o with
        | [.word s] => .ok (line, s)
        | _ => .error 234 : R (Nat × String)))).map (fun l => { p with globals := p.globals ++ l })
  else
    let i := ["byte", "half", "word", "dword"].idxOf d
    if i < 4 ∧ ops ≠ [] then
      let w := 2 ^ i
      let fin := p.loc + w * ops.length
      inside .outside (.ok { p with data := p.data ++ [(line, p.loc, w, ops)], loc := fin, top := max p.top fin })
    else .error 234

/-- A line: a label if any, then a directive, a bundle or a task (R229). -/
def passLine (p : Pass) (line : Nat) (ts : List Tok) : R Pass := do
  let (p, ts) ← match ts with
    | .word s :: .sign ":" :: r => do
      let p ← define p s (.label p.loc p.inKernel)
      .ok (p, r)
    | _ => .ok (p, ts)
  match ts with
  | [] => .ok p
  | .dir d :: r => directive p line (lower d) r
  | _ => match p.block with
    | .kernel =>
      .ok { p with kern := { p.kern with items := p.kern.items ++ [.bundle line p.loc ts] }, loc := p.loc + 1,
                   top := max p.top (32 * (p.loc + 1)) }
    | .stream => .ok { p with tasks := p.tasks ++ [(line, p.loc, ts)], loc := p.loc + taskLength ts }
    | .outside => .error 234

/-- The first pass over the lines. -/
def passLines : Pass → List (Nat × List Char) → Except Diag Pass
  | p, [] => .ok p
  | p, (n, l) :: r => do
    let p ← atLine n (lex (l.length + 1) false l >>= passLine p n)
    passLines p r

/-! ## Kernels: bundles and their checks -/

/-- A bundle assembled: its words and its operations in position order. -/
structure KBundle where
  line : Nat
  addr : Nat
  words : List (Nat × BitVec 32)

/-- Operations of a bundle with their opcodes and operand bits. -/
def KBundle.ops (b : KBundle) : List (SlotOp × Nat × Nat) :=
  (List.range 8).filterMap (fun i =>
    let w := wordAt b.words i
    if w = 0 then none else (slotOpAt i w).map (fun o => (o, (w.extractLsb' 18 8).toNat, (w.extractLsb' 0 18).toNat)))

/-- The guard is never true (R216). -/
def neverOp (o : SlotOp) : Bool := o.h.n && o.h.g = 0
/-- Operations that may run. -/
def KBundle.live (b : KBundle) : List (SlotOp × Nat × Nat) := b.ops.filter (fun o => !neverOp o.1)

/-- BR, BRX, CALL, CALLX or RET. -/
def redirects (o : SlotOp × Nat × Nat) : Bool := 0xE3 ≤ o.2.1 && o.2.1 ≤ 0xE7

/-- The body of a LOOP: its first and last bundle (R233). -/
def bodyOf (b : KBundle) : Option (Nat × Nat) :=
  (b.ops.find? (fun o => o.2.1 = 0xE8)).map (fun o => (b.addr + 1, b.addr + 1 + o.2.2 / 2048 % 64))

/-- Cause 1 of R44 for a bundle as if every group were healthy, with the two exemptions of R48. -/
def bankConflict (b : KBundle) : Bool :=
  match b.ops.filterMap (fun o => o.1.sp.map (fun a => (o.1, a))) with
  | [(p, a), (q, c)] =>
    a.bank = c.bank && (a.write || c.write) && !(neverOp p || neverOp q || (p.h.g = q.h.g && p.h.n != q.h.n))
  | _ => false

/-- The checks of one bundle (R33, R44, R64, R205, R212). -/
def bundleChecks (gmask nbanks : Nat) (strict : Bool) (mirx miry : List Nat) (b : KBundle) : List Diag :=
  let d (c : Bool) (r : Nat) : List Diag := if c then [{ line := b.line, rule := r }] else []
  let ops := b.ops.map (·.1)
  let hold := max (portHold mirx (portReads {} false (b.live.map (·.1))) (fun _ => 0))
    (portHold miry (portReads {} true (b.live.map (·.1))) (fun _ => 0))
  d (twoWriters [] ops).isSome 205 ++
    d (ops.any (fun o => o.sp.any (fun a => !gmask.testBit (a.bank.toNat / 4)))) 33 ++
    d (bankConflict b) 44 ++
    d (b.ops.any (fun o => [0xC6, 0xC7, 0xCA, 0xCB].contains o.2.1 && o.2.2 / 64 % 256 ≥ nbanks)) 64 ++
    d (strict && hold > 0) 212

/-- A port hold of a kernel that is not strict is a note (R237). -/
def portNotes (mirx miry : List Nat) (b : KBundle) : List Diag :=
  if max (portHold mirx (portReads {} false (b.live.map (·.1))) (fun _ => 0))
    (portHold miry (portReads {} true (b.live.map (·.1))) (fun _ => 0)) > 0 then [{ line := b.line, rule := 211 }] else []

/-- Delay bundles and last bundles of loop bodies (R226). -/
def flowChecks (bs : List KBundle) : List Diag :=
  let ends := bs.filterMap (fun b => (bodyOf b).map (·.2))
  bs.flatMap (fun b =>
    let delay := bs.any (fun a => (a.addr + 1 = b.addr || a.addr + 2 = b.addr) && a.live.any redirects)
    let last := ends.contains b.addr
    if (delay && (last || b.ops.any redirects)) || (last && b.ops.any (fun o => redirects o || o.2.1 = 0xE8)) then
      [{ line := b.line, rule := 226 }]
    else [])

/-! ## Segments (R156, R157, R236, R302) -/

def holdsOp (n : Nat) (b : KBundle) : Bool := b.live.any (fun o => o.2.1 = n)

/-- Bundles up to the next SEG, or to HALT and with it; and whether one of them was met. -/
def upTo : List KBundle → List KBundle × Bool
  | [] => ([], false)
  | b :: l =>
    if holdsOp 0xEA b then ([], true)
    else if holdsOp 0xEE b then ([b], true)
    else let r := upTo l; (b :: r.1, r.2)

/-- The body that a bundle lies in after its first bundle: the smallest. -/
def innermost (bodies : List (Nat × Nat)) (addr : Nat) : Option (Nat × Nat) :=
  (bodies.filter (fun b => b.1 < addr && addr ≤ b.2)).foldl (fun best b => match best with
    | none => some b
    | some c => if b.2 - b.1 < c.2 - c.1 then some b else some c) none

/-- The bundles of the segment that starts at a bundle, in the order of R236. -/
def segmentAt (bs : List KBundle) (b : KBundle) : List KBundle :=
  if holdsOp 0xEE b then [b]
  else match (if holdsOp 0xEA b then innermost (bs.filterMap bodyOf) b.addr else none) with
    | some (s, e) =>
      let r := upTo (bs.filter (fun a => b.addr < a.addr && a.addr ≤ e))
      if r.2 then b :: r.1 else b :: r.1 ++ (upTo (bs.filter (fun a => s ≤ a.addr && a.addr < b.addr))).1
    | none => b :: (upTo (bs.filter (fun a => b.addr < a.addr))).1

/-- Vector registers, lane masks and accumulator rows by one number each. -/
def vKeys (l : List Rd) : List Nat :=
  l.filterMap (fun r => match r with
    | .v f n => some ((if f then 64 else 0) + n)
    | .k f n => some (128 + (if f then 8 else 0) + n)
    | _ => none)
def accKey (x : Nat) : Nat := 256 + x % 512

/-- Whether an operation carries on what stands in its destination: VFMA, and VSEL where its lane is clear (R269, R274). -/
def carriesOn (op : Nat) : Bool := (decide (0x67 ≤ op) && decide (op ≤ 0x6C)) || op = 0xA9
/-- The state of the vector files, lane masks and accumulators that an operation reads from its sources, that which it carries on in its
destination, and that which it writes (R237, R302). -/
def segSources (o : SlotOp × Nat × Nat) : List Nat :=
  let rs := vKeys (o.1.reads ++ o.1.readsF)
  (if carriesOn o.2.1 then (vKeys o.1.writes).foldl List.erase rs else rs) ++ (if 0xDE ≤ o.2.1 && o.2.1 ≤ 0xE0 then [accKey o.2.2] else [])
def segCarried (o : SlotOp × Nat × Nat) : List Nat :=
  (if carriesOn o.2.1 then vKeys o.1.writes else []) ++ (if o.2.1 = 0xDD then [accKey o.2.2] else [])
def segWrites (o : SlotOp × Nat × Nat) : List Nat :=
  vKeys o.1.writes ++
    (if o.2.1 = 0xDD then [accKey o.2.2] else if o.2.1 = 0xE1 then (List.range 128).map (fun i => accKey (o.2.2 / 128 * 128 + i)) else [])

/-- The lines of a segment that write what a source of the segment has read up to there, or carry on what the segment has not written
(R156, R237). -/
def readFirst : List Nat → List Nat → List KBundle → List Diag
  | _, _, [] => []
  | written, read, b :: l =>
    let read := read ++ b.live.flatMap segSources ++ (b.live.flatMap segCarried).filter (fun r => !written.contains r)
    let ws := b.live.flatMap segWrites
    (if ws.any read.contains then [{ line := b.line, rule := 156 }] else []) ++ readFirst (written ++ ws) read l

/-- Stores, and copies into tiles, that reach a bank of the input mask (R157). -/
def inputWrites (mask : Nat) (banks : List BankDir) (b : KBundle) : List Diag :=
  if b.live.any (fun o =>
    o.1.sp.any (fun a => a.write && mask.testBit a.bank.toNat) ||
      (o.2.1 = 0xC6 && (banks[o.2.2 / 64 % 256]?).any (fun t => (List.range (t.bhi - t.blo + 1)).any (fun i => mask.testBit (t.blo + i)))))
  then [{ line := b.line, rule := 157 }] else []

/-- Each segment's first bundle with the mask declared for it: SEGMASK at the entry, else the `.seg` before its SEG bundle. -/
def segmentStarts (bs : List KBundle) : List (KItem × Nat) → Option Nat → Bool → List (KBundle × Nat)
  | [], _, _ => []
  | (.seg .., m) :: l, _, first => segmentStarts bs l (some m) first
  | (.bundle _ addr _, _) :: l, m, first =>
    match bs.find? (fun b => b.addr = addr) with
    | some b =>
      if first || holdsOp 0xEA b then (b, m.getD 0) :: segmentStarts bs l none false
      else segmentStarts bs l m false
    | none => segmentStarts bs l m false

/-! ## A kernel's header, tile map and checks -/

/-- A tile-map word (R63, R64). -/
def tileWord (t : BankDir) : Nat :=
  t.blo + t.bhi * 2 ^ 5 + t.wlo * 2 ^ 10 + t.whi * 2 ^ 19 + (if t.ready then 2 ^ 29 else 0) + 2 ^ 30

def tilesMeet (a b : BankDir) : Bool := a.blo ≤ b.bhi && b.blo ≤ a.bhi && a.wlo ≤ b.whi && b.wlo ≤ a.whi

/-- The checks of a tile map (R64). -/
def tileChecks (gmask : Nat) : List BankDir → List BankDir → List Diag
  | _, [] => []
  | seen, t :: l =>
    (if (List.range (t.bhi - t.blo + 1)).any (fun i => !gmask.testBit ((t.blo + i) / 4)) || seen.any (tilesMeet t) || seen.length ≥ 256
     then [{ line := t.line, rule := 64 }] else []) ++ tileChecks gmask (t :: seen) l

/-- A kernel with the values of its keys. -/
structure KVals where
  gmask : Nat := 1
  gfmt : Nat := 0
  skew : Nat := 0
  nskew : Nat := 0

/-- The keys whose values may refer forward (R235). -/
def keyValue (syms : Syms) (idx : Nat) (v : KVals) (k : String × Nat × List Tok) : R KVals := do
  let c : Cx := { loc := k.2.1, syms, kernel := some idx }
  if k.1 = "groups" then
    let m ← c.field 0 255 8 k.2.2
    .ok { v with gmask := m }
  else if k.1 = "gfmt" then
    let l ← bracketed k.2.2
    l.foldlM (fun (v : KVals) e => match splitTop ":" 0 e with
      | [g, f] => do
        let g ← c.field 0 7 3 g
        let f ← c.field 0 10 4 f
        .ok { v with gfmt := v.gfmt - v.gfmt / 16 ^ g % 16 * 16 ^ g + f * 16 ^ g }
      | _ => .error 235) v
  else
    let l ← bracketed k.2.2
    let s ← l.mapM (c.field 0 15 4)
    .ok { v with skew := (s.take 8).foldr (fun a n => a + 16 * n) 0, nskew := s.length }

/-- A set of registers as the mask of R193. -/
def maskBits (l : List Nat) : Nat := l.foldl (fun m n => m ||| 2 ^ n) 0

/-- The 64 bytes of a kernel header (R193). -/
def headerBytes (k : Kern) (v : KVals) (entry segmask : Nat) : List Byte :=
  bytesOf 4 entry ++ bytesOf 1 v.gmask ++ bytesOf 1 k.flags ++ bytesOf 1 k.gsize ++ bytesOf 1 0 ++ bytesOf 2 k.vfx ++ bytesOf 2 k.vfy ++
    bytesOf 4 0 ++ bytesOf 4 v.gfmt ++ bytesOf 4 0 ++ bytesOf 4 v.skew ++ bytesOf 4 segmask ++ bytesOf 8 (maskBits k.mirx) ++
    bytesOf 8 (maskBits k.miry) ++ bytesOf 4 (32 * k.fin) ++ bytesOf 2 k.banks.length ++ bytesOf 10 0

/-- Bytes of the image at an offset, with their line. -/
structure Chunk where
  line : Nat
  off : Nat
  bytes : List Byte
  deriving DecidableEq, Repr

/-- What the second pass has found and made. -/
structure Out where
  errors : List Diag := []
  notes : List Diag := []
  chunks : List Chunk := []
  streams : List (String × List Byte) := []
  symbols : List (String × Int) := []

def Out.add (o : Out) (e : List Diag) : Out := { o with errors := o.errors ++ e }

/-- The bundle of a kernel item. -/
def itemBundle (syms : Syms) (idx : Nat) : KItem → Option (Except Diag KBundle)
  | .bundle line addr ts =>
    some (atLine line ((bundleOf { loc := addr, syms, kernel := some idx } ts).map (fun w => { line, addr, words := w })))
  | .seg .. => none

/-- The mask of a `.seg`. -/
def itemMask (syms : Syms) (idx : Nat) : KItem → Except Diag (KItem × Nat)
  | .seg line addr ts =>
    atLine line ((({ loc := addr, syms, kernel := some idx } : Cx).num 0 (2 ^ 32 - 1) ts).map (fun v => (.seg line addr ts, v.toNat)))
  | i => .ok (i, 0)

/-- What succeeded of a list. -/
def goods {α : Type} (l : List (Except Diag α)) : List α := l.filterMap (fun r => match r with
  | .ok a => some a
  | .error _ => none)
/-- What failed of a list. -/
def bads {α : Type} (l : List (Except Diag α)) : List Diag := l.filterMap (fun r => match r with
  | .ok _ => none
  | .error d => some d)

/-- The second pass over one kernel: its bytes, and every check of R237 on it. -/
def emitKernel (syms : Syms) (o : Out) (k : Kern) : Out :=
  match k.keys.foldlM (keyValue syms k.index) {} with
  | .error r => o.add [{ line := k.line, rule := r }]
  | .ok v =>
    let rs := k.items.filterMap (itemBundle syms k.index)
    let bs := goods rs
    let ms := k.items.map (itemMask syms k.index)
    let starts := segmentStarts bs (goods ms) none true
    let strict := k.flags.testBit 3
    let moved := bs.any (fun b => b.ops.any (fun p => p.2.1 = 0xAE || (p.2.1 = 0x54 && (p.2.2 % 4096 = 3 || p.2.2 % 4096 = 4))))
    let mirx := if moved then [] else k.mirx
    let miry := if moved then [] else k.miry
    let entry := (bs.head?.map (·.addr)).getD 0
    let segmask := (starts.head?.map (·.2)).getD 0
    let own (c : Bool) (r : Nat) : List Diag := if c then [{ line := k.line, rule := r }] else []
    let errs := bads rs ++ bads ms ++ bs.flatMap (bundleChecks v.gmask k.banks.length strict mirx miry) ++ flowChecks bs ++
      tileChecks v.gmask [] k.banks ++
      own (k.mirx.length > 8 || k.miry.length > 8 || k.mirx.any (· ≥ 64 * k.vfx) || k.miry.any (· ≥ 64 * k.vfy)) 213 ++
      own (k.gsize > 1 && v.nskew > k.gsize) 193 ++
      starts.flatMap (fun s => (segmentAt bs s.1).flatMap (inputWrites s.2 k.banks) ++ readFirst [] [] (segmentAt bs s.1))
    { o with
      errors := o.errors ++ errs
      notes := o.notes ++ (if strict then [] else bs.flatMap (portNotes mirx miry))
      chunks := o.chunks ++ [{ line := k.line, off := 64 * k.index, bytes := headerBytes k v entry segmask }] ++
        bs.map (fun b => { line := b.line, off := 32 * b.addr, bytes := bundleBytes b.words }) ++
        [{ line := k.line, off := 32 * k.fin, bytes := k.banks.flatMap (fun t => bytesOf 4 (tileWord t)) }] }

/-! ## The whole file -/

/-- A data directive: each value lies in the range of its width, signed or unsigned (R234). -/
def emitData (syms : Syms) (o : Out) (d : Nat × Nat × Nat × List (List Tok)) : Out :=
  let w := d.2.2.1
  let c : Cx := { loc := d.2.1, syms }
  match atLine d.1 (d.2.2.2.mapM (c.num (-(2 ^ (8 * w - 1))) (2 ^ (8 * w) - 1))) with
  | .ok vs =>
    { o with chunks := o.chunks ++ [{ line := d.1, off := d.2.1, bytes := vs.flatMap (fun v => bytesOf w (BitVec.ofInt (8 * w) v).toNat) }] }
  | .error e => o.add [e]

/-- Insert a chunk by its offset. -/
def insertChunk (c : Chunk) : List Chunk → List Chunk
  | [] => [c]
  | d :: l => if c.off ≤ d.off then c :: d :: l else d :: insertChunk c l

/-- Bytes from chunks in order of offset, zeros between them. -/
def joinChunks : Nat → List Chunk → List Byte
  | _, [] => []
  | n, c :: l => List.replicate (c.off - n) 0 ++ c.bytes ++ joinChunks (max n c.off + c.bytes.length) l

/-- A stream's tasks as a task image from task address 0 (R184, R234). -/
def emitStream (syms : Syms) (o : Out) (st : Nat × String × Nat × List (Nat × Nat × List Tok)) : Out :=
  let rs := st.2.2.2.map (fun t => atLine t.1 ((taskIn { loc := t.2.1, syms } t.2.2).map (fun q =>
    ({ line := t.1, off := t.2.1, bytes := taskBytes q.1 q.2.1 q.2.2 } : Chunk))))
  let b := joinChunks 0 (goods rs)
  { o with
    errors := o.errors ++ bads rs ++ (if o.streams.any (fun p => p.1 = st.2.1) then [{ line := st.1, rule := 234 }] else [])
    streams := o.streams ++ [(st.2.1, b ++ List.replicate (st.2.2.1 - b.length) 0)] }

/-- Chunks that meet in some byte: none may be emitted twice (R234). -/
def meets (a b : Chunk) : Bool := a.off < b.off + b.bytes.length && b.off < a.off + a.bytes.length

/-- Overlaps among chunks in order of offset: each against those that start before it ends. -/
def overlaps : List Chunk → List Diag
  | [] => []
  | c :: l => ((l.filter (meets c)).map (fun d => ({ line := max c.line d.line, rule := 234 } : Diag))) ++ overlaps l

/-- An exported symbol with its value (R234). -/
def emitGlobal (syms : Syms) (o : Out) (g : Nat × String) : Out :=
  match valueOf syms (syms.length + 1) g.2 with
  | .ok v => { o with symbols := o.symbols ++ [(g.2, v)] }
  | .error _ => o.add [{ line := g.1, rule := 234 }]

/-- A tensor name stands for an identifier from 0x0001 to 0xDFFF (R234). -/
def checkTensor (syms : Syms) (o : Out) (g : Nat × String) : Out :=
  match valueOf syms (syms.length + 1) g.2 with
  | .ok v => if 1 ≤ v ∧ v ≤ 0xDFFF then o else o.add [{ line := g.1, rule := 234 }]
  | .error r => o.add [{ line := g.1, rule := r }]

/-- What brasm emits: the code-tensor image, the task images by stream name, the symbol table, and its notes. -/
structure Image where
  code : List Byte
  streams : List (String × List Byte)
  symbols : List (String × Int)
  notes : List Diag
  deriving DecidableEq, Repr

/-- The second pass. -/
def emitAll (p : Pass) : Out :=
  let o := p.kerns.foldl (emitKernel p.syms) {}
  let o := p.data.foldl (emitData p.syms) o
  let o : Out := { o with chunks := o.chunks ++ p.pads.map (fun d => { line := d.1, off := d.2.1, bytes := List.replicate d.2.2 0 }) }
  let o := p.streams.foldl (emitStream p.syms) o
  let o := p.tensors.foldl (checkTensor p.syms) o
  p.globals.foldl (emitGlobal p.syms) o

/-- brasm on the text of a source file: an image, or every diagnostic found and nothing emitted (R229 to R237). -/
def assembleText (text : List Char) : Except (List Diag) Image :=
  let lines := joinLines 1 (splitLines text)
  match passLines {} lines with
  | .error d => .error [d]
  | .ok p =>
    if p.block ≠ .outside then .error [{ line := lines.length, rule := 234 }]
    else
      let o := emitAll p
      let cs := o.chunks.foldr insertChunk []
      let errs := o.errors ++ overlaps (cs.filter (fun c => c.bytes ≠ []))
      if errs = [] then .ok { code := joinChunks 0 cs, streams := o.streams, symbols := o.symbols, notes := o.notes }
      else .error errs

/-- The assembler (R229 to R237). -/
def assemble (text : String) : Except (List Diag) Image := assembleText text.toList

end Sys2Proof.Machine.Brasm
end

