-- ==== Sys2Proof/Safety.lean ====
section
/-! DEFINITION. What counts as a safe run: no step stops. -/

namespace Sys2Proof

/-- A run of `n` steps from a state that neither faults nor is refused. -/
def SafeRun : Nat → Machine.State → Prop
  | 0, _ => True
  | n + 1, s => match Machine.step s with
    | .next s' => SafeRun n s'
    | .fault _ => False
    | .refused _ => False

end Sys2Proof
end

