-- ==== Sys2Proof/Tests/Slice0.lean ====
section
/-! SUPPORT. Tests of the model: words, ill-formed terms, single steps with values worked out from the spec, and for each
statement states and operands that meet its hypotheses. -/

namespace Sys2Proof.Tests

open Sys2Proof Sys2Proof.Machine Sys2Proof.Claims

set_option Elab.async false

/-! ## Small states -/

/-- A slot word's fields: guard P0, waiting; and the negated guard, never true. -/
def hd : Hd := ⟨false, 0, true⟩
def hdNever : Hd := ⟨true, 0, true⟩
def hdNoWait : Hd := ⟨false, 0, false⟩

/-- A descriptor image of R26: rank 1, of partition 0, not secure, format, extent and tile exponent of dimension 0, tile table and number of tiles. -/
def image1 (fmt ext tsh ttb nt : Nat) : Nat :=
  1 + 1 * 2 ^ 1 + fmt * 2 ^ 4 + 2 ^ 30 + ext * 2 ^ 64 + tsh * 2 ^ 256 + (ttb / 16) * 2 ^ 324 + nt * 2 ^ 384
/-- A tile-table entry of R30: present, writable, frame. -/
def entry1 (frame : Nat) : Nat := 3 + frame * 2 ^ 22
/-- Memory with tensor 5, the code, on frame 8, and tensor 9, INT8, on frame 9; a nest of one level in the code at 1024 and a kernel
header at 2048. -/
def memT : List Host.Cell :=
  wrNat (wrNat (wrNat (wrNat (wrNat (wrNat [] 320 (image1 0 16384 14 65536 1) 64) 576 (image1 0 16384 14 65552 1) 64) 65536 (entry1 8) 16)
    65552 (entry1 9) 16) (131072 + 1024) (1 + 0 * 8 + 256 * 2 ^ (8 * 8) + 1 * 2 ^ (8 * 64)) 66) 147456 0x1122334455667788 8

/-- A context that runs on core 0 with every unit at hand. -/
def ctxT : Ctx :=
  { status := .running
    j := { grantx := (0, 128), granty := (0, 128), gmask := 0xFF, ntiles := 8, claimM := true, claimX := true, code := 5, gsize := 1 }
    r := { sregs := [(1, 7), (2, 0x8000000000000001), (3, 0x12345678), (4, 0xFF)], masks := [(2, 0xF0F0)], preds := 2
           aregs := [(0, 9), (5, 0x105), (6, 0x1FC), (18, 5)], rstack := [40] } }

def coreT : Core :=
  { ctxs := [(0, ctxT)], running := some 0
    sp := { groups := [(0, { fmt := 2, held := some 0 })], tiles := [(0, { whi := 1, bhi := 3 }), (1, { whi := 4, bhi := 3, st := .ready }), (2, { whi := 63, bhi := 3 })] }
    vf := { vregs := [(1, 0x3F80000040490FDB12345678), (2, 0x40000000C0000000FFFF0001), (3, 0x7F800000)] }
    mx := { units := [(0, .ready)] }
    xb := { coupling := [{ n := 256, q := 5, e := 0 }], results := [{ op := 77, landed := true, data := 9 }]
            arrays := [(2, { drift := false, monerr := 0, verified := 8 }), (3, { drift := false, monerr := 0 })], xctl := [(2, 5)] } }

/-- Core 0 runs context 0; unit 0 holds the descriptor of tensor 9. -/
def stT : State :=
  { cores := [(0, coreT)], c := { mem := memT }, x := { lunits := [(0, { descs := [{ tid := 9, img := BitVec.ofNat 512 (image1 0 16384 14 65552 1) }] })] }
    t := { nextId := 100 }, h := { boot := .running, fwRun := true } }

/-- Whether an operation fires and with which slots read by reconstruction. -/
def firesB (s : State) (c x : Nat) (i : Instr) (rc : List Nat) : Bool :=
  s.t.fcore = c && (getCore s c).running = some x && !oddOfPair c (getCtx s c x) &&
    (match slotOp i with
      | some op => guardOf op.h (regs s c x) && judge s c x [op] 0 = .go rc
      | none => false)

/-! ### A stream -/

/-- A task header with its condition, destination and immediate. -/
def th (qd : BitVec 4) (imm : BitVec 32) : TaskHdr := ⟨false, 0, false, false, 15, 15, qd, 0, imm⟩
/-- An operand that names a place of the name table, in a mode, with one box of one tile. -/
def opnd (ref : BitVec 16) (mode : BitVec 2) : Operand := ⟨ref, false, mode, false, 0, [⟨0, 0⟩]⟩
/-- An operand that names a tensor. -/
def opndRaw (tid : BitVec 16) (mode : BitVec 2) : Operand := ⟨tid, true, mode, false, 0, [⟨0, 0⟩]⟩
def img9 : BitVec 512 := BitVec.ofNat 512 (image1 0 16384 14 65552 1)

def qT : Queue :=
  { en := true, st := .mapped, eng := some 0, tailb := 1024, filled := 2048, taddr := 64, count := 7
    names := [(1, .template img9 none), (2, .wagon img9 none 7), (3, .raw 9)], q := [(5, 3), (6, 1)] }
/-- Stream 3 is mapped on engine 0; partition 0 owns the slots of pseudo-channel 0 and may hold wagons. -/
def stQ : State :=
  { stT with
    f := { queues := [(3, qT)], wagons := [20, 21], sidings := [(0, [30, 31])], readers := [(7, 1)], wagonPart := [(7, 0)] }
    t := { stT.t with fqueue := 3 }
    x := { stT.x with htt := [(0, 0)] } }

/-- Partition 0 owns every slot of every table, the tables of cluster 0 among them, and key 0. -/
def stF : State :=
  { stQ with
    clusters := [(0, { ptt := (List.range 8).map (fun p => (p, 0)) })]
    x := { stQ.x with htt := (List.range 256).map (fun p => (p, 0)) }
    h := { stQ.h with kvalid := 1 } }
/-! ## Ill-formed terms -/

/-- One operation for each reserved field value (R217, R219, R225). -/
theorem test_illFormed_operations : ([
    .sext hd 3 1 3, .fcvt hd 3 1 1 3 1, .fcvt hd 3 1 1 1 3, .itof hd 3 1 1 0 3, .ftoi hd 3 1 1 3 1, .ftoiN hd 3 1 1 3 1, .vcmpI8 hd .zero 2 4 1 2,
    .vcmpI16 hd .zero 2 4 1 2, .vcmpI32 hd .zero 2 4 1 2, .vcmpN8 hd .zero 2 4 1 2, .vcmpN16 hd .zero 2 4 1 2, .vcmpN32 hd .zero 2 4 1 2,
    .vcmpF16 hd .zero 2 4 1 2, .vcmpB16 hd .zero 2 4 1 2, .vcmpF32 hd .zero 2 4 1 2, .vreds hd .zero 3 1 9, .vredm hd .zero 3 1 9,
    .vredn hd .zero 3 1 9, .vsplat hd .zero 3 1 9, .copy hd .zero 2 1 3 0, .copyo hd .zero 2 1 3 0, .copyn hd .zero 2 1 3 0, .wfill hd .zero 2 2 3 0,
    .gld hd .zero 2 3 0 1, .gst hd .zero 2 3 0 1, .aadd hd .zero 2 2 3 0 0, .aswap hd .zero 2 2 3 0 0, .acas hd .zero 2 2 3 0 0,
    .amin hd .zero 2 2 3 0 0, .amax hd .zero 2 2 3 0 0, .aand hd .zero 2 2 3 0 0, .aor hd .zero 2 2 3 0 0, .pref hd .zero 3 0, .mcfg hd 11 9 1,
    .mcfg hd 8 11 1, .mcfg hd 8 9 3, .xprog hd 1 0 1 0, .xremap hd 2 24, .vabs hd .zero 3 1 3, .vabs hd .zero 3 1 9, .vneg hd .zero 3 1 5,
    .vneg hd .zero 3 1 9] : List Instr).all (fun i => !wellFormed i) = true := by decide +kernel

/-- One task for each check of R168 to R171. -/
theorem test_illFormed_tasks : ([
    .tcopy ⟨false, 0, false, false, 0, 0, 0, 0, 0⟩ [⟨9, true, 1, false, 0, []⟩],
    .tcopy ⟨false, 0, false, false, 0, 0, 0, 0, 0⟩ [⟨9, true, 2, false, 0, []⟩, ⟨9, true, 2, false, 0, []⟩],
    .tcopy ⟨false, 0, false, false, 0, 0, 0, 0, 0⟩ [⟨9, true, 1, false, 0, []⟩, ⟨9, true, 1, false, 0, []⟩],
    .tcopy ⟨false, 0, false, false, 0, 0, 1, 0, 0⟩ [⟨9, true, 1, false, 0, []⟩, ⟨9, true, 2, false, 0, []⟩],
    .tcopy ⟨false, 0, true, false, 0, 0, 0, 0, 0⟩ [⟨9, true, 1, false, 0, []⟩, ⟨9, true, 2, false, 0, []⟩],
    .tfill ⟨false, 0, false, false, 0, 0, 0, 0, 0⟩ [], .tfill ⟨false, 0, false, false, 0, 0, 0, 0, 0⟩ [⟨9, true, 1, false, 0, []⟩],
    .tfill ⟨false, 0, false, true, 0, 0, 0, 0, 0⟩ [⟨9, true, 2, false, 0, []⟩],
    .tdef ⟨false, 1, false, false, 0, 0, 0, 0, 0⟩ [⟨9, false, 2, false, 0, []⟩],
    .tdef ⟨false, 0, false, false, 0, 0, 0, 0, 0⟩ [⟨9, true, 2, false, 0, []⟩],
    .tdef ⟨false, 0, false, false, 0, 0, 0, 0, 0x200000⟩ [⟨9, false, 2, false, 0, []⟩],
    .tdef ⟨false, 0, false, false, 0, 0, 0, 0, 0x150000⟩ [⟨9, false, 2, false, 0, []⟩],
    .tdef ⟨false, 0, false, false, 0, 0, 0, 0, 0⟩ [⟨9, false, 2, false, 0, [⟨0, 0⟩]⟩],
    .tbind ⟨false, 0, false, false, 0, 0, 0, 0, 0x10000⟩ [⟨9, false, 2, false, 0, []⟩],
    .tbind ⟨false, 0, false, false, 0, 0, 0, 0, 0⟩ [⟨9, false, 1, false, 0, []⟩],
    .tdrop ⟨false, 0, false, false, 0, 0, 0, 0, 1⟩ [⟨9, false, 2, false, 0, []⟩], .tdrop ⟨false, 0, false, false, 0, 0, 0, 0, 0⟩ [],
    .tsig ⟨false, 0, false, false, 0, 0, 0, 1, 0⟩ [⟨9, true, 2, false, 0, []⟩],
    .tsig ⟨false, 0, false, false, 0, 0, 0, 0, 0⟩ [⟨9, true, 1, false, 0, []⟩],
    .twait ⟨false, 0, false, false, 0, 0, 0, 6, 0⟩ [⟨9, true, 1, false, 0, []⟩],
    .twait ⟨false, 0, false, false, 0, 0, 0, 0, 0⟩ [⟨9, true, 2, false, 0, []⟩], .tfence ⟨false, 0, false, false, 0, 0, 0, 0, 1⟩ [],
    .tfence ⟨false, 0, false, false, 0, 0, 0, 0, 0⟩ [⟨9, true, 1, false, 0, []⟩], .tset ⟨false, 1, false, false, 0, 0, 0, 0, 0⟩ [],
    .tset ⟨false, 0, false, false, 0, 0, 0, 0, 0⟩ [⟨9, true, 1, false, 0, []⟩], .tadd ⟨false, 0, false, false, 0, 0, 0, 1, 0⟩ [],
    .tadd ⟨false, 0, false, false, 0, 0, 0, 0, 0⟩ [⟨9, true, 1, false, 0, []⟩],
    .tldq ⟨false, 1, false, false, 0, 0, 0, 0, 0⟩ [⟨9, true, 1, false, 0, []⟩],
    .tldq ⟨false, 0, false, false, 0, 0, 0, 0, 0⟩ [⟨9, true, 2, false, 0, []⟩], .tloop ⟨false, 0, false, false, 1, 0, 0, 0, 0⟩ [],
    .tloop ⟨false, 0, false, false, 0, 0, 0, 0, 0⟩ [⟨9, true, 1, false, 0, []⟩], .tjmp ⟨false, 0, false, false, 0, 0, 1, 0, 0⟩ [],
    .tjmp ⟨false, 0, false, false, 0, 0, 0, 0, 0⟩ [⟨9, true, 1, false, 0, []⟩], .tbrz ⟨false, 0, false, false, 0, 0, 0, 1, 0⟩ [],
    .tbrz ⟨false, 0, false, false, 0, 0, 0, 0, 0⟩ [⟨9, true, 1, false, 0, []⟩], .tmark ⟨false, 0, false, false, 0, 0, 1, 0, 0⟩ [],
    .tmark ⟨false, 0, false, false, 0, 0, 0, 0, 0⟩ [⟨9, true, 1, false, 0, []⟩], .tpri ⟨false, 0, false, false, 0, 0, 0, 0, 8⟩ [],
    .tpri ⟨false, 0, false, false, 0, 0, 0, 0, 0⟩ [⟨9, true, 1, false, 0, []⟩], .thalt ⟨false, 0, false, false, 0, 0, 0, 0, 1⟩ [],
    .thalt ⟨false, 0, false, false, 0, 0, 0, 0, 0⟩ [⟨9, true, 1, false, 0, []⟩]] : List Instr).all (fun i => !wellFormed i) = true := by decide +kernel

/-- One event for each name of a part that does not exist. -/
theorem test_illFormed_events : ([
    .cmapnWrite .firmware 10 0, .diagdataRead .firmware 80, .diagdataWrite .firmware 80 0, .cecntClear .firmware 80 0, .cecntClear .firmware 0 40,
    .gctlFormatWrite .firmware 80 0 0, .gctlFormatWrite .firmware 0 8 0, .retireDataBank .firmware 80 0 0, .retireDataBank .firmware 0 8 0,
    .retireParityBank .firmware 80 0, .retireParityBank .firmware 0 8, .retirementEffect 80 0, .retirementEffect 0 8, .rebuild .firmware 80 0,
    .rebuild .firmware 0 8, .rebuildRowStep 80 0, .rebuildRowStep 0 8, .groupDisable .firmware 80 0, .groupDisable .firmware 0 8, .parityDrain 80 0,
    .parityDrain 0 8, .bundleDecode 80, .heldBundleIssue 80, .contextReady 80 0, .contextReady 0 4, .issueLimitExpiry 80, .bundleChunkArrival 80 0,
    .bundleChunkArrival 0 4, .registerResultLanding 80 0 0, .registerResultLanding 0 4 0, .domainWakeComplete 80 0, .domainWakeComplete 0 1024,
    .beatLanding 80, .watchTrap 80 0, .watchTrap 0 4, .peerFlushComplete 96 0, .writebackAck 10 0, .refreshSlot 256, .waypartWrite .firmware 10 0,
    .windowGrowVisit 10, .windowShrinkVisit 10, .coachIssue 96, .rollback 80 0, .rollback 0 4, .rollbackRestore 80 0, .rollbackRestore 0 4,
    .coachComplete 96 0, .coachRetire 96, .wagonFree 8192, .wagonFill 96 0, .twaitLoadReturn 96, .decodeReadReturn 96, .tfenceComplete 96,
    .streamFault 96 0, .faultDeltaRestore 96, .frameZeroed 8, .xbarOpStart 80 0, .xmvmLanding 80 0, .xbarOpComplete 80 0, .autoMonitorRun 80,
    .bankWakeComplete 80, .qtailWrite .firmware 96 0, .ringLineReturn 96, .queueWake .firmware 96, .queueRequest .firmware 96 0,
    .queueEnable .firmware 96, .queueDisable .firmware 96, .streamResume .firmware 96, .streamDiscard .firmware 96, .eventTake 12, .eventDone 12,
    .firmwarePairMismatch 6, .mappingComplete 24, .sliceExpiry 24, .unmap .firmware 24, .unmapSaveComplete 24, .watchdogStage1 96,
    .watchdogStage2 96, .watchdogStage3 96, .clusterMoveStart .firmware 10 0, .clusterMoveSwapped 10, .clusterMoveComplete 10,
    .trapResume .firmware 320, .trapFatal .firmware 320, .knownAnswerCheck 80, .dumpRequest .firmware 320, .dmaskWrite .firmware 320 0,
    .debugHalt .firmware 320, .sample 80, .loopCounterClear .firmware 320, .firmwareCoreAccess 12 ⟨0, 0, .load⟩, .sidingTrim .firmware 27 0,
    .kern ⟨false, 0, false, false, 10, 15, 0, 0, 0⟩ [⟨9, true, 1, false, 0, []⟩],
    .kern ⟨false, 0, false, false, 0, 15, 1, 0, 0⟩ [⟨9, true, 1, false, 0, []⟩],
    .kern ⟨false, 0, false, false, 0, 15, 0, 1, 0⟩ [⟨9, true, 1, false, 0, []⟩],
    .kern ⟨false, 0, false, false, 0, 15, 0, 0, 0⟩ [⟨9, true, 1, false, 0, []⟩, ⟨9, true, 1, false, 0, []⟩, ⟨9, true, 1, false, 0, []⟩, ⟨9, true, 1, false, 0, []⟩, ⟨9, true, 1, false, 0, []⟩, ⟨9, true, 1, false, 0, []⟩, ⟨9, true, 1, false, 0, []⟩, ⟨9, true, 1, false, 0, []⟩, ⟨9, true, 1, false, 0, []⟩],
    .kern ⟨false, 0, false, false, 0, 15, 0, 0, 0⟩ [⟨9, true, 0, false, 0, []⟩],
    .kern ⟨false, 0, false, false, 0, 15, 0, 0, 0⟩ [⟨128, false, 1, false, 0, []⟩],
    .kern ⟨false, 0, false, false, 0, 15, 0, 0, 0⟩ [⟨9, true, 1, false, 0, [⟨0, 0⟩, ⟨0, 0⟩, ⟨0, 0⟩, ⟨0, 0⟩, ⟨0, 0⟩]⟩],
    .gang ⟨false, 0, false, false, 10, 15, 0, 0, 0⟩ [⟨9, true, 1, false, 0, []⟩],
    .gang ⟨false, 0, false, false, 0, 15, 1, 0, 0⟩ [⟨9, true, 1, false, 0, []⟩],
    .gang ⟨false, 0, false, false, 0, 15, 0, 1, 0⟩ [⟨9, true, 1, false, 0, []⟩],
    .gang ⟨false, 0, false, false, 0, 15, 0, 0, 0⟩ [⟨9, true, 1, false, 0, []⟩, ⟨9, true, 1, false, 0, []⟩, ⟨9, true, 1, false, 0, []⟩, ⟨9, true, 1, false, 0, []⟩, ⟨9, true, 1, false, 0, []⟩, ⟨9, true, 1, false, 0, []⟩, ⟨9, true, 1, false, 0, []⟩, ⟨9, true, 1, false, 0, []⟩, ⟨9, true, 1, false, 0, []⟩],
    .gang ⟨false, 0, false, false, 0, 15, 0, 0, 0⟩ [⟨9, true, 0, false, 0, []⟩],
    .gang ⟨false, 0, false, false, 0, 15, 0, 0, 0⟩ [⟨128, false, 1, false, 0, []⟩],
    .gang ⟨false, 0, false, false, 0, 15, 0, 0, 0⟩ [⟨9, true, 1, false, 0, [⟨0, 0⟩, ⟨0, 0⟩, ⟨0, 0⟩, ⟨0, 0⟩, ⟨0, 0⟩]⟩],
    .kern ⟨false, 0, false, false, 15, 3, 0, 0, 0⟩ [⟨9, true, 1, false, 0, []⟩],
    .kern ⟨false, 0, false, false, 0, 8, 0, 0, 0⟩ [⟨9, true, 1, false, 0, []⟩],
    .gang ⟨false, 0, false, false, 0, 3, 0, 0, 0⟩ [⟨9, true, 1, false, 0, []⟩]] : List Instr).all (fun i => !wellFormed i) = true := by decide +kernel

/-- Each check lets the nearest good term pass. -/
theorem test_wellFormed : ([.sext hd 3 1 2, .fcvt hd 3 1 3 2 2, .vcmpF32 hd .zero 3 3 1 2, .vreds hd .zero 3 1 8, .vabs hd .zero 3 1 6, .copy hd .zero 15 255 2 3,
    .mcfg hd 10 10 2, .xprog hd 63 1 63 15, .xremap hd 63 23, .thalt ⟨true, 0, false, false, 0, 0, 0, 0, 0⟩ [],
    .kern ⟨true, 3, true, true, 9, 7, 0, 0, 0xFFFFFFFF⟩ [⟨127, false, 3, true, 15, [⟨0, 0⟩, ⟨0, 0⟩, ⟨0, 0⟩, ⟨0, 0⟩]⟩],
    .debugHalt .firmware 319, .sidingTrim .firmware 26 0, .sidingTrim .firmware 58 0] : List Instr).all wellFormed = true := by decide +kernel

/-- A step refuses an ill-formed term by its fault. -/
theorem test_step_illFormed : step { stT with t := { stT.t with todo := [(0, .sext hd 3 1 3)] } } = .fault .illFormed := rfl

/-! ## Words (R168, R216, R217, R221 to R226, R268, R291, R304, R333) -/

/-- A slot word: N, G, W, OP and the operand field. -/
def word (n g w op f : Nat) : BitVec 32 := BitVec.ofNat 32 (n * 2 ^ 31 + g * 2 ^ 27 + w * 2 ^ 26 + op * 2 ^ 18 + f)

/-- S words: SEL under the guard not P3, layouts RRR, RRI, RI, CP, CVT, PP and MV. -/
theorem test_decode_s :
    decodeSlot 0 (word 1 3 1 0x51 (5 * 2 ^ 12 + 1 * 2 ^ 6 + 2)) = some (.sel ⟨true, 3, true⟩ 5 1 2) ∧
    decodeSlot 0 0x1C045042 = some (.add ⟨false, 3, true⟩ 5 1 2) ∧
    decodeSlot 0 (word 0 0 0 0x15 (63 * 2 ^ 12 + 62 * 2 ^ 6 + 0x20)) = some (.addImm ⟨false, 0, false⟩ 63 62 0x20) ∧
    decodeSlot 0 (word 0 0 1 0x21 (5 * 2 ^ 12 + 0xF)) = some (.setw5 hd 5 0xF) ∧
    decodeSlot 0 (word 0 0 1 0x2D (9 * 2 ^ 14 + 2 * 2 ^ 12 + 4 * 2 ^ 6 + 0x3F)) = some (.cmpLtImm hd 9 2 4 0x3F) ∧
    decodeSlot 0 (word 0 0 1 (0x31 + 3 * 3 + 2) (7 * 2 ^ 12 + 8 * 2 ^ 6 + 9)) = some (.ffmaB16 hd 7 8 9) ∧
    decodeSlot 0 (word 0 0 1 0x4F (7 * 2 ^ 12 + 8 * 2 ^ 6 + 1 * 16 + 2 * 4 + 3)) = some (.ftoiN hd 7 8 1 2 3) ∧
    decodeSlot 0 (word 0 0 1 0x4D (7 * 2 ^ 12 + 8 * 2 ^ 6 + 3 * 16 + 2 * 4 + 1)) = some (.itof hd 7 8 3 1 1) ∧
    decodeSlot 0 (word 0 0 1 0x50 (5 * 2 ^ 14 + 6 * 2 ^ 8 + 4 * 2 ^ 4)) = some (.pmov hd 5 6) ∧
    decodeSlot 0 (word 0 0 1 0x52 (7 * 2 ^ 12 + 16 + 11)) = some (.mova hd 7 1 11) ∧
    decodeSlot 0 (word 0 0 1 0x54 (7 * 2 ^ 12 + 0x1BF)) = some (.mts hd 7 0x1BF) := by decide +kernel

/-- V words, those of the worked case of R268 among them. -/
theorem test_decode_v :
    decodeSlot 1 0x05B04146 = some (.vfmaF32 hd .zero 4 5 6) ∧ decodeSlot 1 0x064520C7 = some (.vcmpF16 hd .zero 2 2 3 7) ∧
    decodeSlot 1 0x06E01097 = some (.vcvtRz hd .zero 1 2 2 7) ∧ decodeSlot 2 0x06745246 = some (.vreds hd .one 5 9 6) ∧
    decodeSlot 1 0x06B51803 = some (.vtest hd .zero 4 6 3) ∧
    decodeSlot 2 (word 0 0 1 0x55 (1 * 2 ^ 12 + 2 * 2 ^ 6 + 3)) = some (.vaddI8 hd .one 1 2 3) ∧
    decodeSlot 1 (word 0 0 1 0x9C (1 * 2 ^ 12 + 2 * 2 ^ 6 + 3)) = some (.vsar32 hd .zero 1 2 3) ∧
    decodeSlot 1 (word 0 0 1 0xA4 (1 * 2 ^ 12 + 0xABC)) = some (.vset16 hd .zero 1 0xABC) ∧
    decodeSlot 1 (word 0 0 1 0xA9 (1 * 2 ^ 12 + 2 * 2 ^ 6 + 7)) = some (.vsel hd .zero 1 2 7) ∧
    decodeSlot 1 (word 0 0 1 0xAE 0x7F) = some (.vframe hd .zero 0x7F) ∧
    decodeSlot 2 (word 0 0 1 0xAF (0 * 2 ^ 15 + 7 * 2 ^ 12 + 6 * 2 ^ 6 + 5)) = some (.kopAnd hd .one 7 6 5) ∧
    decodeSlot 1 (word 0 0 1 0xBD (1 * 2 ^ 12 + 2 * 2 ^ 6 + 3)) = some (.vqmxRu hd .zero 1 2 3) ∧
    decodeSlot 1 (word 0 0 1 0xBF (1 * 2 ^ 12 + 2 * 2 ^ 6 + 3)) = some (.vdq hd .zero 1 2 3) := by decide +kernel

/-- C words, the worked case of R304 among them. -/
theorem test_decode_c :
    decodeSlot 4 0x071840C4 = some (.copy hd .zero 1 3 0 1) ∧ decodeSlot 4 0x072D80C0 = some (.tstat hd .zero 6 3) ∧
    decodeSlot 4 0x07304006 = some (.gld hd .zero 1 0 1 2) ∧ decodeSlot 4 0x07408C0B = some (.acas hd .zero 2 3 0 2 1) ∧
    decodeSlot 4 0x03009291 = some (.ldvX ⟨false, 0, false⟩ .zero 9 5 2 1) ∧
    decodeSlot 5 (word 0 0 1 0xC5 (63 * 2 ^ 12 + 31 * 2 ^ 7 + 15 * 2 ^ 3 + 7)) = some (.sts hd .one 63 31 15 7) ∧
    decodeSlot 5 (word 0 0 1 0xC9 (15 * 2 ^ 14 + 63 * 2 ^ 6 + 2 * 2 ^ 4 + 3 * 2 ^ 2)) = some (.wfill hd .one 15 63 2 3) ∧
    decodeSlot 4 (word 0 0 1 0xD5 (15 * 2 ^ 14 + 63)) = some (.aset hd .zero 15 63) ∧
    decodeSlot 4 (word 0 0 1 0xD8 3) = some (.cfence hd .zero 3) ∧
    decodeSlot 4 (word 0 0 1 0xD9 (1 * 2 ^ 4 + 3 * 2 ^ 2)) = some (.pref hd .zero 1 3) := by decide +kernel

/-- M words, the worked case of R303 among them. -/
theorem test_decode_m :
    decodeSlot 3 0x07743691 = some (.mshift hd 3 0 3 1 17) ∧ decodeSlot 3 0x07744091 = some (.mshift hd 4 0 0 1 17) ∧
    decodeSlot 3 0x07789091 = some (.mdrainF32 hd 9 0 1 17) ∧
    decodeSlot 3 (word 0 0 1 0xDA (8 * 2 ^ 14 + 9 * 2 ^ 10 + 2 * 2 ^ 8)) = some (.mcfg hd 8 9 2) ∧
    decodeSlot 3 (word 0 0 1 0xDB (63 * 2 ^ 12 + 0xFFF)) = some (.mpush hd 63 0xFFF) ∧
    decodeSlot 3 (word 0 0 1 0xDC 0) = some (.mswap hd) ∧ decodeSlot 3 (word 0 0 1 0xE1 (3 * 2 ^ 7)) = some (.mclr hd 3) := by decide +kernel

/-- B words, those of the worked cases of R226 and R252 among them. -/
theorem test_decode_b :
    decodeSlot 6 0xA78FFFFA = some (.br ⟨true, 4, true⟩ 0x3FFFA) ∧ decodeSlot 6 0x079400A0 = some (.call hd 160) ∧
    decodeSlot 6 (word 0 0 1 0xE8 (2 ^ 17 + 63 * 2 ^ 11 + 0x7FF)) = some (.loop hd 63 0x7FF) ∧
    decodeSlot 6 (word 0 0 1 0xE8 (63 * 2 ^ 11 + 63)) = some (.loopReg hd 63 63) ∧
    decodeSlot 6 (word 0 0 1 0xE9 7) = some (.stage hd 7) ∧
    decodeSlot 6 (word 0 0 1 0xEC (15 * 2 ^ 14 + 0x3FFF)) = some (.waitc hd 15 0x3FFF) ∧
    decodeSlot 6 (word 0 0 1 0xF2 (2 ^ 17 + 1 * 2 ^ 15 + 0xFF)) = some (.vgateRet hd 1 0xFF) := by decide +kernel

/-- A words, those after R333 among them. -/
theorem test_decode_a :
    decodeSlot 7 0x07CC2100 = some (.xmvm hd 2 0 2 0 0) ∧ decodeSlot 7 0x07D04400 = some (.xpush hd 4 0 1) ∧
    decodeSlot 7 0x07D49000 = some (.xpop hd 9 0) ∧
    decodeSlot 7 (word 0 0 1 0xF6 (63 * 2 ^ 12 + 2 ^ 11 + 62 * 2 ^ 5 + 15)) = some (.xprog hd 63 1 62 15) ∧
    decodeSlot 7 (word 0 0 1 0xF8 (63 * 2 ^ 12 + 31)) = some (.xremapClr hd 63) ∧
    decodeSlot 7 (word 0 0 1 0xFA (63 * 2 ^ 12 + 2 ^ 11 + 62 * 2 ^ 5 + 8 + 7)) = some (.xcalGain hd 63 1 62 7) ∧
    decodeSlot 7 (word 0 0 1 0xFD (5 * 2 ^ 12 + 63 * 2 ^ 6)) = some (.xstat hd 5 63) ∧
    decodeSlot 7 (word 0 0 1 0xFE (63 * 2 ^ 12 + 62 * 2 ^ 5 + 1)) = some (.xldcVer hd 63 0 62) := by decide +kernel

/-- Tasks: the worked case of R184, a TWAIT with every field, and a TSET with a negative immediate. -/
theorem test_decode_task :
    decodeTask 0x0000000101FE4401 [0x00020001, 0x00040002] =
      some (.kern ⟨false, 2, false, false, 15, 15, 0, 0, 1⟩ [⟨1, false, 1, false, 0, []⟩, ⟨2, false, 2, false, 0, []⟩]) ∧
    decodeTask (BitVec.ofNat 64 (0x21 + 2 ^ 8 + 3 * 2 ^ 9 + 1 * 2 ^ 13 + 15 * 2 ^ 25 + 5 * 2 ^ 29 + 77 * 2 ^ 32)) [BitVec.ofNat 128 (0x700 + 2 ^ 16 + 2 ^ 17)] =
      some (.twait ⟨true, 3, false, false, 0, 0, 15, 5, 77⟩ [⟨0x700, true, 1, false, 0, []⟩]) ∧
    decodeTask (BitVec.ofNat 64 (0x30 + 9 * 2 ^ 25 + 0xFFFFFFFF * 2 ^ 32)) [] = some (.tset ⟨false, 0, false, false, 0, 0, 9, 0, 0xFFFFFFFF⟩ []) := by
  decide +kernel

/-- Words that no instruction has: an opcode of another position, OP 0xFF, a reserved bit, and a reserved field value (R220, R225). -/
theorem test_decode_refuses :
    decodeSlot 0 (word 0 0 1 0x55 0) = none ∧ decodeSlot 1 (word 0 0 1 0x01 0) = none ∧ decodeSlot 7 (word 0 0 1 0xFF 0) = none ∧
    decodeSlot 3 (word 0 0 1 0xDC 1) = none ∧ decodeSlot 0 (word 0 0 1 0x22 3) = none ∧ decodeSlot 0 (word 0 0 1 0x50 (5 * 2 ^ 4)) = none ∧
    decodeSlot 1 (word 0 0 1 0x8B (4 * 2 ^ 12)) = none ∧ decodeSlot 4 (word 0 0 1 0xC6 (3 * 2 ^ 4)) = none ∧
    decodeTask 0x0000000000000005 [] = none ∧ decodeTask 0x0000000000000240 [] = none := by decide +kernel

/-- Which row a table's word names, and that the step fetches it. -/
theorem test_table_word : decodeTableWord 32 0x1C045042 = some (.add ⟨false, 3, true⟩ 5 1 2) := by decide +kernel

/-! ## Single slot operations -/

/-- `stT` with two s registers set. -/
def with2 (a b : Word) : State := modRegs stT 0 0 (fun r => { r with sregs := [(1, a), (2, b), (3, 0x40000000)] })
/-- What holds of the state that an answer gives. -/
def after (o : Host.Outcome State Fault Refusal) (p : State → Bool) : Bool :=
  match o with
  | .next t => p t
  | _ => false
/-- What a write leaves on its way to a register, or in it. -/
def onItsWay (t : State) (d : Dst) : Option Nat := ((getCtx t 0 0).landings.find? (fun l => decide (l.dst = d))).map (fun l => l.val.toNat)
/-- The value that s63 gets from an operation on two values. -/
def gives (i : Instr) (a b : Word) : Option Nat :=
  match exec i (with2 a b) with
  | .next t => some ((onItsWay t (.s 63)).getD (readS (regs t 0 0) 63).toNat)
  | _ => none
/-- The flags that come with it. -/
def flagged (i : Instr) (a b : Word) : Option Nat :=
  match exec i (with2 a b) with
  | .next t => ((getCtx t 0 0).landings.find? (fun l => decide (l.dst = .s 63))).map (fun l => l.flags.toNat)
  | _ => none

/-- R239: the sum wraps; the high halves of the products of all ones; R240: the corners of division. -/
theorem test_integers : gives (.add hd 63 1 2) 0xFFFFFFFFFFFFFFFF 1 = some 0 ∧ gives (.sub hd 63 1 2) 0 1 = some 0xFFFFFFFFFFFFFFFF ∧
    gives (.andn hd 63 1 2) 0xFF 0x0F = some 0xF0 ∧ gives (.shl hd 63 1 2) 1 127 = some 0x8000000000000000 ∧
    gives (.sar hd 63 1 2) 0x8000000000000000 63 = some 0xFFFFFFFFFFFFFFFF ∧
    gives (.mulh hd 63 1 2) 0xFFFFFFFFFFFFFFFF 0xFFFFFFFFFFFFFFFF = some 0 ∧
    gives (.mulhn hd 63 1 2) 0xFFFFFFFFFFFFFFFF 0xFFFFFFFFFFFFFFFF = some 0xFFFFFFFFFFFFFFFE := by decide +kernel
theorem test_division : gives (.div hd 63 1 2) 0x8000000000000000 0xFFFFFFFFFFFFFFFF = some 0x8000000000000000 ∧
    gives (.rem hd 63 1 2) 0x8000000000000000 0xFFFFFFFFFFFFFFFF = some 0 ∧ gives (.div hd 63 1 2) 5 0 = some 0 ∧
    gives (.rem hd 63 1 2) 5 0 = some 5 ∧ gives (.div hd 63 1 2) 0xFFFFFFFFFFFFFFF9 2 = some 0xFFFFFFFFFFFFFFFD ∧
    gives (.rem hd 63 1 2) 0xFFFFFFFFFFFFFFF9 2 = some 0xFFFFFFFFFFFFFFFF ∧ gives (.divn hd 63 1 2) 0xFFFFFFFFFFFFFFF9 2 = some 0x7FFFFFFFFFFFFFFC := by
  decide +kernel
/-- R241, R242: a negative immediate, the signs of parts, counts of bits. -/
theorem test_immediates_and_bits : gives (.addImm hd 63 1 0x20) 0 0 = some 0xFFFFFFFFFFFFFFE0 ∧ gives (.shrImm hd 63 1 63) 0x8000000000000000 0 = some 1 ∧
    gives (.sext hd 63 1 0) 0x80 0 = some 0xFFFFFFFFFFFFFF80 ∧ gives (.clz hd 63 1) 0 0 = some 64 ∧ gives (.clz hd 63 1) 1 0 = some 63 ∧
    gives (.popc hd 63 1) 0xF0F0 0 = some 8 := by decide +kernel
/-- The third SETW of the worked case of R242. -/
theorem test_setw : after (exec (.setw2 hd 1 0x456) (with2 0x789ABC 0)) (fun t => readS (regs t 0 0) 1 = 0x456789ABC) = true := by decide +kernel
/-- R244, R126, R127: 1.5 + 2.5, the tie of 2^24 + 1, infinity less infinity with NV, one part of BF16. -/
theorem test_floats : gives (.faddF32 hd 63 1 2) 0x3FC00000 0x40200000 = some 0x40800000 ∧ gives (.faddF32 hd 63 1 2) 0x4B800000 0x3F800000 = some 0x4B800000 ∧
    gives (.fsubF32 hd 63 1 2) 0x7F800000 0x7F800000 = some 0x7FC00000 ∧ gives (.fmulB16 hd 63 1 2) 0x4040 0x4000 = some 0x40C0 ∧
    gives (.fmulF16 hd 63 1 2) 0x7BFF 0x4000 = some 0x7C00 := by decide +kernel
/-- R246: towards zero, an unsigned target, and both ends of a signed one. -/
theorem test_conversions : gives (.ftoi hd 63 1 1 0 3) 0xC0200000 0 = some 0xFFFFFFFFFFFFFFFE ∧ gives (.ftoiN hd 63 1 0 0 0) 0x43800000 0 = some 255 ∧
    gives (.ftoi hd 63 1 0 0 0) 0x43800000 0 = some 127 ∧ gives (.itof hd 63 1 0 1 0) 0xFFFFFFFFFFFFFFFF 0 = some 0x5F800000 ∧
    gives (.fcvt hd 63 1 0 0 1) 0x477FF000 0 = some 0x7C00 := by decide +kernel
/-- NV of infinity less infinity, DZ never, NX of a tie. -/
theorem test_flags : (flagged (.fsubF32 hd 63 1 2) 0x7F800000 0x7F800000).isSome = true ∧
    flagged (.faddF32 hd 63 1 2) 0x3F800000 0x3F800000 = some 0 ∧ flagged (.faddF32 hd 63 1 2) 0x4B800000 0x3F800000 ≠ some 0 := by decide +kernel
/-- The worked case of R243: P2 and P3 after `cmp.lt p2, s1, s2`, and both cleared by an unconditional compare whose guard is false. -/
theorem test_compare : after (exec (.cmpLt hd 2 0 1 2) (with2 0xFFFFFFFFFFFFFFFF 0)) (fun t => readP (regs t 0 0) 2 = true ∧ readP (regs t 0 0) 3 = false) = true ∧
    after (exec (.cmpLtn ⟨false, 5, true⟩ 2 3 1 2) (modRegs stT 0 0 (fun r => { r with preds := 0x000C }))) (fun t => readP (regs t 0 0) 2 = false ∧ readP (regs t 0 0) 3 = false) = true := by decide +kernel
/-- R206, R248: SEL with a false guard gives its other source; another operation with a false guard writes nothing. -/
theorem test_false_guard : gives (.sel hdNever 63 1 2) 5 9 = some 9 ∧ gives (.sel hd 63 1 2) 5 9 = some 5 ∧ exec (.add hdNever 63 1 2) stT = .next stT := by
  refine ⟨by decide +kernel, by decide +kernel, rfl⟩

/-! ## Vectors -/

/-- `stT` with x3 and x2 set. -/
def withV (a b : Wide) : State := modCore stT 0 (fun k => { k with vf := { k.vf with vregs := [(2, b), (3, a)] } })
/-- The value that x9 gets. -/
def givesV (i : Instr) (a b : Wide) : Option Wide :=
  match exec i (withV a b) with
  | .next t => ((getCtx t 0 0).landings.find? (fun l => decide (l.dst = .v false 9))).map (·.val)
  | _ => none
/-- R269: INT8 sums wrap in each element, saturating ones do not. -/
theorem test_vector_integers : (givesV (.vaddI8 hd .zero 9 3 2) 0x7F 0x01FF01).map (fun v => (el 8 v 0, el 8 v 1, el 8 v 2)) = some (0x80, 0xFF, 0x01) ∧
    (givesV (.vsaddI8 hd .zero 9 3 2) 0x7F 0x01FF01).map (fun v => el 8 v 0) = some 0x7F ∧
    (givesV (.vsar16 hd .zero 9 3 2) 0x8000 15).map (fun v => el 16 v 0) = some 0xFFFF := by decide +kernel
/-- The worked case after R282: the sum of 2^24 and three ones, in pairs, is 16,777,218. -/
theorem test_reduction : (givesV (.vreds hd .zero 9 3 8) (0x4B800000 + 0x3F800000 * 2 ^ 32 + 0x3F800000 * 2 ^ 64 + 0x3F800000 * 2 ^ 96) 0).map
    (fun v => el 32 v 0) = some 0x4B800001 := by decide +kernel
/-- The worked cases of R134 and R279: 5.0, -0.3, 0.03125 and 0.09375 as MXINT8. -/
theorem test_quantise : (givesV (.vqmxRn hd .zero 9 3 2) (0x40A00000 + 0xBE99999A * 2 ^ 32 + 0x3D000000 * 2 ^ 64 + 0x3DC00000 * 2 ^ 96) 0).map
    (fun v => (el 8 v 0, el 8 v 1, el 8 v 2, el 8 v 3, el 8 v 128, el 8 v 129)) = some (0x50, 0xFB, 0x00, 0x02, 0x81, 0x00) := by decide +kernel
/-- The worked case of R139: the levels and the scale of a Q4 block. -/
theorem test_q4 : q4Level 2 5 = 6 ∧ q4Level 2 7 = 12 ∧ (q4Scale 0x3F000000 51 2).1 = 0x3C088889 := by decide +kernel

/-! ## Matrix array: the worked case of R303 -/

/-- Block 0 gives 14 x 2^-1, block 1 gives 7 x 2^-3; together 7.875. -/
theorem test_matrix_product :
    let w : WCol := { levels := BitVec.ofNat 1024 (5 + 4 * 256 + 7 * 2 ^ 256), scales := BitVec.ofNat 128 (0x3F000000 + 0x3E000000 * 2 ^ 32 + 0x3C800000 * 2 ^ 64 + 0x3C800000 * 2 ^ 96) }
    let a : Wide := BitVec.ofNat 2048 (3 + 0xFE * 256 + 1 * 2 ^ 256 + (0x86 + 0x85 * 256 + 0x85 * 2 ^ 16 + 0x85 * 2 ^ 24) * 2 ^ 1024)
    (madCol 8 a w).1 = 0x40FC0000 := by decide +kernel

/-- MCLR clears one tile; BEAT_LANDING adds 7.875 to the 1.0 that the row holds. -/
theorem test_beat_landing : after (exec (.beatLanding 0) { modCore stT 0 (fun k => { k with mx := { k.mx with
      acc := [(128 + 17, 0x3F800000)], beats := [{ due := 0, ctx := 0, tile := 1, row := 17, op := .mad, val := 0x40FC0000, flags := 0 }] } }) with t := stT.t }) (fun t => el 32 (accRow (getCore t 0).mx 1 17) 0 = 0x410E0000) = true := by decide +kernel

/-! ## Scratchpad, memory and tensors -/

/-- R306: LDS of an INT32 element extends its sign; the store of R305 leaves its delta in the queue of parity (R50). -/
theorem test_lds : after (exec (.lds hd .zero 63 0 6 0) (modCore (modRegs stT 0 0 (fun r => { r with aregs := [(6, 0x304)] })) 0 (fun k => { k with sp := { k.sp with rows := [(3, 0xFFFFFFFE * 2 ^ 32)] } }))) (fun t => onItsWay t (.s 63) = some 0xFFFFFFFFFFFFFFFE) = true := by decide +kernel
theorem test_sts : after (exec (.sts hd .zero 2 0 6 0) (modRegs stT 0 0 (fun r => { r with aregs := [(6, 0x304)] }))) (fun t => el 32 (rowOf (getCore t 0) 0 3) 1 = 1 ∧ (getGrp (getCore t 0) 0).queue.length = 1) = true := by decide +kernel
/-- R308: the address register takes its new value at once, a negative immediate. -/
theorem test_aaddi : after (exec (.aaddi hd .zero 5 0xFFF) stT) (fun t => readA (regs t 0 0) false 5 = 0x104) = true := by decide +kernel
/-- The worked case of R29: tile 35, offset 278; and an element's bytes. -/
theorem test_locate :
    ({ valid := true, rank := 3, fmt := 1, order := [1, 0, 2, 0, 0, 0], part := 0, ns := true, ccl := 0, ext := [300, 200, 5, 1, 1, 1], tsh := [6, 7, 0, 0, 0, 0], ttb := 0, nt := 50 } : Desc).locate [130, 150, 3] = (35, 278) := by decide +kernel
/-- The worked case of R319: A first, L = 10, A's a2 = 5, B's b4 = 9. -/
theorem test_atomics :
    let a := performAccess { State.reset with c := { mem := wrNat [] 4096 5 8 } } 0 0 4096 3 (.acas 5 9) 0
    let b := performAccess a.2.2 4 0 4096 3 (.aadd 1) 0
    a.1 = 5 ∧ b.1 = 9 ∧ rdNat b.2.2.c.mem 4096 8 = 10 := by decide +kernel
/-- R318: a load leaves its register empty until its answer. -/
theorem test_gld : after (exec (.gld hd .zero 3 0 1 3) stT) (fun t => emptyA (regs t 0 0) false 3 = true ∧ t.x.reqs.length = 1) = true := by decide +kernel

/-! ## Control -/

/-- The worked case of R252: `call sub` in bundle 40 goes to 200 after its two delay bundles and pushes 43; R250: a branch 6 back. -/
theorem test_call : after (exec (.call hd 160) (modRegs stT 0 0 (fun r => { r with pc := 40, rstack := [] }))) (fun t => (regs t 0 0).redirect = some (3, 200) ∧ (regs t 0 0).rstack = [43]) = true := by decide +kernel
theorem test_br : after (exec (.br hd 0x3FFFA) (modRegs stT 0 0 (fun r => { r with pc := 4 }))) (fun t => (regs t 0 0).redirect = some (3, 0xFFFFFFFE)) = true := by decide +kernel
/-- The worked case of R255: STAGE 2 and LOOP 3 make 5 trips. -/
theorem test_stage_loop : after (exec (.loop hd 4 3) (modRegs stT 0 0 (fun r => { r with pend := some 2 }))) (fun t => (regs t 0 0).loops.map (·.rem) = [5] ∧ readP (regs t 0 0) 8 = true ∧ readP (regs t 0 0) 9 = false) = true := by decide +kernel
/-- R264: BKPT traps with class 13 and its number; R249: CMAPN is privileged. -/
theorem test_bkpt : after (exec (.bkpt hd 77) stT) (fun t => (getCtx t 0 0).status = .trapped ∧ (getCtx t 0 0).trap.map (fun k => (k.cls, k.detail)) = some (13, 77)) = true := by decide +kernel
theorem test_mts_privileged : after (exec (.mts hd 1 0x202) stT) (fun t => (getCtx t 0 0).trap.map (fun k => k.cls) = some 12) = true := by decide +kernel
/-- R214: VGATE.off of bank 7 takes its registers. -/
theorem test_vgate : after (exec (.vgateOff hd 0 0x80) stT) (fun t => domPower (getCore t 0) (7 * 64) = .off) = true := by decide +kernel

/-! ## Crossbar: the worked case of R329 -/

/-- The entry of 3.125, -0.625 and 1.5625: 100, -20 and 50 with e = -5. -/
theorem test_xpush : after (exec (.xpush hd 3 0 1) (withV (0x4048 + 0xBF20 * 2 ^ 16 + 0x3FC8 * 2 ^ 32) 0)) (fun t => (getCore t 0).xb.coupling.getLast?.map (fun e => (e.n, el 8 e.q 0, el 8 e.q 1, el 8 e.q 2, e.e)) = some (128, 100, 236, 50, -5)) = true := by decide +kernel
/-- Its nominal result in column 5: 710. -/
theorem test_nominal :
    let b : XBank := { cells := [(2 * 2 ^ 19 + 0 * 1024 + 5, 11), (2 * 2 ^ 19 + 1 * 1024 + 5, 5), (2 * 2 ^ 19 + 2 * 1024 + 5, 15)]
                       image := [(2 * 2 ^ 19 + 0 * 1024 + 5, 11), (2 * 2 ^ 19 + 1 * 1024 + 5, 5), (2 * 2 ^ 19 + 2 * 1024 + 5, 15)] }
    nominalPart b { id := 0, kind := .xmvm, arr := 2, issued := 0, ctx := 0 } 0 5 ([100, -20, 50] ++ List.replicate 61 0) = 710 := by decide +kernel

/-! ## Tasks and events -/

/-- R182: TADD of -1 in 32 bits wraps in 64; TLOOP at 1 falls through. -/
theorem test_tadd : after (exec (.tadd (th 6 0xFFFFFFFE) []) stQ) (fun t => smGet 0 (getQ t 3).q 6 = 0xFFFFFFFFFFFFFFFF) = true := by decide +kernel
theorem test_tloop : after (exec (.tloop (th 6 5) []) stQ) (fun t => smGet 0 (getQ t 3).q 6 = 0 ∧ (getQ t 3).taddr = 72) = true := by decide +kernel
/-- R78, R394: power-on and warm reset. -/
theorem test_power_on : after (exec .powerOn stQ) (fun t => t.h.boot = .selfTest ∧ t.cores = []) = true := by decide +kernel
/-- R389: a reserved place of control space answers with an error, FCYC reads. -/
theorem test_control_space : after (exec (.controlRegisterWrite .firmware 0xB0000 1) stT) (fun t => t.resp = .error) = true := by decide +kernel
/-- R50: the delta at the head goes into the parity row. -/
theorem test_parity_drain : after (exec (.parityDrain 0 0) { modCore stT 0 (fun k => setGrp k 0 { getGrp k 0 with queue := [⟨9, 0xFF, 0⟩] }) with t := { stT.t with now := 3 } }) (fun t => rowOf (getCore t 0) 32 9 = 0xFF ∧ (getGrp (getCore t 0) 0).queue = []) = true := by decide +kernel


/-! ## The assembler -/

/-- The rules under which a source is rejected. -/
def rejects (src : String) : List Nat := match Brasm.assemble src with | .ok _ => [] | .error ds => ds.map (·.rule)
/-- The kernel that R237 works out: the tile map is 0x61F8_0060 at byte 768, slot 4 of bundle 16 is 0x075C_0100, slot 6 of bundle 19 is 0x07A2_1040. -/
theorem test_brasm_kernel : (match Brasm.assemble
      (".kernel addf, 3, groups=0x3, frames=(1,1), gfmt=(0:5, 1:5)\n.bank 0..3, 0..63, ready ; tile 0\n.mirror x0\n.seg 0x0000_000F\n.org 16\n" ++
       "astr a0, 256 | astr b0, 256\nastr a1, 256 | astr b1, 256\nldv x0, 0, a2, 0 | ldv y0, 0, b2, 0\nloop 64, last\n" ++
       "ldv x1, 4, a0, 0 | ldv y1, 5, b0, 0\nvadd.f16 x2, x1, x0 | vadd.f16 y2, y1, y0\nlast: stv x2, 6, a1, 0 | stv y2, 7, b1, 0\nhalt\n.endk\n") with
    | .ok im => decide (im.code.drop 768 = [0x60#8, 0#8, 0xF8#8, 0x61#8] ∧ (im.code.drop 528).take 4 = [0x00#8, 0x01#8, 0x5C#8, 0x07#8] ∧
        (im.code.drop 632).take 4 = [0x40#8, 0x10#8, 0xA2#8, 0x07#8])
    | .error _ => false) = true := by decide +kernel
/-- R237: a store into a bank of the segment mask is rejected under R157. -/
theorem test_brasm_mask : rejects ".kernel k, 0\n.seg 4\n.org 16\nstv x2, 2, a1, 0\nhalt\n.endk" = [157] := by decide +kernel
/-- R237: a register written after a first access that reads it is rejected under R156. -/
theorem test_brasm_read_first : rejects ".kernel k, 0\n.org 16\nvadd.f16 x2, x2, x1\nhalt\n.endk" = [156] := by decide +kernel
/-- R237's worked kernel with another bundle 20, 21 and 22. -/
def addfWith (b20 b21 b22 : String) : String :=
  ".kernel addf, 3, groups=0x3, frames=(1,1), gfmt=(0:5, 1:5)\n.bank 0..3, 0..63, ready ; tile 0\n.mirror x0\n.seg 0x0000_000F\n.org 16\n" ++
    "astr a0, 256 | astr b0, 256\nastr a1, 256 | astr b1, 256\nldv x0, 0, a2, 0 | ldv y0, 0, b2, 0\nloop 64, last\n" ++
    b20 ++ "\n" ++ b21 ++ "\nlast: " ++ b22 ++ "\nhalt\n.endk\n"
/-- R237's variant whose bundle 21 writes x0, which bundle 18 wrote and bundle 21 reads, is rejected under R156. -/
theorem test_brasm_writes_x0 :
    rejects (addfWith "ldv x1, 4, a0, 0 | ldv y1, 5, b0, 0" "vadd.f16 x0, x1, x0 | vadd.f16 y2, y1, y0" "stv x2, 6, a1, 0 | stv y2, 7, b1, 0") = [156] := by
  decide +kernel
/-- R237's variant whose bundle 22 stores to bank 2 is rejected under R157. -/
theorem test_brasm_stores_to_input :
    rejects (addfWith "ldv x1, 4, a0, 0 | ldv y1, 5, b0, 0" "vadd.f16 x2, x1, x0 | vadd.f16 y2, y1, y0" "stv x2, 2, a1, 0 | stv y2, 7, b1, 0") = [157] := by
  decide +kernel
/-- R237's variant whose bundle 20 reads one bank twice stands. -/
theorem test_brasm_reads_one_bank :
    rejects (addfWith "ldv x1, 4, a0, 0 | ldv y1, 4, b0, 0" "vadd.f16 x2, x1, x0 | vadd.f16 y2, y1, y0" "stv x2, 6, a1, 0 | stv y2, 7, b1, 0") = [] := by
  decide +kernel
/-- R184's worked case: the header of `kern.dev 1, t1.r, t2.w` is 0x0000_0001_01FE_4401. -/
theorem test_brasm_task : (match Brasm.assemble ".stream s\nkern.dev 1, t1.r, t2.w\n.ends" with
    | .ok im => im.streams.map (fun s => s.2.take 8) | .error _ => []) = [[0x01#8, 0x44#8, 0xFE#8, 0x01#8, 0x01#8, 0#8, 0#8, 0#8]] := by decide +kernel
/-! ## States and operands that meet the hypotheses of the statements -/

theorem fires_of {s : State} {c x : Nat} {i : Instr} {rc : List Nat} (h : firesB s c x i rc = true) : Fires s c x i rc := by
  unfold firesB at h
  simp only [Bool.and_eq_true, decide_eq_true_eq, Bool.not_eq_true'] at h
  obtain ⟨⟨⟨h1, h2⟩, h3⟩, h4⟩ := h
  refine ⟨h1, h2, h3, ?_⟩
  split at h4
  · next op he => exact ⟨op, he, by simp only [Bool.and_eq_true, decide_eq_true_eq] at h4; exact h4⟩
  · cases h4

/-- The state that an answer gives. -/
def theNext (s : State) (o : Host.Outcome State Fault Refusal) : State := match o with
  | .next t => t
  | _ => s
def isNextB (o : Host.Outcome State Fault Refusal) : Bool := match o with
  | .next _ => true
  | _ => false
theorem next_of {s : State} {o : Host.Outcome State Fault Refusal} (h : isNextB o = true) : o = .next (theNext s o) := by
  cases o <;> first | rfl | cases h


theorem fires_all {s : State} {c x : Nat} {l : List Instr} (P : Instr → Bool) (h : l.all (fun i => firesB s c x i [] && P i) = true) :
    ∀ i ∈ l, Fires s c x i [] ∧ P i = true := by
  intro i hi
  have := List.all_eq_true.1 h i hi
  simp only [Bool.and_eq_true] at this
  exact ⟨fires_of this.1, this.2⟩

/-- The value that a signal operand names. -/
def okB (o : Except Nat Nat) (t : Nat) : Bool := match o with
  | .ok u => u = t
  | .error _ => false
theorem ok_of {o : Except Nat Nat} {t : Nat} (h : okB o t = true) : o = .ok t := by
  cases o
  · cases h
  · simp only [okB, decide_eq_true_eq] at h; rw [h]

/-- Every slot operation but BKPT fires in `stT`: its checks pass there, so that its statement has states to speak of. -/
theorem wit_slots_fire : ∀ i ∈ ([
    .add hd 3 1 2, .sub hd 3 1 2, .and hd 3 1 2, .or hd 3 1 2, .xor hd 3 1 2, .andn hd 3 1 2, .shl hd 3 1 2, .shr hd 3 1 2, .sar hd 3 1 2,
    .mul hd 3 1 2, .mulh hd 3 1 2, .mulhn hd 3 1 2, .div hd 3 1 2, .divn hd 3 1 2, .rem hd 3 1 2, .remn hd 3 1 2, .min hd 3 1 2, .max hd 3 1 2,
    .minn hd 3 1 2, .maxn hd 3 1 2, .addImm hd 3 1 5, .andImm hd 3 1 5, .orImm hd 3 1 5, .xorImm hd 3 1 5, .shlImm hd 3 1 5, .shrImm hd 3 1 5,
    .sarImm hd 3 1 5, .setw0 hd 3 5, .setw1 hd 3 5, .setw2 hd 3 5, .setw3 hd 3 5, .setw4 hd 3 5, .setw5 hd 3 2, .sext hd 3 1 1, .clz hd 3 1,
    .popc hd 3 1, .cmpEq hd 2 1 1 2, .cmpNe hd 2 1 1 2, .cmpLt hd 2 1 1 2, .cmpLe hd 2 1 1 2, .cmpLtn hd 2 1 1 2, .cmpLen hd 2 1 1 2,
    .cmpEqImm hd 2 1 1 5, .cmpNeImm hd 2 1 1 5, .cmpLtImm hd 2 1 1 5, .cmpLeImm hd 2 1 1 5, .cmpLtnImm hd 2 1 1 5, .cmpLenImm hd 2 1 1 5,
    .faddF32 hd 3 1 2, .faddF16 hd 3 1 2, .faddB16 hd 3 1 2, .fsubF32 hd 3 1 2, .fsubF16 hd 3 1 2, .fsubB16 hd 3 1 2, .fmulF32 hd 3 1 2,
    .fmulF16 hd 3 1 2, .fmulB16 hd 3 1 2, .ffmaF32 hd 3 1 2, .ffmaF16 hd 3 1 2, .ffmaB16 hd 3 1 2, .fminF32 hd 3 1 2, .fminF16 hd 3 1 2,
    .fminB16 hd 3 1 2, .fmaxF32 hd 3 1 2, .fmaxF16 hd 3 1 2, .fmaxB16 hd 3 1 2, .fcmpEqF32 hd 2 1 1 2, .fcmpEqF16 hd 2 1 1 2, .fcmpEqB16 hd 2 1 1 2,
    .fcmpLtF32 hd 2 1 1 2, .fcmpLtF16 hd 2 1 1 2, .fcmpLtB16 hd 2 1 1 2, .fcmpLeF32 hd 2 1 1 2, .fcmpLeF16 hd 2 1 1 2, .fcmpLeB16 hd 2 1 1 2,
    .fcvt hd 3 1 1 1 1, .itof hd 3 1 1 0 1, .ftoi hd 3 1 1 0 1, .ftoiN hd 3 1 1 1 1, .pand hd 2 2 2, .por hd 2 2 2, .pxor hd 2 2 2, .pandn hd 2 2 2,
    .pmov hd 2 2, .sel hd 3 1 2, .mova hd 3 0 2, .mfs hd 3 5, .mts hd 1 5, .vaddI8 hd .zero 3 1 2, .vaddI16 hd .zero 3 1 2, .vaddI32 hd .zero 3 1 2,
    .vaddF16 hd .zero 3 1 2, .vaddB16 hd .zero 3 1 2, .vaddF32 hd .zero 3 1 2, .vsubI8 hd .zero 3 1 2, .vsubI16 hd .zero 3 1 2,
    .vsubI32 hd .zero 3 1 2, .vsubF16 hd .zero 3 1 2, .vsubB16 hd .zero 3 1 2, .vsubF32 hd .zero 3 1 2, .vmulI8 hd .zero 3 1 2,
    .vmulI16 hd .zero 3 1 2, .vmulI32 hd .zero 3 1 2, .vmulF16 hd .zero 3 1 2, .vmulB16 hd .zero 3 1 2, .vmulF32 hd .zero 3 1 2,
    .vfmaI8 hd .zero 3 1 2, .vfmaI16 hd .zero 3 1 2, .vfmaI32 hd .zero 3 1 2, .vfmaF16 hd .zero 3 1 2, .vfmaB16 hd .zero 3 1 2,
    .vfmaF32 hd .zero 3 1 2, .vminI8 hd .zero 3 1 2, .vminI16 hd .zero 3 1 2, .vminI32 hd .zero 3 1 2, .vminN8 hd .zero 3 1 2,
    .vminN16 hd .zero 3 1 2, .vminN32 hd .zero 3 1 2, .vminF16 hd .zero 3 1 2, .vminB16 hd .zero 3 1 2, .vminF32 hd .zero 3 1 2,
    .vmaxI8 hd .zero 3 1 2, .vmaxI16 hd .zero 3 1 2, .vmaxI32 hd .zero 3 1 2, .vmaxN8 hd .zero 3 1 2, .vmaxN16 hd .zero 3 1 2,
    .vmaxN32 hd .zero 3 1 2, .vmaxF16 hd .zero 3 1 2, .vmaxB16 hd .zero 3 1 2, .vmaxF32 hd .zero 3 1 2, .vsaddI8 hd .zero 3 1 2,
    .vsaddI16 hd .zero 3 1 2, .vsaddI32 hd .zero 3 1 2, .vsaddN8 hd .zero 3 1 2, .vsaddN16 hd .zero 3 1 2, .vsaddN32 hd .zero 3 1 2,
    .vssubI8 hd .zero 3 1 2, .vssubI16 hd .zero 3 1 2, .vssubI32 hd .zero 3 1 2, .vssubN8 hd .zero 3 1 2, .vssubN16 hd .zero 3 1 2,
    .vssubN32 hd .zero 3 1 2, .vcmpI8 hd .zero 2 2 1 2, .vcmpI16 hd .zero 2 2 1 2, .vcmpI32 hd .zero 2 2 1 2, .vcmpN8 hd .zero 2 2 1 2,
    .vcmpN16 hd .zero 2 2 1 2, .vcmpN32 hd .zero 2 2 1 2, .vcmpF16 hd .zero 2 2 1 2, .vcmpB16 hd .zero 2 2 1 2, .vcmpF32 hd .zero 2 2 1 2,
    .vshl8 hd .zero 3 1 2, .vshl16 hd .zero 3 1 2, .vshl32 hd .zero 3 1 2, .vshr8 hd .zero 3 1 2, .vshr16 hd .zero 3 1 2, .vshr32 hd .zero 3 1 2,
    .vsar8 hd .zero 3 1 2, .vsar16 hd .zero 3 1 2, .vsar32 hd .zero 3 1 2, .vreds hd .zero 3 1 2, .vredm hd .zero 3 1 2, .vredn hd .zero 3 1 2,
    .vabs hd .zero 3 1 2, .vneg hd .zero 3 1 2, .vsplat hd .zero 3 1 2, .vset8 hd .zero 3 5, .vset16 hd .zero 3 5, .vset32 hd .zero 3 5,
    .vand hd .zero 3 1 2, .vor hd .zero 3 1 2, .vxor hd .zero 3 1 2, .vsel hd .zero 3 1 2, .vperm hd .zero 3 1 2, .vrot hd .zero 3 1 5,
    .xfer hd .zero 3 1, .vtest hd .zero 2 2 1, .vframe hd .zero 1, .kopAnd hd .zero 2 2 2, .kopOr hd .zero 2 2 2, .kopXor hd .zero 2 2 2,
    .kopAndn hd .zero 2 2 2, .kopNot hd .zero 2 2, .kopMov hd .zero 2 2, .vexp2 hd .zero 3 1, .vlog2 hd .zero 3 1, .vrcp hd .zero 3 1,
    .vrsq hd .zero 3 1, .vsclF16 hd .zero 3 1 2, .vsclB16 hd .zero 3 1 2, .vsclF32 hd .zero 3 1 2, .vcvtRn hd .zero 3 1 2 2,
    .vcvtRz hd .zero 3 1 2 2, .vcvtRu hd .zero 3 1 2 2, .vcvtRd hd .zero 3 1 2 2, .vqmxRn hd .zero 3 1 2, .vqmxRz hd .zero 3 1 2,
    .vqmxRu hd .zero 3 1 2, .vqmxRd hd .zero 3 1 2, .vdq hd .zero 3 1 2, .ldvX hd .zero 3 3 2 2, .ldvY hd .zero 3 3 2 2, .stvX hd .zero 3 3 2 2,
    .stvY hd .zero 3 3 2 2, .lds hd .zero 3 3 2 2, .sts hd .zero 3 3 2 2, .copy hd .zero 2 1 0 0, .copyo hd .zero 2 1 0 0, .copyn hd .zero 2 1 0 0,
    .wfill hd .zero 2 2 0 0, .trel hd .zero 1, .tstat hd .zero 2 1, .gld hd .zero 2 0 0 1, .gst hd .zero 2 0 0 1, .aadd hd .zero 2 2 0 0 0,
    .aswap hd .zero 2 2 0 0 0, .acas hd .zero 2 2 0 0 0, .amin hd .zero 2 2 0 0 0, .amax hd .zero 2 2 0 0 0, .aand hd .zero 2 2 0 0 0,
    .aor hd .zero 2 2 0 0 0, .aset hd .zero 2 1, .aaddi hd .zero 2 5, .astr hd .zero 2 5, .cfence hd .zero 1, .pref hd .zero 0 0, .mcfg hd 8 9 1,
    .mpush hd 2 5, .mswap hd, .mshift hd 1 0 1 1 1, .mdrainF32 hd 3 0 1 1, .mdrainF16 hd 3 0 1 1, .mdrainB16 hd 3 0 1 1, .mclr hd 1, .mflush hd,
    .br hd 7, .brx hd 1, .call hd 7, .callx hd 1, .ret hd, .loop hd 2 3, .loopReg hd 2 1, .stage hd 2, .seg hd 1, .rdv hd, .waitc hd 2 9, .yield hd,
    .halt hd, .sys hd 5, .fbreg hd 7, .vgateOn hd 0 1, .vgateRet hd 0 1, .vgateOff hd 0 1, .xmvm hd 2 1 2 1 1, .xpush hd 1 0 0, .xpop hd 1 0,
    .xprog hd 1 0 1 2, .xver hd 1 0 1, .xremap hd 2 3, .xremapClr hd 1, .xmon hd 1, .xcalOff hd 1 0 1 2, .xcalGain hd 1 0 1 2, .xcalMon hd 1,
    .xgate hd, .xwake hd, .xstat hd 3 1, .xldcCode hd 1 0 1, .xldcVer hd 1 0 1] : List Instr),
    Fires stT 0 0 i [] ∧ true = true := fires_all (fun _ => true) (by decide +kernel)

/-- The integer operations of R239 to R242, R248 and R249. -/
theorem wit_IntegerResults : ∀ i ∈ ([
    .add hd 3 1 2, .sub hd 3 1 2, .and hd 3 1 2, .or hd 3 1 2, .xor hd 3 1 2, .andn hd 3 1 2, .shl hd 3 1 2, .shr hd 3 1 2, .sar hd 3 1 2,
    .mul hd 3 1 2, .mulh hd 3 1 2, .mulhn hd 3 1 2, .div hd 3 1 2, .divn hd 3 1 2, .rem hd 3 1 2, .remn hd 3 1 2, .min hd 3 1 2, .max hd 3 1 2,
    .minn hd 3 1 2, .maxn hd 3 1 2, .addImm hd 3 1 5, .andImm hd 3 1 5, .orImm hd 3 1 5, .xorImm hd 3 1 5, .shlImm hd 3 1 5, .shrImm hd 3 1 5,
    .sarImm hd 3 1 5, .setw0 hd 3 5, .setw1 hd 3 5, .setw2 hd 3 5, .setw3 hd 3 5, .setw4 hd 3 5, .setw5 hd 3 2, .sext hd 3 1 1, .clz hd 3 1,
    .popc hd 3 1, .sel hd 3 1 2, .mova hd 3 0 2] : List Instr),
    Fires stT 0 0 i [] ∧ (intResult (regs stT 0 0) i).isSome = true := fires_all (fun i => (intResult (regs stT 0 0) i).isSome) (by decide +kernel)

/-- The floating-point operations of R244 and R246. -/
theorem wit_ScalarFloatResults : ∀ i ∈ ([
    .faddF32 hd 3 1 2, .faddF16 hd 3 1 2, .faddB16 hd 3 1 2, .fsubF32 hd 3 1 2, .fsubF16 hd 3 1 2, .fsubB16 hd 3 1 2, .fmulF32 hd 3 1 2,
    .fmulF16 hd 3 1 2, .fmulB16 hd 3 1 2, .ffmaF32 hd 3 1 2, .ffmaF16 hd 3 1 2, .ffmaB16 hd 3 1 2, .fminF32 hd 3 1 2, .fminF16 hd 3 1 2,
    .fminB16 hd 3 1 2, .fmaxF32 hd 3 1 2, .fmaxF16 hd 3 1 2, .fmaxB16 hd 3 1 2, .fcvt hd 3 1 1 1 1, .itof hd 3 1 1 0 1, .ftoi hd 3 1 1 0 1,
    .ftoiN hd 3 1 1 1 1] : List Instr),
    Fires stT 0 0 i [] ∧ (floatResult (regs stT 0 0) i).isSome = true := fires_all (fun i => (floatResult (regs stT 0 0) i).isSome) (by decide +kernel)

/-- The compares. -/
theorem wit_ComparesWriteTheirPair : ∀ i ∈ ([
    .cmpEq hd 2 1 1 2, .cmpNe hd 2 1 1 2, .cmpLt hd 2 1 1 2, .cmpLe hd 2 1 1 2, .cmpLtn hd 2 1 1 2, .cmpLen hd 2 1 1 2, .cmpEqImm hd 2 1 1 5,
    .cmpNeImm hd 2 1 1 5, .cmpLtImm hd 2 1 1 5, .cmpLeImm hd 2 1 1 5, .cmpLtnImm hd 2 1 1 5, .cmpLenImm hd 2 1 1 5, .fcmpEqF32 hd 2 1 1 2,
    .fcmpEqF16 hd 2 1 1 2, .fcmpEqB16 hd 2 1 1 2, .fcmpLtF32 hd 2 1 1 2, .fcmpLtF16 hd 2 1 1 2, .fcmpLtB16 hd 2 1 1 2, .fcmpLeF32 hd 2 1 1 2,
    .fcmpLeF16 hd 2 1 1 2, .fcmpLeB16 hd 2 1 1 2] : List Instr),
    Fires stT 0 0 i [] ∧ (condOf (regs stT 0 0) i).isSome = true := fires_all (fun i => (condOf (regs stT 0 0) i).isSome) (by decide +kernel)

/-- The predicate operations. -/
theorem wit_PredicateOperationsWriteOnePredicate : ∀ i ∈ ([
    .pand hd 2 2 2, .por hd 2 2 2, .pxor hd 2 2 2, .pandn hd 2 2 2, .pmov hd 2 2] : List Instr),
    Fires stT 0 0 i [] ∧ (predOf (regs stT 0 0) i).isSome = true := fires_all (fun i => (predOf (regs stT 0 0) i).isSome) (by decide +kernel)

/-- The vector integer operations. -/
theorem wit_VectorIntegerResults : ∀ i ∈ ([
    .vaddI8 hd .zero 3 1 2, .vaddI16 hd .zero 3 1 2, .vaddI32 hd .zero 3 1 2, .vsubI8 hd .zero 3 1 2, .vsubI16 hd .zero 3 1 2,
    .vsubI32 hd .zero 3 1 2, .vmulI8 hd .zero 3 1 2, .vmulI16 hd .zero 3 1 2, .vmulI32 hd .zero 3 1 2, .vfmaI8 hd .zero 3 1 2,
    .vfmaI16 hd .zero 3 1 2, .vfmaI32 hd .zero 3 1 2, .vminI8 hd .zero 3 1 2, .vminI16 hd .zero 3 1 2, .vminI32 hd .zero 3 1 2,
    .vminN8 hd .zero 3 1 2, .vminN16 hd .zero 3 1 2, .vminN32 hd .zero 3 1 2, .vmaxI8 hd .zero 3 1 2, .vmaxI16 hd .zero 3 1 2,
    .vmaxI32 hd .zero 3 1 2, .vmaxN8 hd .zero 3 1 2, .vmaxN16 hd .zero 3 1 2, .vmaxN32 hd .zero 3 1 2, .vsaddI8 hd .zero 3 1 2,
    .vsaddI16 hd .zero 3 1 2, .vsaddI32 hd .zero 3 1 2, .vsaddN8 hd .zero 3 1 2, .vsaddN16 hd .zero 3 1 2, .vsaddN32 hd .zero 3 1 2,
    .vssubI8 hd .zero 3 1 2, .vssubI16 hd .zero 3 1 2, .vssubI32 hd .zero 3 1 2, .vssubN8 hd .zero 3 1 2, .vssubN16 hd .zero 3 1 2,
    .vssubN32 hd .zero 3 1 2, .vshl8 hd .zero 3 1 2, .vshl16 hd .zero 3 1 2, .vshl32 hd .zero 3 1 2, .vshr8 hd .zero 3 1 2, .vshr16 hd .zero 3 1 2,
    .vshr32 hd .zero 3 1 2, .vsar8 hd .zero 3 1 2, .vsar16 hd .zero 3 1 2, .vsar32 hd .zero 3 1 2] : List Instr),
    Fires stT 0 0 i [] ∧ (vIntSpec stT 0 0 i).isSome = true := fires_all (fun i => (vIntSpec stT 0 0 i).isSome) (by decide +kernel)

/-- The vector moves. -/
theorem wit_VectorMoveResults : ∀ i ∈ ([
    .vsplat hd .zero 3 1 2, .vset8 hd .zero 3 5, .vset16 hd .zero 3 5, .vset32 hd .zero 3 5, .vand hd .zero 3 1 2, .vor hd .zero 3 1 2,
    .vxor hd .zero 3 1 2, .vsel hd .zero 3 1 2, .vperm hd .zero 3 1 2, .vrot hd .zero 3 1 5, .xfer hd .zero 3 1] : List Instr),
    Fires stT 0 0 i [] ∧ (vMoveSpec stT 0 0 i).isSome = true := fires_all (fun i => (vMoveSpec stT 0 0 i).isSome) (by decide +kernel)

/-- The vector floating-point operations. -/
theorem wit_VectorFloatResults : ∀ i ∈ ([
    .vaddF16 hd .zero 3 1 2, .vaddB16 hd .zero 3 1 2, .vaddF32 hd .zero 3 1 2, .vsubF16 hd .zero 3 1 2, .vsubB16 hd .zero 3 1 2,
    .vsubF32 hd .zero 3 1 2, .vmulF16 hd .zero 3 1 2, .vmulB16 hd .zero 3 1 2, .vmulF32 hd .zero 3 1 2, .vfmaF16 hd .zero 3 1 2,
    .vfmaB16 hd .zero 3 1 2, .vfmaF32 hd .zero 3 1 2, .vminF16 hd .zero 3 1 2, .vminB16 hd .zero 3 1 2, .vminF32 hd .zero 3 1 2,
    .vmaxF16 hd .zero 3 1 2, .vmaxB16 hd .zero 3 1 2, .vmaxF32 hd .zero 3 1 2, .vabs hd .zero 3 1 2, .vneg hd .zero 3 1 2, .vexp2 hd .zero 3 1,
    .vlog2 hd .zero 3 1, .vrcp hd .zero 3 1, .vrsq hd .zero 3 1, .vsclF16 hd .zero 3 1 2, .vsclB16 hd .zero 3 1 2, .vsclF32 hd .zero 3 1 2] : List Instr),
    Fires stT 0 0 i [] ∧ (vFloatSpec stT 0 0 i).isSome = true := fires_all (fun i => (vFloatSpec stT 0 0 i).isSome) (by decide +kernel)

/-- The vector conversions. -/
theorem wit_VectorConversionResults : ∀ i ∈ ([
    .vcvtRn hd .zero 3 1 2 2, .vcvtRz hd .zero 3 1 2 2, .vcvtRu hd .zero 3 1 2 2, .vcvtRd hd .zero 3 1 2 2, .vdq hd .zero 3 1 2] : List Instr),
    Fires stT 0 0 i [] ∧ ((vCvtSpec stT 0 0 i).or (vDqSpec stT 0 0 i)).isSome = true := fires_all (fun i => ((vCvtSpec stT 0 0 i).or (vDqSpec stT 0 0 i)).isSome) (by decide +kernel)

/-- The vector compares. -/
theorem wit_VectorCompareResults : ∀ i ∈ ([
    .vcmpI8 hd .zero 2 2 1 2, .vcmpI16 hd .zero 2 2 1 2, .vcmpI32 hd .zero 2 2 1 2, .vcmpN8 hd .zero 2 2 1 2, .vcmpN16 hd .zero 2 2 1 2,
    .vcmpN32 hd .zero 2 2 1 2, .vcmpF16 hd .zero 2 2 1 2, .vcmpB16 hd .zero 2 2 1 2, .vcmpF32 hd .zero 2 2 1 2] : List Instr),
    Fires stT 0 0 i [] ∧ (vCmps i).isSome = true := fires_all (fun i => (vCmps i).isSome) (by decide +kernel)

/-- The mask operations. -/
theorem wit_MaskOperationResults : ∀ i ∈ ([
    .kopAnd hd .zero 2 2 2, .kopOr hd .zero 2 2 2, .kopXor hd .zero 2 2 2, .kopAndn hd .zero 2 2 2, .kopNot hd .zero 2 2, .kopMov hd .zero 2 2] : List Instr),
    Fires stT 0 0 i [] ∧ (kopOf (regs stT 0 0) i).isSome = true := fires_all (fun i => (kopOf (regs stT 0 0) i).isSome) (by decide +kernel)

/-- The reductions. -/
theorem wit_VectorReductionResults : ∀ i ∈ ([
    .vreds hd .zero 3 1 2, .vredm hd .zero 3 1 2, .vredn hd .zero 3 1 2] : List Instr),
    Fires stT 0 0 i [] ∧ (vRed i).isSome = true := fires_all (fun i => (vRed i).isSome) (by decide +kernel)

/-- What ScalarOperationsIssueWhenSourcesAreFull asks for. -/
theorem wit_ScalarOperationsIssueWhenSourcesAreFull : stT.t.fcore = 0 ∧ (getCore stT 0).running = some 0 ∧ oddOfPair 0 (getCtx stT 0 0) = false ∧
    guardOf hd (regs stT 0 0) = true ∧ PlainPlace (regs stT 0 0) ∧ (∀ n : Nat, n < 64 → emptyS (regs stT 0 0) n = false) ∧
    ∀ i ∈ ([
    .add hd 3 1 2, .sub hd 3 1 2, .and hd 3 1 2, .or hd 3 1 2, .xor hd 3 1 2, .andn hd 3 1 2, .shl hd 3 1 2, .shr hd 3 1 2, .sar hd 3 1 2,
    .mul hd 3 1 2, .mulh hd 3 1 2, .mulhn hd 3 1 2, .div hd 3 1 2, .divn hd 3 1 2, .rem hd 3 1 2, .remn hd 3 1 2, .min hd 3 1 2, .max hd 3 1 2,
    .minn hd 3 1 2, .maxn hd 3 1 2, .addImm hd 3 1 5, .andImm hd 3 1 5, .orImm hd 3 1 5, .xorImm hd 3 1 5, .shlImm hd 3 1 5, .shrImm hd 3 1 5,
    .sarImm hd 3 1 5, .setw0 hd 3 5, .setw1 hd 3 5, .setw2 hd 3 5, .setw3 hd 3 5, .setw4 hd 3 5, .setw5 hd 3 2, .sext hd 3 1 1, .clz hd 3 1,
    .popc hd 3 1, .cmpEq hd 2 1 1 2, .cmpNe hd 2 1 1 2, .cmpLt hd 2 1 1 2, .cmpLe hd 2 1 1 2, .cmpLtn hd 2 1 1 2, .cmpLen hd 2 1 1 2,
    .cmpEqImm hd 2 1 1 5, .cmpNeImm hd 2 1 1 5, .cmpLtImm hd 2 1 1 5, .cmpLeImm hd 2 1 1 5, .cmpLtnImm hd 2 1 1 5, .cmpLenImm hd 2 1 1 5,
    .faddF32 hd 3 1 2, .faddF16 hd 3 1 2, .faddB16 hd 3 1 2, .fsubF32 hd 3 1 2, .fsubF16 hd 3 1 2, .fsubB16 hd 3 1 2, .fmulF32 hd 3 1 2,
    .fmulF16 hd 3 1 2, .fmulB16 hd 3 1 2, .ffmaF32 hd 3 1 2, .ffmaF16 hd 3 1 2, .ffmaB16 hd 3 1 2, .fminF32 hd 3 1 2, .fminF16 hd 3 1 2,
    .fminB16 hd 3 1 2, .fmaxF32 hd 3 1 2, .fmaxF16 hd 3 1 2, .fmaxB16 hd 3 1 2, .fcmpEqF32 hd 2 1 1 2, .fcmpEqF16 hd 2 1 1 2, .fcmpEqB16 hd 2 1 1 2,
    .fcmpLtF32 hd 2 1 1 2, .fcmpLtF16 hd 2 1 1 2, .fcmpLtB16 hd 2 1 1 2, .fcmpLeF32 hd 2 1 1 2, .fcmpLeF16 hd 2 1 1 2, .fcmpLeB16 hd 2 1 1 2,
    .fcvt hd 3 1 1 1 1, .itof hd 3 1 1 0 1, .ftoi hd 3 1 1 0 1, .ftoiN hd 3 1 1 1 1, .pand hd 2 2 2, .por hd 2 2 2, .pxor hd 2 2 2, .pandn hd 2 2 2,
    .pmov hd 2 2, .sel hd 3 1 2] : List Instr), (sSources i).isSome = true := by decide +kernel

/-- SEL and a compare with a false guard. -/
theorem wit_SelWritesTheOtherSource : stT.t.fcore = 0 ∧ (getCore stT 0).running = some 0 ∧ guardOf hdNever (regs stT 0 0) = false ∧
    PlainPlace (regs stT 0 0) ∧ emptyS (regs stT 0 0) 63 = false := by decide +kernel
theorem wit_FalseGuardedComparesClearTheirPair : ∀ i ∈ ([.cmpEq hdNever 2 1 1 2, .cmpNe hdNever 2 1 1 2, .cmpLt hdNever 2 1 1 2, .cmpLe hdNever 2 1 1 2, .cmpLtn hdNever 2 1 1 2, .cmpLen hdNever 2 1 1 2, .cmpEqImm hdNever 2 1 1 5, .cmpNeImm hdNever 2 1 1 5, .cmpLtImm hdNever 2 1 1 5, .cmpLeImm hdNever 2 1 1 5, .cmpLtnImm hdNever 2 1 1 5, .cmpLenImm hdNever 2 1 1 5, .fcmpEqF32 hdNever 2 1 1 2, .fcmpEqF16 hdNever 2 1 1 2, .fcmpEqB16 hdNever 2 1 1 2, .fcmpLtF32 hdNever 2 1 1 2, .fcmpLtF16 hdNever 2 1 1 2, .fcmpLtB16 hdNever 2 1 1 2, .fcmpLeF32 hdNever 2 1 1 2, .fcmpLeF16 hdNever 2 1 1 2, .fcmpLeB16 hdNever 2 1 1 2] : List Instr),
    (slotOp i).isSome = true ∧ (condOf (regs stT 0 0) i).isSome = true := by decide +kernel

/-- VQMX in its four roundings. -/
theorem wit_QuantiseResults : Fires stT 0 0 (.vqmxRn hd .zero 3 1 2) [] ∧ Fires stT 0 0 (.vqmxRz hd .one 3 1 2) [] ∧
    Fires stT 0 0 (.vqmxRu hd .zero 3 1 2) [] ∧ Fires stT 0 0 (.vqmxRd hd .zero 63 1 2) [] :=
  ⟨fires_of (by decide +kernel), fires_of (by decide +kernel), fires_of (by decide +kernel), fires_of (by decide +kernel)⟩

/-- VTEST, and its landing. -/
def stVtest : State := modCtx stT 0 0 (fun v => { v with landings := [{ id := 7, dst := .vtest 15 3 0 64 }] })
theorem wit_VectorTestResults : Fires stT 0 0 (.vtest hd .zero 2 5 1) [] ∧
    ∃ l : Landing, (getCtx stVtest 0 0).landings.find? (fun l => l.id = 7) = some l ∧ l.dst = .vtest 15 3 0 64 ∧ l.req = none ∧ l.ue = none ∧
      l.due ≤ stVtest.t.now ∧ l.flags = 0 :=
  ⟨fires_of (by decide +kernel), { id := 7, dst := .vtest 15 3 0 64 }, by decide +kernel, by decide +kernel, by decide +kernel, by decide +kernel,
    by decide +kernel, by decide +kernel⟩

/-- The words: an operation and its word, a task with its words, a word of a position and what it reads. -/
theorem wit_SlotWordsRoundTrip : wellFormed (.xcalGain hd 63 1 63 7) = true ∧ (encodeSlot (.xcalGain hd 63 1 63 7)).isSome = true := by decide +kernel
theorem wit_TaskWordsRoundTrip :
    let i : Instr := .kern ⟨true, 3, true, true, 9, 7, 0, 0, 0xFFFFFFFF⟩ [⟨127, false, 3, true, 15, [⟨1, 2⟩, ⟨3, 4⟩, ⟨5, 6⟩]⟩]
    wellFormed i = true ∧ (encodeTask i).isSome = true := by decide +kernel
theorem wit_SlotWordsHaveOneReading : (decodeSlot 0 0x04785456).isSome = true ∧ (decodeSlot 6 0x07A21040).isSome = true := by decide +kernel
theorem wit_BundleSlotsAreTheDecodedOperations : (0x04785456 : BitVec 32) ≠ 0 := by decide
theorem wit_SlotOperationIsABundleOfOne : (slotOp (.add hd 3 1 2)).isSome = true ∧ stT.t.fcore = 0 ∧ (getCore stT 0).running = some 0 ∧
    judge stT 0 0 [opAdd hd 3 1 2] 0 = .go [] := by decide +kernel

/-- A step that decodes a bundle, the next-phase steps, and the whole-machine statements. -/
def stCode : State :=
  { modCore stT 0 (fun k => { k with bcache := [(5, 0)] }) with t := { stT.t with todo := [(3, .bundleDecode 0)] }, c := { stT.c with mem := wrNat memT 131072 0x04785456 4 }, h := { stT.h with kvalid := 1 } }
theorem wit_StepRunsTheDecodedBundle :
    let s := stCode
    let c := 0
    let x := 0
    let s1 := { s with t := { s.t with todo := [], fqueue := 3 } }
    let v := getCtx s c x
    let words := bundleWords s (codeOfP v.j) v.r.pc
    let ops := slotsFrom v.r.donemask 0 words
    s.t.todo = [(3, .bundleDecode c)] ∧ c < 80 ∧ followDue s c = none ∧ (getCore s c).running = some x ∧ v.status = .running ∧ v.heldUntil = none ∧
    (getCore s c).nextIssue ≤ s.t.now ∧ broadcast s v = false ∧ mayRun s v = true ∧
    codeHas s (codeOfP v.j) (32 * v.r.pc.toNat) 32 = true ∧ cacheHas (getCore s c) v.j.code.toNat v.r.pc = true ∧
    judge s1 c x ops 0 = .go [] ∧ (ops.any (·.heavy) && decide ((getCore s c).phi < (getCore s c).thrl.toNat)) = false ∧
    comparator (modCore s1 c (fun k => { k with phi := (k.phi + 1) % 8 })) c x words = none := by
  decide +kernel
theorem wit_StepsGoThroughThePhases : State.reset.t.todo = [] := by decide +kernel
theorem wit_SlotOperationsLeaveMemory : (slotOp (.gst hd .zero 5 0 0 0)).isSome = true ∧ isNextB (exec (.gst hd .zero 5 0 0 0) stT) = true := by
  decide +kernel
theorem wit_StepsKeepMemoryCanonical : Memory.wf stCode.c.mem = true ∧ isNextB (step stCode) = true := by decide +kernel
theorem wit_EveryInstructionAnswers : (getCore stT stT.t.fcore).running.isSome = true ∧ isTask (.thalt (th 0 0) []) = true ∧
    (getQ stQ stQ.t.fqueue).live = true ∧ (slotOp .powerOn).isNone = true := by decide +kernel
theorem wit_RoundingIsToNearestEven : (3 : Nat) ≠ 0 := by decide

/-- States and operands that meet the hypotheses of StepRunsTheListedInstruction. -/
theorem wit_StepRunsTheListedInstruction :
    (∃ s : State, ∃ q : Nat, ∃ i : Instr, ∃ r : List (Nat × Instr), (s.t.todo = (q, i) :: r) ∧ (wellFormed i = true)) :=
  ⟨({ stT with t := { stT.t with todo := [(3, .mswap hd)] } }), 3, (.mswap hd), ([]), by decide +kernel⟩

/-- States and operands that meet the hypotheses of ResultsLand. -/
theorem wit_ResultsLand :
    (∃ d : BitVec 6, (d ≠ 0)) ∧
    (∃ d : BitVec 6, (d ≠ 0)) :=
  ⟨⟨63, by decide +kernel⟩,
   ⟨3, by decide +kernel⟩⟩

/-- States and operands that meet the hypotheses of YoungerWriteSquashesOlder. -/
theorem wit_YoungerWriteSquashesOlder :
    (∃ s : State, ∃ c : Nat, ∃ x : Nat, ∃ lat : Nat, ∃ d : BitVec 6, ∃ l : Landing, (d ≠ 0) ∧ (lat ≤ 1) ∧ (getCtx s c x).landings.find? (fun m => m.id = l.id) = some l ∧ (l.dst = .s d.toNat) ∧ (l.req = none) ∧ (l.ue = none) ∧ (l.due ≤ s.t.now)) :=
  ⟨(modCtx stT 0 0 (fun v => { v with landings := [{ id := 4, due := 0, dst := .s 3, val := 9, flags := 2 }] })), 0, 0, 1, 3, ({ id := 4, due := 0, dst := .s 3, val := 9, flags := 2 }), by decide +kernel⟩

/-- States and operands that meet the hypotheses of RegistersReadBackWhatWasWritten. -/
theorem wit_RegistersReadBackWhatWasWritten :
    (∃ n : Nat, (0 < n) ∧ (n < 64)) ∧
    (∃ n : Nat, ∃ m : Nat, (0 < n) ∧ (n < 16) ∧ (m < 16)) ∧
    (∃ n : Nat, ∃ m : Nat, (n < 16) ∧ (m < 16)) ∧
    (∃ n : Nat, ∃ m : Nat, (n < 8) ∧ (m < 8)) :=
  ⟨⟨63, by decide +kernel⟩,
   ⟨15, 1, by decide +kernel⟩,
   ⟨15, 0, by decide +kernel⟩,
   ⟨7, 0, by decide +kernel⟩⟩

/-- States and operands that meet the hypotheses of NopChangesNothing. -/
theorem wit_NopChangesNothing :
    (∃ s : State, ∃ x : Nat, (getCore s s.t.fcore).running = some x) :=
  ⟨stT, 0, by decide +kernel⟩

/-- States and operands that meet the hypotheses of FalseGuardDoesNothing. -/
theorem wit_FalseGuardDoesNothing :
    (∃ s : State, ∃ c : Nat, ∃ x : Nat, ∃ i : Instr, ∃ op : SlotOp, (slotOp i = some op) ∧ (s.t.fcore = c) ∧ (getCore s c).running = some x ∧ (guardOf op.h (regs s c x) = false) ∧ (stepOne (getCtx s c x) [op] = none) ∧ (match i with | .sel .. | .cmpEq .. | .cmpNe .. | .cmpLt .. | .cmpLe .. | .cmpLtn .. | .cmpLen .. | .cmpEqImm .. | .cmpNeImm .. | .cmpLtImm .. | .cmpLeImm .. | .cmpLtnImm .. | .cmpLenImm .. | .fcmpEqF32 .. | .fcmpEqF16 .. | .fcmpEqB16 .. | .fcmpLtF32 .. | .fcmpLtF16 .. | .fcmpLtB16 .. | .fcmpLeF32 .. | .fcmpLeF16 .. | .fcmpLeB16 .. | .copy .. | .copyo .. | .copyn .. | .wfill .. => False | _ => True)) :=
  ⟨stT, 0, 0, (.add hdNever 3 1 2), (opAdd hdNever 3 1 2), rfl, by decide +kernel⟩

/-- States and operands that meet the hypotheses of EmptySourceWaitsOrTraps. -/
theorem wit_EmptySourceWaitsOrTraps :
    (∃ s : State, ∃ c : Nat, ∃ x : Nat, ∃ h : Hd, ∃ d : BitVec 6, ∃ a : BitVec 6, ∃ b : BitVec 6, (s.t.fcore = c) ∧ (getCore s c).running = some x ∧ (guardOf h (regs s c x) = true) ∧ (stepOne (getCtx s c x) [opAdd h d a b] = none) ∧ (emptyS (regs s c x) a.toNat = true)) ∧
    (∃ s : State, ∃ c : Nat, ∃ x : Nat, ∃ h : Hd, ∃ d : BitVec 6, ∃ a : BitVec 6, ∃ b : BitVec 6, (s.t.fcore = c) ∧ (getCore s c).running = some x ∧ (guardOf h (regs s c x) = true) ∧ (stepOne (getCtx s c x) [opAdd h d a b] = none) ∧ (emptyS (regs s c x) a.toNat = true)) :=
  ⟨⟨(modRegs stT 0 0 (fun r => { r with sEmpty := 2 })), 0, 0, hd, 3, 1, 2, by decide +kernel⟩,
   ⟨(modRegs stT 0 0 (fun r => { r with sEmpty := 2 })), 0, 0, hdNoWait, 3, 1, 2, by decide +kernel⟩⟩

/-- States and operands that meet the hypotheses of TwoWritersTrap. -/
theorem wit_TwoWritersTrap :
    (∃ d : BitVec 6, (d ≠ 0)) :=
  ⟨3, by decide +kernel⟩

/-- States and operands that meet the hypotheses of FrameMovesInsideTheGrant. -/
theorem wit_FrameMovesInsideTheGrant :
    (∃ s : State, ∃ c : Nat, ∃ x : Nat, ∃ h : Hd, (s.t.fcore = c) ∧ (getCore s c).running = some x ∧ (oddOfPair c (getCtx s c x) = false) ∧ (guardOf h (regs s c x) = true) ∧ (PlainPlace (regs s c x))) :=
  ⟨stT, 0, 0, hd, by decide +kernel⟩

/-- States and operands that meet the hypotheses of MatrixSetUpResults. -/
theorem wit_MatrixSetUpResults :
    (∃ s : State, ∃ c : Nat, ∃ x : Nat, ∃ rc : List Nat, ∃ h : Hd, ∃ a : BitVec 4, ∃ b : BitVec 4, ∃ o : BitVec 2, (Fires s c x (.mcfg h a b o) rc)) ∧
    (∃ s : State, ∃ c : Nat, ∃ x : Nat, ∃ rc : List Nat, ∃ h : Hd, ∃ col : BitVec 6, ∃ w : BitVec 12, let bf := (mx s c).mBF
      (Fires s c x (.mpush h col w) rc) ∧ (bf = 0 ∨ bf = 8 ∨ bf = 9 ∨ bf = 10)) ∧
    (∃ s : State, ∃ c : Nat, ∃ x : Nat, ∃ rc : List Nat, ∃ h : Hd, (Fires s c x (.mswap h) rc)) ∧
    (∃ s : State, ∃ c : Nat, ∃ x : Nat, ∃ rc : List Nat, ∃ h : Hd, ∃ t : BitVec 2, (Fires s c x (.mclr h t) rc)) ∧
    (∃ s : State, ∃ c : Nat, ∃ x : Nat, ∃ rc : List Nat, ∃ h : Hd, (Fires s c x (.mflush h) rc)) :=
  ⟨⟨stT, 0, 0, ([]), hd, 8, 9, 1, fires_of (by decide +kernel)⟩,
   ⟨stT, 0, 0, ([]), hd, 63, 0x3F, fires_of (by decide +kernel), by decide +kernel⟩,
   ⟨stT, 0, 0, ([]), hd, fires_of (by decide +kernel)⟩,
   ⟨stT, 0, 0, ([]), hd, 3, fires_of (by decide +kernel)⟩,
   ⟨stT, 0, 0, ([]), hd, fires_of (by decide +kernel)⟩⟩

/-- States and operands that meet the hypotheses of MatrixBeatResults. -/
theorem wit_MatrixBeatResults :
    (∃ s : State, ∃ c : Nat, ∃ x : Nat, ∃ rc : List Nat, ∃ h : Hd, ∃ v : BitVec 6, ∃ f : BitVec 1, ∃ o : BitVec 2, ∃ t : BitVec 2, ∃ r : BitVec 7, (Fires s c x (.mshift h v f o t r) rc)) ∧
    (∃ s : State, ∃ c : Nat, ∃ b : Beat, ∃ l : List Beat, (mx s c).beats = b :: l ∧ (b.due ≤ s.t.now) ∧ (∀ b' ∈ l, s.t.now < b'.due) ∧ (b.row < 128)) ∧
    (∃ s : State, ∃ c : Nat, ∃ x : Nat, ∃ rc : List Nat, ∃ i : Instr, ∃ fmt : Ff, ∃ h : Hd, ∃ d : BitVec 6, ∃ f : BitVec 1, ∃ t : BitVec 2, ∃ r : BitVec 7, (Fires s c x i rc) ∧ (i = .mdrainF32 h d f t r ∧ fmt = .f32 ∨ i = .mdrainF16 h d f t r ∧ fmt = .f16 ∨ i = .mdrainB16 h d f t r ∧ fmt = .b16)) :=
  ⟨⟨stT, 0, 0, ([]), hd, 1, 0, 3, 3, 127, fires_of (by decide +kernel)⟩,
   ⟨({ modCore stT 0 (fun k => { k with mx := { k.mx with beats := [{ due := 5, ctx := 0, tile := 1, row := 127, op := .csl, val := 0x40000000, flags := 0 }, { due := 7, ctx := 0, tile := 1, row := 0, op := .mad, val := 1, flags := 0 }] } }) with t := { stT.t with now := 5 } }), 0, ({ due := 5, ctx := 0, tile := 1, row := 127, op := .csl, val := 0x40000000, flags := 0 }), ([{ due := 7, ctx := 0, tile := 1, row := 0, op := .mad, val := 1, flags := 0 }]), by decide +kernel⟩,
   ⟨stT, 0, 0, ([]), (.mdrainF16 hd 63 1 3 127), .f16, hd, 63, 1, 3, 127, fires_of (by decide +kernel), by decide +kernel⟩⟩

/-- States and operands that meet the hypotheses of IntegerProductsAreExact. -/
theorem wit_IntegerProductsAreExact :
    (∃ w : WCol, (w.two = false) ∧ (∀ b, b < 4 → w.scale b = 0x3F800000)) :=
  ⟨({ levels := 0x0180FF0304, scales := 0x3F8000003F8000003F8000003F800000 }), by decide +kernel⟩

/-- States and operands that meet the hypotheses of ScratchpadLoadResults. -/
theorem wit_ScratchpadLoadResults :
    (∃ s : State, ∃ c : Nat, ∃ x : Nat, ∃ i : Instr, ∃ rc : List Nat, ∃ k : Option Bool, ∃ u : Unit2, ∃ d : BitVec 6, ∃ b : BitVec 5, ∃ r : BitVec 4, ∃ m : BitVec 3, (Fires s c x i rc) ∧ (loadOf i = some (k, u, d, b, r, m))) :=
  ⟨stT, 0, 0, (.lds hd .zero 3 0 6 1), ([]), none, .zero, 3, 0, 6, 1, fires_of (by decide +kernel), rfl⟩

/-- States and operands that meet the hypotheses of ScratchpadStoreResults. -/
theorem wit_ScratchpadStoreResults :
    (∃ s : State, ∃ c : Nat, ∃ x : Nat, ∃ i : Instr, ∃ rc : List Nat, ∃ k : Option Bool, ∃ u : Unit2, ∃ d : BitVec 6, ∃ b : BitVec 5, ∃ r : BitVec 4, ∃ m : BitVec 3, (Fires s c x i rc) ∧ (storeOf i = some (k, u, d, b, r, m))) ∧
    (∃ s : State, ∃ c : Nat, ∃ x : Nat, ∃ i : Instr, ∃ rc : List Nat, ∃ k : Option Bool, ∃ u : Unit2, ∃ d : BitVec 6, ∃ b : BitVec 5, ∃ r : BitVec 4, ∃ m : BitVec 3, (Fires s c x i rc) ∧ (storeOf i = some (k, u, d, b, r, m))) :=
  ⟨⟨stT, 0, 0, (.sts hd .zero 3 0 6 1), ([]), none, .zero, 3, 0, 6, 1, fires_of (by decide +kernel), rfl⟩,
   ⟨stT, 0, 0, (.stvY hd .zero 3 31 5 1), ([]), (some true), .zero, 3, 31, 5, 1, fires_of (by decide +kernel), rfl⟩⟩

/-- States and operands that meet the hypotheses of ParityKeepsCovering. -/
theorem wit_ParityKeepsCovering :
    (∃ s : State, ∃ t : State, ∃ c : Nat, ∃ g : Nat, ∃ i : Instr, ((∃ a, storeOf i = some a) ∧ s.t.fcore = c ∨ i = .parityDrain c g) ∧ (exec i s = .next t) ∧ (g < 8) ∧ (getGrp (getCore s c) g).ret = none ∧ (getGrp (getCore s c) g).pret = false ∧ (ParityCovers (getCore s c) g)) ∧
    (∃ s : State, ∃ t : State, ∃ c : Nat, ∃ g : Nat, ∃ i : Instr, ((∃ a, storeOf i = some a) ∧ s.t.fcore = c ∨ i = .parityDrain c g) ∧ (exec i s = .next t) ∧ (g < 8) ∧ (getGrp (getCore s c) g).ret = none ∧ (getGrp (getCore s c) g).pret = false ∧ (ParityCovers (getCore s c) g)) :=
  ⟨⟨stT, (theNext stT (exec (.parityDrain 0 0) stT)), 0, 0, (.parityDrain 0 0), .inr rfl, next_of (by decide +kernel), by decide +kernel⟩,
   ⟨stT, (theNext stT (exec (.sts hd .zero 3 0 6 1) stT)), 0, 0, (.sts hd .zero 3 0 6 1), .inl ⟨⟨_, rfl⟩, rfl⟩, next_of (by decide +kernel), by decide +kernel⟩⟩

/-- States and operands that meet the hypotheses of AddressRegisterResults. -/
theorem wit_AddressRegisterResults :
    (∃ s : State, ∃ c : Nat, ∃ x : Nat, ∃ rc : List Nat, ∃ h : Hd, ∃ u : Unit2, ∃ d : BitVec 4, ∃ a : BitVec 6, (Fires s c x (.aset h u d a) rc)) ∧
    (∃ s : State, ∃ c : Nat, ∃ x : Nat, ∃ rc : List Nat, ∃ h : Hd, ∃ u : Unit2, ∃ d : BitVec 4, ∃ i : BitVec 12, (Fires s c x (.aaddi h u d i) rc)) ∧
    (∃ s : State, ∃ c : Nat, ∃ x : Nat, ∃ rc : List Nat, ∃ h : Hd, ∃ u : Unit2, ∃ d : BitVec 4, ∃ i : BitVec 12, (Fires s c x (.astr h u d i) rc)) ∧
    (∃ n : Nat, (n < 16)) :=
  ⟨⟨stT, 0, 0, ([]), hd, .zero, 15, 63, fires_of (by decide +kernel)⟩,
   ⟨stT, 0, 0, ([]), hd, .zero, 15, 0xFFF, fires_of (by decide +kernel)⟩,
   ⟨stT, 0, 0, ([]), hd, .zero, 15, 0xFFF, fires_of (by decide +kernel)⟩,
   ⟨15, by decide +kernel⟩⟩

/-- States and operands that meet the hypotheses of TileOperationResults. -/
theorem wit_TileOperationResults :
    (∃ s : State, ∃ c : Nat, ∃ x : Nat, ∃ rc : List Nat, ∃ h : Hd, ∃ u : Unit2, ∃ n : BitVec 8, (Fires s c x (.trel h u n) rc)) ∧
    (∃ s : State, ∃ c : Nat, ∃ x : Nat, ∃ rc : List Nat, ∃ h : Hd, ∃ u : Unit2, ∃ p : BitVec 4, ∃ n : BitVec 8, (Fires s c x (.tstat h u p n) rc)) :=
  ⟨⟨stT, 0, 0, ([]), hd, .zero, 7, fires_of (by decide +kernel)⟩,
   ⟨stT, 0, 0, ([]), hd, .zero, 2, 7, fires_of (by decide +kernel)⟩⟩

/-- States and operands that meet the hypotheses of AcceptedCopiesTakeTheirEffects. -/
theorem wit_AcceptedCopiesTakeTheirEffects :
    (∃ s : State, ∃ c : Nat, ∃ x : Nat, ∃ i : Instr, ∃ rc : List Nat, ∃ u : Unit2, ∃ n : BitVec 4, ∃ r : Req, ∃ d : Desc, (Fires s c x i rc) ∧ (copyOf s c x i = some (u, n, r)) ∧ (r.tid ≠ 0) ∧ (descIn s (unitNo c u) r.tid = some d)) ∧
    (∃ s : State, ∃ c : Nat, ∃ x : Nat, ∃ i : Instr, ∃ rc : List Nat, ∃ u : Unit2, ∃ n : BitVec 4, ∃ r : Req, ∃ d : Desc, (Fires s c x i rc) ∧ (copyOf s c x i = some (u, n, r)) ∧ (r.tid ≠ 0) ∧ (descIn s (unitNo c u) r.tid = some d)) :=
  ⟨⟨stT, 0, 0, (.copy hd .zero 15 0 0 0), ([]), .zero, 15, ({ request stT 0 0 .zero .copy 0 0 with ctr := 15, tile := 0 }), (descOf (BitVec.ofNat 512 (image1 0 16384 14 65552 1))), fires_of (by decide +kernel), by decide +kernel⟩,
   ⟨stT, 0, 0, (.wfill hd .zero 15 63 0 0), ([]), .zero, 15, ({ request stT 0 0 .zero .wfill 0 0 with ctr := 15, tile := 63 }), (descOf (BitVec.ofNat 512 (image1 0 16384 14 65552 1))), fires_of (by decide +kernel), by decide +kernel⟩⟩

/-- States and operands that meet the hypotheses of FalseGuardedCopiesMakeReady. -/
theorem wit_FalseGuardedCopiesMakeReady :
    (∃ s : State, ∃ c : Nat, ∃ x : Nat, ∃ h : Hd, ∃ hint : BitVec 2, (s.t.fcore = c) ∧ (getCore s c).running = some x ∧ (guardOf h (regs s c x) = false) ∧ (PlainPlace (regs s c x)) ∧ (hint ≠ 3)) :=
  ⟨stT, 0, 0, hdNever, 0, by decide +kernel⟩

/-- States and operands that meet the hypotheses of AccessesLeaveTheCoreAtIssue. -/
theorem wit_AccessesLeaveTheCoreAtIssue :
    (∃ s : State, ∃ c : Nat, ∃ x : Nat, ∃ i : Instr, ∃ rc : List Nat, ∃ u : Unit2, ∃ d : BitVec 4, ∃ r : Req, (Fires s c x i rc) ∧ (accessOf s c x i = some (u, d, r))) ∧
    (∃ s : State, ∃ c : Nat, ∃ x : Nat, ∃ i : Instr, ∃ rc : List Nat, ∃ u : Unit2, ∃ d : BitVec 4, ∃ r : Req, (Fires s c x i rc) ∧ (accessOf s c x i = some (u, d, r))) ∧
    (∃ s : State, ∃ c : Nat, ∃ x : Nat, ∃ rc : List Nat, ∃ h : Hd, ∃ u : Unit2, ∃ hint : BitVec 2, ∃ q : BitVec 2, (Fires s c x (.pref h u hint q) rc)) ∧
    (∃ s : State, ∃ c : Nat, ∃ x : Nat, ∃ rc : List Nat, ∃ h : Hd, ∃ u : Unit2, ∃ hint : BitVec 2, ∃ q : BitVec 2, (Fires s c x (.pref h u hint q) rc)) :=
  ⟨⟨stT, 0, 0, (.gld hd .zero 15 0 0 3), ([]), .zero, 15, ({ request stT 0 0 .zero .gld 0 0 with lw := 3 }), fires_of (by decide +kernel), by decide +kernel⟩,
   ⟨stT, 0, 0, (.acas hd .zero 5 0 0 0 1), ([]), .zero, 5, ({ request stT 0 0 .zero .acas 0 0 with lw := 3, val := 9, cmp := 0x105 }), fires_of (by decide +kernel), by decide +kernel⟩,
   ⟨stT, 0, 0, ([]), hd, .zero, 0, 0, fires_of (by decide +kernel)⟩,
   ⟨stT, 0, 0, ([]), hd, .zero, 1, 0, fires_of (by decide +kernel)⟩⟩

/-- States and operands that meet the hypotheses of FencesPublishTheContextsVersions. -/
theorem wit_FencesPublishTheContextsVersions :
    (∃ s : State, ∃ c : Nat, ∃ x : Nat, ∃ rc : List Nat, ∃ h : Hd, ∃ u : Unit2, ∃ sc : BitVec 2, (Fires s c x (.cfence h u sc) rc) ∧ (c < 80) ∧ (x < 4)) ∧
    (∃ s : State, ∃ c : Nat, ∃ x : Nat, ∃ rc : List Nat, ∃ h : Hd, ∃ u : Unit2, ∃ sc : BitVec 2, (Fires s c x (.cfence h u sc) rc) ∧ (c < 80) ∧ (x < 4)) :=
  ⟨⟨({ modCtx stT 0 0 (fun v => { v with maxTs := 9, j := { v.j with job := some 60 } }) with c := { stT.c with versions := [{ id := 1, ts := 9, job := some 60, bytes := [(147456, 7)] }, { id := 2, ts := 8, job := some 60, rank := 1, bytes := [(147457, 7)] }] } }), 0, 0, ([]), hd, .zero, 0, fires_of (by decide +kernel), by decide +kernel⟩,
   ⟨({ modCtx stT 0 0 (fun v => { v with maxTs := 9, j := { v.j with job := some 60 } }) with c := { stT.c with versions := [{ id := 1, ts := 9, job := some 60, bytes := [(147456, 7)] }, { id := 2, ts := 8, job := some 60, rank := 1, bytes := [(147457, 7)] }] } }), 0, 0, ([]), hd, .zero, 3, fires_of (by decide +kernel), by decide +kernel⟩⟩

/-- States and operands that meet the hypotheses of AccessesReadAndWriteTheirWord. -/
theorem wit_AccessesReadAndWriteTheirWord :
    (∃ s : State, ∃ agent : Nat, ∃ lc : Nat, ∃ a : Nat, ∃ lw : Nat, ∃ k : AccKind, let p := performAccess s agent lc a lw k 0
      (s.c.versions = []) ∧ (lw ≤ 3) ∧ (a % 2 ^ lw = 0) ∧ (∀ p ∈ s.c.lineKeys, p.1 ≠ lineOf a) ∧ (leaseHit s agent lc (lineOf a) = none)) ∧
    (∃ s : State, ∃ agent : Nat, ∃ lc : Nat, ∃ a : Nat, ∃ lw : Nat, ∃ k : AccKind, let p := performAccess s agent lc a lw k 0
      (s.c.versions = []) ∧ (lw ≤ 3) ∧ (a % 2 ^ lw = 0) ∧ (∀ p ∈ s.c.lineKeys, p.1 ≠ lineOf a) ∧ (leaseHit s agent lc (lineOf a) = none)) :=
  ⟨⟨stT, 0, 3, 147456, 3, .load, by dsimp only; decide +kernel⟩,
   ⟨stT, 0, 3, 147456, 2, (.amin 0xFFFFFFFF80000000), by dsimp only; decide +kernel⟩⟩

/-- States and operands that meet the hypotheses of AccessesDeliverTheirWord. -/
theorem wit_AccessesDeliverTheirWord :
    (∃ s : State, ∃ id : Nat, ∃ r : Req, (∀ k, r.tick = some k → (smGet {} s.x.tickets k).met = []) ∧ (s.x.reqs.find? (fun p => p.1 = id) = some (id, r)) ∧ (r.id = id) ∧ (r.fe = none) ∧ (r.mirror = false) ∧ (r.kind ≠ .tsig) ∧ (r.core < 80) ∧ (r.ctx < 4) ∧ (r.st ≠ .stopped) ∧ (accessBack s r = true) ∧ (olderAccess s r = false) ∧ (poisoned s r.addr = false)) :=
  ⟨({ modCtx stT 0 0 (fun v => { v with landings := [{ id := 51, dst := .a false 3, req := some 50 }] }) with x := { stT.x with reqs := [(50, { id := 50, kind := .gld, addr := 147456, lw := 3, job := none, tick := some 60 })], tickets := [(60, { due := 0 })] } }), 50, ({ id := 50, kind := .gld, addr := 147456, lw := 3, job := none, tick := some 60 }), (fun k hk => by cases hk <;> decide +kernel), by decide +kernel⟩

/-- States and operands that meet the hypotheses of CrossbarProductResults. -/
theorem wit_CrossbarProductResults :
    (∃ s : State, ∃ c : Nat, ∃ x : Nat, ∃ rc : List Nat, ∃ h : Hd, ∃ v : BitVec 6, ∃ f : BitVec 1, ∃ cv : BitVec 1, (Fires s c x (.xpush h v f cv) rc)) ∧
    (∃ s : State, ∃ c : Nat, ∃ x : Nat, ∃ rc : List Nat, ∃ h : Hd, ∃ v : BitVec 6, ∃ f : BitVec 1, ∃ cv : BitVec 1, (Fires s c x (.xpush h v f cv) rc)) ∧
    (∃ s : State, ∃ c : Nat, ∃ x : Nat, ∃ rc : List Nat, ∃ h : Hd, ∃ v : BitVec 6, ∃ f : BitVec 1, (Fires s c x (.xpop h v f) rc)) ∧
    (∃ s : State, ∃ c : Nat, ∃ x : Nat, ∃ rc : List Nat, ∃ h : Hd, ∃ a : BitVec 6, ∃ d : BitVec 2, ∃ rs : BitVec 3, ∃ ch : BitVec 4, ∃ o : BitVec 2, (Fires s c x (.xmvm h a d rs ch o) rc)) ∧
    (∃ s : State, ∃ c : Nat, ∃ x : Nat, ∃ rc : List Nat, ∃ h : Hd, ∃ a : BitVec 6, ∃ d : BitVec 2, ∃ rs : BitVec 3, ∃ ch : BitVec 4, ∃ o : BitVec 2, (Fires s c x (.xmvm h a d rs ch o) rc)) :=
  ⟨⟨stT, 0, 0, ([]), hd, 1, 0, 0, fires_of (by decide +kernel)⟩,
   ⟨stT, 0, 0, ([]), hd, 1, 0, 1, fires_of (by decide +kernel)⟩,
   ⟨stT, 0, 0, ([]), hd, 63, 1, fires_of (by decide +kernel)⟩,
   ⟨stT, 0, 0, ([]), hd, 2, 0, 7, 1, 2, fires_of (by decide +kernel)⟩,
   ⟨(modRegs (modCtx (modXb stT 0 (fun b => { b with coupling := [{ n := 128, q := 5, e := 0 },{ n := 128, q := 5, e := 1 },{ n := 128, q := 5, e := 0 }] })) 0 0 (fun v => { v with j := { v.j with fbk := true } })) 0 0 (fun r => { r with fbTarget := 99 })), 0, 0, ([]), hd, 3, 1, 7, 1, 2, fires_of (by decide +kernel)⟩⟩

/-- States and operands that meet the hypotheses of CrossbarQueueResults. -/
theorem wit_CrossbarQueueResults :
    (∃ s : State, ∃ c : Nat, ∃ x : Nat, ∃ i : Instr, ∃ rc : List Nat, ∃ op : XOp, (Fires s c x i rc) ∧ ((∃ h a f v k, i = .xprog h a f v k ∧ op = queued s x .xprog a.toNat (pcolOf (xb s c) a) k.toNat (vv s c x (f = 1) v)) ∨ (∃ h a f v, i = .xver h a f v ∧ op = queued s x .xver a.toNat (pcolOf (xb s c) a) 0 (vv s c x (f = 1) v)) ∨ (∃ h a, i = .xmon h a ∧ op = queued s x .xmon a.toNat 0 0 0) ∨ (∃ h a, i = .xcalMon h a ∧ op = queued s x .xcalmon a.toNat 0 0 0))) :=
  ⟨stT, 0, 0, (.xprog hd 2 0 1 15), ([]), (queued stT 0 .xprog 2 5 15 (vv stT 0 0 false 1)), fires_of (by decide +kernel), .inl ⟨_, _, _, _, _, rfl, rfl⟩⟩

/-- States and operands that meet the hypotheses of CrossbarTableResults. -/
theorem wit_CrossbarTableResults :
    (∃ s : State, ∃ c : Nat, ∃ x : Nat, ∃ rc : List Nat, ∃ h : Hd, ∃ a : BitVec 6, ∃ k : BitVec 5, (Fires s c x (.xremap h a k) rc)) ∧
    (∃ s : State, ∃ c : Nat, ∃ x : Nat, ∃ rc : List Nat, ∃ h : Hd, ∃ a : BitVec 6, (Fires s c x (.xremapClr h a) rc)) ∧
    (∃ s : State, ∃ c : Nat, ∃ x : Nat, ∃ i : Instr, ∃ rc : List Nat, ∃ h : Hd, ∃ a : BitVec 6, ∃ f : BitVec 1, ∃ v : BitVec 6, ∃ g : BitVec 3, (Fires s c x i rc) ∧ (i = .xcalOff h a f v g ∨ i = .xcalGain h a f v g)) ∧
    (∃ s : State, ∃ c : Nat, ∃ x : Nat, ∃ rc : List Nat, ∃ h : Hd, (Fires s c x (.xgate h) rc)) ∧
    (∃ s : State, ∃ c : Nat, ∃ x : Nat, ∃ rc : List Nat, ∃ h : Hd, (Fires s c x (.xwake h) rc)) ∧
    (∃ s : State, ∃ c : Nat, ∃ x : Nat, ∃ rc : List Nat, ∃ h : Hd, (Fires s c x (.xwake h) rc)) :=
  ⟨⟨stT, 0, 0, ([]), hd, 2, 3, fires_of (by decide +kernel)⟩,
   ⟨stT, 0, 0, ([]), hd, 2, fires_of (by decide +kernel)⟩,
   ⟨stT, 0, 0, (.xcalGain hd 2 0 1 7), ([]), hd, 2, 0, 1, 7, fires_of (by decide +kernel), by decide +kernel⟩,
   ⟨stT, 0, 0, ([]), hd, fires_of (by decide +kernel)⟩,
   ⟨stT, 0, 0, ([]), hd, fires_of (by decide +kernel)⟩,
   ⟨(modXb stT 0 (fun b => { b with bank := .gated })), 0, 0, ([]), hd, fires_of (by decide +kernel)⟩⟩

/-- States and operands that meet the hypotheses of CrossbarReadResults. -/
theorem wit_CrossbarReadResults :
    (∃ s : State, ∃ c : Nat, ∃ x : Nat, ∃ rc : List Nat, ∃ h : Hd, ∃ d : BitVec 6, ∃ a : BitVec 6, (Fires s c x (.xstat h d a) rc)) ∧
    (∃ s : State, ∃ c : Nat, ∃ x : Nat, ∃ rc : List Nat, ∃ h : Hd, ∃ a : BitVec 6, ∃ f : BitVec 1, ∃ v : BitVec 6, (Fires s c x (.xldcCode h a f v) rc)) ∧
    (∃ s : State, ∃ c : Nat, ∃ x : Nat, ∃ rc : List Nat, ∃ h : Hd, ∃ a : BitVec 6, ∃ f : BitVec 1, ∃ v : BitVec 6, (Fires s c x (.xldcVer h a f v) rc)) :=
  ⟨⟨stT, 0, 0, ([]), hd, 63, 2, fires_of (by decide +kernel)⟩,
   ⟨stT, 0, 0, ([]), hd, 2, 1, 63, fires_of (by decide +kernel)⟩,
   ⟨stT, 0, 0, ([]), hd, 2, 1, 63, fires_of (by decide +kernel)⟩⟩

/-- States and operands that meet the hypotheses of BranchesAndCallsRedirectFlow. -/
theorem wit_BranchesAndCallsRedirectFlow :
    (∃ s : State, ∃ c : Nat, ∃ x : Nat, ∃ i : Instr, ∃ rc : List Nat, ∃ r : Regs, (Fires s c x i rc) ∧ (flowOf (regs s c x) i = some r)) ∧
    (∃ s : State, ∃ c : Nat, ∃ x : Nat, ∃ i : Instr, ∃ rc : List Nat, ∃ r : Regs, (Fires s c x i rc) ∧ (flowOf (regs s c x) i = some r)) ∧
    (∃ s : State, ∃ c : Nat, ∃ x : Nat, ∃ h : Hd, ∃ o : BitVec 18, (s.t.fcore = c) ∧ (getCore s c).running = some x ∧ (guardOf h (regs s c x) = true) ∧ (stepOne (getCtx s c x) [opCall h o] = none)) ∧
    (∃ s : State, ∃ c : Nat, ∃ x : Nat, ∃ h : Hd, ∃ o : BitVec 18, (s.t.fcore = c) ∧ (getCore s c).running = some x ∧ (guardOf h (regs s c x) = true) ∧ (stepOne (getCtx s c x) [opCall h o] = none)) :=
  ⟨⟨stT, 0, 0, (.br hd 0x3FFFF), ([]), (taken ctxT.r 0xFFFFFFFF true), fires_of (by decide +kernel), by decide +kernel⟩,
   ⟨stT, 0, 0, (.stage hd 7), ([]), ({ ctxT.r with pend := some 7 }), fires_of (by decide +kernel), by decide +kernel⟩,
   ⟨(modRegs stT 0 0 (fun r => { r with rstack := List.replicate 16 1 })), 0, 0, hd, 7, by decide +kernel⟩,
   ⟨(modRegs stT 0 0 (fun r => { r with rstack := [] })), 0, 0, hd, 7, by decide +kernel⟩⟩

/-- States and operands that meet the hypotheses of LoopsCountTheirTrips. -/
theorem wit_LoopsCountTheirTrips :
    (∃ s : State, ∃ c : Nat, ∃ x : Nat, ∃ i : Instr, ∃ rc : List Nat, ∃ len : Nat, ∃ n : Nat, (Fires s c x i rc) ∧ (loopOf (regs s c x) i = some (len, n))) ∧
    (∃ s : State, ∃ c : Nat, ∃ x : Nat, ∃ i : Instr, ∃ rc : List Nat, ∃ len : Nat, ∃ n : Nat, (Fires s c x i rc) ∧ (loopOf (regs s c x) i = some (len, n))) ∧
    (∃ r : Regs, ∃ l : LoopLvl, ∃ ls : List LoopLvl, (r.loops = l :: ls) ∧ (1 ≤ l.rem)) ∧
    (∃ r : Regs, ∃ l : LoopLvl, ∃ ls : List LoopLvl, (r.loops = l :: ls) ∧ (1 ≤ l.rem)) :=
  ⟨⟨stT, 0, 0, (.loop hd 63 2047), ([]), 63, 2047, fires_of (by decide +kernel), by decide +kernel⟩,
   ⟨(modRegs stT 0 0 (fun r => { r with pend := some 3 })), 0, 0, (.loopReg hd 0 1), ([]), 0, 7, fires_of (by decide +kernel), by decide +kernel⟩,
   ⟨({ ctxT.r with preds := 0xA5A5, loops := [{ start := 1, fin := 5, rem := 1, stage := true, epi := 2 }, {}] }), ({ start := 1, fin := 5, rem := 1, stage := true, epi := 2 }), ([{}]), by decide +kernel⟩,
   ⟨({ ctxT.r with preds := 0xA5A5, loops := [{ start := 1, fin := 5, rem := 4, stage := true, epi := 2 }, {}] }), ({ start := 1, fin := 5, rem := 4, stage := true, epi := 2 }), ([{}]), by decide +kernel⟩⟩

/-- States and operands that meet the hypotheses of ContextsAreOrdered. -/
theorem wit_ContextsAreOrdered :
    (∃ s : State, ∃ c : Nat, ∃ x : Nat, ∃ rc : List Nat, ∃ h : Hd, ∃ a : BitVec 6, (Fires s c x (.seg h a) rc)) ∧
    (∃ s : State, ∃ c : Nat, ∃ x : Nat, ∃ rc : List Nat, ∃ h : Hd, (Fires s c x (.rdv h) rc)) ∧
    (∃ s : State, ∃ c : Nat, ∃ x : Nat, ∃ rc : List Nat, ∃ h : Hd, ∃ n : BitVec 4, ∃ lim : BitVec 14, (Fires s c x (.waitc h n lim) rc)) ∧
    (∃ s : State, ∃ c : Nat, ∃ x : Nat, ∃ rc : List Nat, ∃ h : Hd, (Fires s c x (.yield h) rc)) ∧
    (∃ s : State, ∃ c : Nat, ∃ x : Nat, ∃ rc : List Nat, ∃ h : Hd, (Fires s c x (.yield h) rc)) ∧
    (∃ s : State, ∃ c : Nat, ∃ x : Nat, ∃ rc : List Nat, ∃ h : Hd, ∃ k : BitVec 12, (Fires s c x (.sys h k) rc)) ∧
    (∃ s : State, ∃ c : Nat, ∃ x : Nat, ∃ i : Instr, ∃ rc : List Nat, ∃ h : Hd, ∃ f : BitVec 1, ∃ m : BitVec 8, (Fires s c x i rc) ∧ (i = .vgateOn h f m ∨ i = .vgateRet h f m ∨ i = .vgateOff h f m) ∧ (if f = 1 then (getCtx s c x).j.granty else (getCtx s c x).j.grantx).2 = 0) ∧
    (∃ s : State, ∃ c : Nat, ∃ x : Nat, ∃ rc : List Nat, ∃ h : Hd, (Fires s c x (.halt h) rc) ∧ (getCtx s c x).j.job = none ∧ (∀ p ∈ s.x.reqs, p.2.st ≠ .accepting)) ∧
    (∃ s : State, ∃ c : Nat, ∃ x : Nat, ∃ rc : List Nat, ∃ h : Hd, ∃ id : Nat, (Fires s c x (.halt h) rc) ∧ (getCtx s c x).j.job = some id ∧ (∀ p ∈ s.x.reqs, p.2.st ≠ .accepting)) ∧
    (∃ s : State, ∃ c : Nat, ∃ x : Nat, ∃ rc : List Nat, ∃ h : Hd, ∃ id : Nat, (Fires s c x (.halt h) rc) ∧ (getCtx s c x).j.job = some id ∧ (∀ p ∈ s.x.reqs, p.2.st ≠ .accepting)) :=
  ⟨⟨({ stT with x := { stT.x with reqs := [(5, {})] } }), 0, 0, ([]), hd, 63, fires_of (by decide +kernel)⟩,
   ⟨stT, 0, 0, ([]), hd, fires_of (by decide +kernel)⟩,
   ⟨stT, 0, 0, ([]), hd, 15, 0, fires_of (by decide +kernel)⟩,
   ⟨stT, 0, 0, ([]), hd, fires_of (by decide +kernel)⟩,
   ⟨(modCtx stT 0 3 (fun v => { v with status := .ready })), 0, 0, ([]), hd, fires_of (by decide +kernel)⟩,
   ⟨stT, 0, 0, ([]), hd, 0xFFF, fires_of (by decide +kernel)⟩,
   ⟨(modCtx stT 0 0 (fun v => { v with j := { v.j with granty := (0, 0) } })), 0, 0, (.vgateOff hd 1 0xFF), ([]), hd, 1, 0xFF, fires_of (by decide +kernel), by decide +kernel⟩,
   ⟨stT, 0, 0, ([]), hd, fires_of (by decide +kernel), by decide +kernel⟩,
   ⟨(modCtx ({ stT with f := { stT.f with jobs := [(60, { id := 60, queue := 3, coach := 4, members := [0], ctx := 0, st := .running, hdr := 1 })] } }) 0 0 (fun v => { v with j := { v.j with job := some 60 } })), 0, 0, ([]), hd, 60, fires_of (by decide +kernel), by decide +kernel⟩,
   ⟨(modCtx ({ stT with f := { stT.f with jobs := [(60, { id := 60, queue := 3, coach := 4, members := [0, 1], ctx := 0, st := .running, hdr := 1 })] } }) 0 0 (fun v => { v with j := { v.j with job := some 60 } })), 0, 0, ([]), hd, 60, fires_of (by decide +kernel), by decide +kernel⟩⟩

/-- States and operands that meet the hypotheses of DomainsFollowVgate. -/
theorem wit_DomainsFollowVgate :
    (∃ s : State, ∃ c : Nat, ∃ x : Nat, ∃ i : Instr, ∃ rc : List Nat, ∃ f : BitVec 1, ∃ m : BitVec 8, ∃ b : Nat, ∃ k : Nat, let g := if f = 1 then (getCtx s c x).j.granty else (getCtx s c x).j.grantx
      (Fires s c x i rc) ∧ (b < 8) ∧ (m.getLsbD b = true) ∧ (k < g.2 / 64) ∧ (g.1 / 64 + g.2 / 64 ≤ 64)) ∧
    (∃ s : State, ∃ c : Nat, ∃ x : Nat, ∃ i : Instr, ∃ rc : List Nat, ∃ f : BitVec 1, ∃ m : BitVec 8, ∃ b : Nat, ∃ k : Nat, let g := if f = 1 then (getCtx s c x).j.granty else (getCtx s c x).j.grantx
      (Fires s c x i rc) ∧ (b < 8) ∧ (m.getLsbD b = true) ∧ (k < g.2 / 64) ∧ (g.1 / 64 + g.2 / 64 ≤ 64)) :=
  ⟨⟨stT, 0, 0, (.vgateOn hd 1 0x80), ([]), 1, 0x80, 7, 1, fires_of (by decide +kernel), by decide +kernel⟩,
   ⟨(modCore stT 0 (fun k => { k with vf := { k.vf with domains := [(961, .ret)] } })), 0, 0, (.vgateOff hd 1 0x80), ([]), 1, 0x80, 7, 1, fires_of (by decide +kernel), by decide +kernel⟩⟩

/-- States and operands that meet the hypotheses of SpecialRegisterResults. -/
theorem wit_SpecialRegisterResults :
    (∃ s : State, ∃ c : Nat, ∃ x : Nat, ∃ rc : List Nat, ∃ h : Hd, ∃ d : BitVec 6, ∃ n : BitVec 12, (Fires s c x (.mfs h d n) rc)) ∧
    (∃ s : State, ∃ c : Nat, ∃ x : Nat, ∃ rc : List Nat, ∃ h : Hd, ∃ d : BitVec 6, ∃ n : BitVec 12, (Fires s c x (.mfs h d n) rc)) ∧
    (∃ s : State, ∃ c : Nat, ∃ x : Nat, ∃ rc : List Nat, ∃ h : Hd, ∃ a : BitVec 6, ∃ n : BitVec 12, (Fires s c x (.mts h a n) rc)) ∧
    (∃ s : State, ∃ c : Nat, ∃ x : Nat, ∃ rc : List Nat, ∃ h : Hd, ∃ a : BitVec 6, ∃ n : BitVec 12, (Fires s c x (.mts h a n) rc)) ∧
    (∃ s : State, ∃ c : Nat, ∃ x : Nat, ∃ h : Hd, (s.t.fcore = c) ∧ (getCore s c).running = some x ∧ (guardOf h (regs s c x) = true) ∧ (PlainPlace (regs s c x))) ∧
    (∃ s : State, ∃ c : Nat, ∃ x : Nat, ∃ h : Hd, (s.t.fcore = c) ∧ (getCore s c).running = some x ∧ (guardOf h (regs s c x) = true) ∧ (PlainPlace (regs s c x))) :=
  ⟨⟨stT, 0, 0, ([]), hd, 63, 0, fires_of (by decide +kernel)⟩,
   ⟨stT, 0, 0, ([]), hd, 63, 0x1BF, fires_of (by decide +kernel)⟩,
   ⟨(modRegs stT 0 0 (fun r => { r with sregs := [(63, 0)] })), 0, 0, ([]), hd, 63, 3, fires_of (by decide +kernel)⟩,
   ⟨(modRegs stT 0 0 (fun r => { r with sregs := [(63, 0xE000)] })), 0, 0, ([]), hd, 63, 0x1BF, fires_of (by decide +kernel)⟩,
   ⟨stT, 0, 0, hd, by decide +kernel⟩,
   ⟨(modCtx stT 0 0 (fun v => { v with j := { v.j with part := 1 } })), 0, 0, hd, by decide +kernel⟩⟩

/-- States and operands that meet the hypotheses of BreakpointsTrap. -/
theorem wit_BreakpointsTrap :
    (∃ s : State, ∃ c : Nat, ∃ x : Nat, ∃ h : Hd, (s.t.fcore = c) ∧ (getCore s c).running = some x ∧ (guardOf h (regs s c x) = true) ∧ (PlainPlace (regs s c x))) :=
  ⟨stT, 0, 0, hd, by decide +kernel⟩

/-- States and operands that meet the hypotheses of ControlTasksActAtDecode. -/
theorem wit_ControlTasksActAtDecode :
    (∃ s : State, ∃ n : Nat, ∃ i : Instr, ∃ t : TaskHdr, ∃ ops : List Operand, ∃ w : Option Word, ∃ j : Option Nat, (Decodes s n) ∧ (control (getQ s n) i = some (t, ops, w, j))) ∧
    (∃ s : State, ∃ n : Nat, ∃ i : Instr, ∃ t : TaskHdr, ∃ ops : List Operand, ∃ w : Option Word, ∃ j : Option Nat, (Decodes s n) ∧ (control (getQ s n) i = some (t, ops, w, j))) :=
  ⟨⟨stQ, 3, (.tset (th 5 0xFFFFFFFF) []), ((th 5 0xFFFFFFFF)), ([]), (some 0xFFFFFFFFFFFFFFFF), none, by decide +kernel⟩,
   ⟨stQ, 3, (.tbrz (th 4 1) []), ((th 4 1)), ([]), none, (some 72), by decide +kernel⟩⟩

/-- States and operands that meet the hypotheses of TasksEnterTheWindow. -/
theorem wit_TasksEnterTheWindow :
    (∃ s : State, ∃ n : Nat, ∃ i : Instr, ∃ ops : List Operand, ∃ st : CoachSt, ∃ stop : Option DecStop, (Decodes s n) ∧ (waiting i ((getQ s n).count % 2 ^ 32) = some (ops, st, stop))) ∧
    (∃ s : State, ∃ n : Nat, ∃ i : Instr, ∃ ops : List Operand, ∃ st : CoachSt, ∃ stop : Option DecStop, (Decodes s n) ∧ (waiting i ((getQ s n).count % 2 ^ 32) = some (ops, st, stop))) ∧
    (∃ s : State, ∃ n : Nat, ∃ i : Instr, ∃ t : TaskHdr, ∃ o : Operand, ∃ l : List Operand, let tid := t.imm.toNat % 2 ^ 16
      (Decodes s n) ∧ (i = .tbind t (o :: l) ∧ tid ≠ 0 ∧ tid < 0xE000) ∨ i = .tdrop t (o :: l)) ∧
    (∃ s : State, ∃ n : Nat, ∃ i : Instr, ∃ t : TaskHdr, ∃ o : Operand, ∃ l : List Operand, let tid := t.imm.toNat % 2 ^ 16
      (Decodes s n) ∧ (i = .tbind t (o :: l) ∧ tid ≠ 0 ∧ tid < 0xE000) ∨ i = .tdrop t (o :: l)) ∧
    (∃ s : State, ∃ n : Nat, ∃ i : Instr, ∃ l : List (Nat × Nat), ((∃ t ops, placed i = some (t, ops) ∧ l = rawOps (getQ s n) ops) ∨ (∃ ops, signalOps i = some ops ∧ l = rawOps (getQ s n) ops) ∨ ∃ t ops, i = .tdef t ops ∧ l = [(255, t.imm.toNat % 2 ^ 16)]) ∧ (Decodes s n) ∧ (l ≠ [])) ∧
    (∃ s : State, ∃ n : Nat, ∃ i : Instr, ∃ l : List (Nat × Nat), ((∃ t ops, placed i = some (t, ops) ∧ l = rawOps (getQ s n) ops) ∨ (∃ ops, signalOps i = some ops ∧ l = rawOps (getQ s n) ops) ∨ ∃ t ops, i = .tdef t ops ∧ l = [(255, t.imm.toNat % 2 ^ 16)]) ∧ (Decodes s n) ∧ (l ≠ [])) :=
  ⟨⟨stQ, 3, (.tmark (th 0 5) []), ([]), .decoded, none, by decide +kernel⟩,
   ⟨stQ, 3, (.tfence (th 0 5) []), ([]), .issued, (some (.fence 7)), by decide +kernel⟩,
   ⟨stQ, 3, (.tbind (th 0 9) [opnd 2 0]), ((th 0 9)), (opnd 2 0), ([]), by dsimp only; decide +kernel⟩,
   ⟨stQ, 3, (.tdrop (th 0 0) [opnd 127 0]), ((th 0 0)), (opnd 127 0), ([]), by dsimp only; decide +kernel⟩,
   ⟨stQ, 3, (.kern (th 0 0) [opnd 2 1, opndRaw 9 1]), ([(1, 9)]), .inl ⟨_, _, rfl, by decide +kernel⟩, by decide +kernel⟩,
   ⟨({ stQ with x := { stQ.x with htt := [] } }), 3, (.gang (th 0 9) [opndRaw 9 2, opnd 2 1]), ([(0, 9)]), .inl ⟨_, _, rfl, by decide +kernel⟩, by decide +kernel⟩⟩

/-- States and operands that meet the hypotheses of ResetBootAndTemperatureEvents. -/
theorem wit_ResetBootAndTemperatureEvents :
    (∃ w : Writer, (secureWriter w = true)) ∧
    (∃ s : State, (s.h.boot = .selfTest) ∧ (s.h.bootDue + 12000000 ≤ s.t.now)) ∧
    (∃ s : State, ∃ w : Writer, (secureWriter w = true) ∧ (s.h.boot = .waiting)) ∧
    (∃ s : State, (s.h.boot = .verifying) ∧ (s.h.bootDue ≤ s.t.now)) ∧
    (∃ w : Writer, (∀ b, w ≠ .app b)) ∧
    (∃ s : State, ∃ c : Nat, (c ≤ 10) ∧ (Room s)) ∧
    (∃ s : State, ∃ c : Nat, (c ≤ 10) ∧ (Room s)) ∧
    (∃ c : Nat, (c < 10)) ∧
    (∃ c : Nat, (c < 10)) ∧
    (∃ c : Nat, (c ≤ 10)) ∧
    (∃ c : Nat, (c ≤ 10)) ∧
    (∃ c : Nat, (c < 10)) ∧
    (∃ c : Nat, (c < 10)) :=
  ⟨⟨Writer.firmware, by decide +kernel⟩,
   ⟨({ { stT with h := { (stT).h with boot := .selfTest } } with t := { ({ stT with h := { (stT).h with boot := .selfTest } }).t with now := 13000000 } }), by decide +kernel⟩,
   ⟨({ stT with h := { (stT).h with boot := .waiting } }), Writer.firmware, by decide +kernel⟩,
   ⟨({ stT with h := { (stT).h with boot := .verifying } }), by decide +kernel⟩,
   ⟨Writer.firmware, by decide +kernel⟩,
   ⟨({ stT with creg := [(0x1480, BitVec.ofNat 512 (720 + 800 * 2 ^ 12 + 880 * 2 ^ 24))] }), 0, by decide +kernel⟩,
   ⟨({ stT with creg := [(0x1480, BitVec.ofNat 512 (720 + 800 * 2 ^ 12 + 880 * 2 ^ 24))] }), 10, by decide +kernel⟩,
   ⟨0, by decide +kernel⟩,
   ⟨9, by decide +kernel⟩,
   ⟨0, by decide +kernel⟩,
   ⟨10, by decide +kernel⟩,
   ⟨0, by decide +kernel⟩,
   ⟨9, by decide +kernel⟩⟩

/-- States and operands that meet the hypotheses of KeyAttestationAndHostEvents. -/
theorem wit_KeyAttestationAndHostEvents :
    (∃ s : State, ∃ k : BitVec 6, (s.h.kvalid.getLsbD k.toNat = false)) ∧
    (∃ s : State, (s.h.kclr = none)) ∧
    (∃ s : State, ∃ k : Nat, (s.h.kclr = some k) ∧ (NoEntries s) ∧ (s.x.swap = none)) ∧
    (∃ s : State, ∃ w : Writer, (secureWriter w = true) ∧ (s.h.attest = none)) ∧
    (∃ s : State, ∃ bs : List Byte, (s.h.attest = some bs) ∧ (s.h.attestDue ≤ s.t.now)) ∧
    (∃ s : State, ∃ port : Nat, ∃ q : Inbound, ∃ o : Nat × Nat × Bool, (served s port q = some o)) ∧
    (∃ s : State, ∃ port : Nat, ∃ q : Inbound, ∃ o : Nat × Nat × Bool, (served s port q = some o)) ∧
    (∃ s : State, ∃ port : Nat, ∃ q : Inbound, (served s port q = none)) ∧
    (∃ s : State, ∃ port : Nat, ∃ q : Inbound, (served s port q = none)) ∧
    (∃ s : State, ∃ o : Outside, ∃ q : Inbound, ∃ key : Nat, ∃ k : Nat, (s.x.outside.find? (fun p => p.agent = o.agent) = some o) ∧ (o.op = .bytes q key) ∧ (o.tick = some k) ∧ (arrived s k = true) ∧ (smGet {} s.x.tickets k).met = [] ∧ (348 ≤ o.agent) ∧ (0 < q.len) ∧ (q.len ≤ 512) ∧ (q.addr % 4096 + q.len ≤ 4096) ∧ (s.c.versions = []) ∧ (s.c.lineKeys = [])) ∧
    (∃ s : State, ∃ o : Outside, ∃ q : Inbound, ∃ key : Nat, ∃ k : Nat, (s.x.outside.find? (fun p => p.agent = o.agent) = some o) ∧ (o.op = .bytes q key) ∧ (o.tick = some k) ∧ (arrived s k = true) ∧ (smGet {} s.x.tickets k).met = [] ∧ (348 ≤ o.agent) ∧ (0 < q.len) ∧ (q.len ≤ 512) ∧ (q.addr % 4096 + q.len ≤ 4096) ∧ (s.c.versions = []) ∧ (s.c.lineKeys = [])) :=
  ⟨⟨({ stT with creg := [(0x840, 123)] }), 63, by decide +kernel⟩,
   ⟨stT, by decide +kernel⟩,
   ⟨({ { stT with h := { (stT).h with kclr := some 5, kvalid := 0xFF } } with x := { ({ stT with h := { (stT).h with kclr := some 5, kvalid := 0xFF } }).x with lunits := [(0, {})] } }), 5, by decide +kernel⟩,
   ⟨stT, Writer.firmware, by decide +kernel⟩,
   ⟨({ { stT with h := { (stT).h with attest := some [1, 2, 0, 4] } } with creg := [(0x1108, 0x10000)] }), ([1, 2, 0, 4]), by decide +kernel⟩,
   ⟨({ { stF with h := { (stF).h with kvalid := 7, keys := [(2, 9)] } } with creg := [(0x680, 1 + 2 * 256), (0x688, 1)] }), 0, ({ addr := 0x40000, len := 5, write := true, data := 0x0102030405, pfx := none }), ((0, 2, false)), by decide +kernel⟩,
   ⟨({ { stF with h := { (stF).h with kvalid := 7, keys := [(2, 9)] } } with creg := [(0x680, 1 + 2 * 256), (0x688, 1)] }), 1, ({ addr := 0x40E00, len := 512, write := true, data := 0, pfx := none }), ((0, 0, false)), by decide +kernel⟩,
   ⟨({ { stF with h := { (stF).h with kvalid := 7, keys := [(2, 9)] } } with creg := [(0x680, 1 + 2 * 256), (0x688, 1)] }), 1, ({ addr := 0x10000, len := 513, write := false, data := 0, pfx := none }), by decide +kernel⟩,
   ⟨({ { stF with h := { (stF).h with kvalid := 7, keys := [(2, 9)] } } with creg := [(0x680, 1 + 2 * 256), (0x688, 1)] }), 2, ({ addr := 0x10000, len := 2, write := false, data := 0, pfx := none }), by decide +kernel⟩,
   ⟨({ stF with x := { stF.x with outside := [{ id := 70, agent := 600, part := 0, op := .bytes { addr := 0x24000, len := 5, write := true, data := 0x0102030405, pfx := none } 0, tick := some 5 }], tickets := [(5, {})] } }), ({ id := 70, agent := 600, part := 0, op := .bytes { addr := 0x24000, len := 5, write := true, data := 0x0102030405, pfx := none } 0, tick := some 5 }), ({ addr := 0x24000, len := 5, write := true, data := 0x0102030405, pfx := none }), 0, 5, by decide +kernel⟩,
   ⟨({ stF with x := { stF.x with outside := [{ id := 70, agent := 600, part := 0, op := .bytes { addr := 0x24E00, len := 512, write := false, data := 0x0102030405, pfx := none } 0, tick := some 5 }], tickets := [(5, {})] } }), ({ id := 70, agent := 600, part := 0, op := .bytes { addr := 0x24E00, len := 512, write := false, data := 0x0102030405, pfx := none } 0, tick := some 5 }), ({ addr := 0x24E00, len := 512, write := false, data := 0x0102030405, pfx := none }), 0, 5, by decide +kernel⟩⟩

/-- States and operands that meet the hypotheses of ScratchpadManagementEvents. -/
theorem wit_ScratchpadManagementEvents :
    (∃ s : State, ∃ w : Writer, ∃ c : Nat, (w = .firmware ∨ w = .app true) ∧ (c < 80) ∧ (grp s c (grpOf (diagAt s c).1)).held = none) ∧
    (∃ s : State, ∃ w : Writer, ∃ c : Nat, (w = .firmware ∨ w = .app true) ∧ (c < 80) ∧ (grp s c (grpOf (diagAt s c).1)).held = none) ∧
    (∃ s : State, ∃ c : Nat, (c < 80) ∧ (grp s c (grpOf (diagAt s c).1)).held = none) ∧
    (∃ c : Nat, ∃ b : Nat, (c < 80) ∧ (b < 40)) ∧
    (∃ s : State, ∃ c : Nat, ∃ g : Nat, ∃ f : BitVec 4, (c < 80) ∧ (g < 8) ∧ (f.toNat ≤ 10) ∧ (grp s c g).held = none) ∧
    (∃ s : State, ∃ c : Nat, ∃ g : Nat, ∃ f : BitVec 4, (c < 80) ∧ (g < 8) ∧ (f.toNat ≤ 10) ∧ (grp s c g).held = none) ∧
    (∃ s : State, ∃ c : Nat, ∃ g : Nat, (c < 80) ∧ (g < 8) ∧ (grp s c g).fmt.toNat ≤ 10 ∧ (grp s c g).retWritten = none ∧ (grp s c g).pretWritten = false ∧ (grp s c g).plost = false) ∧
    (∃ s : State, ∃ c : Nat, ∃ g : Nat, (c < 80) ∧ (g < 8) ∧ (grp s c g).fmt.toNat ≤ 10 ∧ (grp s c g).retWritten = none ∧ (grp s c g).pretWritten = false ∧ (grp s c g).plost = false) ∧
    (∃ s : State, ∃ c : Nat, ∃ g : Nat, (c < 80) ∧ (g < 8) ∧ (grp s c g).fmt.toNat ≤ 10 ∧ (grp s c g).retWritten = none) ∧
    (∃ s : State, ∃ c : Nat, ∃ g : Nat, (c < 80) ∧ (g < 8) ∧ (grp s c g).fmt.toNat ≤ 10 ∧ (grp s c g).retWritten = none) ∧
    (∃ s : State, ∃ c : Nat, ∃ g : Nat, (c < 80) ∧ (g < 8) ∧ (grp s c g).fmt.toNat ≤ 10 ∧ (grp s c g).held = none ∧ (grp s c g).retWritten = none ∧ (grp s c g).pretWritten = false ∧ (grp s c g).rebuild = none) ∧
    (∃ s : State, ∃ c : Nat, ∃ g : Nat, (c < 80) ∧ (g < 8) ∧ (grp s c g).fmt.toNat ≤ 10 ∧ (grp s c g).held = none ∧ (grp s c g).retWritten = none ∧ (grp s c g).pretWritten = false ∧ (grp s c g).rebuild = none) ∧
    (∃ s : State, ∃ c : Nat, ∃ g : Nat, (c < 80) ∧ (g < 8) ∧ (grp s c g).fmt.toNat ≤ 10 ∧ (grp s c g).held = none) ∧
    (∃ s : State, ∃ c : Nat, ∃ g : Nat, (c < 80) ∧ (g < 8) ∧ (grp s c g).fmt.toNat ≤ 10 ∧ (grp s c g).held = none) ∧
    (∃ s : State, ∃ c : Nat, ∃ g : Nat, (grp s c g).queue = []) ∧
    (∃ s : State, ∃ c : Nat, ∃ g : Nat, (grp s c g).queue = []) ∧
    (∃ s : State, ∃ c : Nat, ∃ g : Nat, ∃ r : Nat, (g < 8) ∧ (r < 512) ∧ (grp s c g).rebuild = some r) ∧
    (∃ s : State, ∃ c : Nat, ∃ g : Nat, ∃ r : Nat, (g < 8) ∧ (r < 512) ∧ (grp s c g).rebuild = some r) ∧
    (∃ s : State, ∃ c : Nat, ∃ g : Nat, ∃ e : PEntry, ∃ q : List PEntry, (g < 8) ∧ (e.row < 512) ∧ (grp s c g).queue = e :: q ∧ (grp s c g).busyAt ≠ some s.t.now ∧ (e.at_ < s.t.now)) ∧
    (∃ s : State, ∃ c : Nat, ∃ g : Nat, ∃ e : PEntry, ∃ q : List PEntry, (g < 8) ∧ (e.row < 512) ∧ (grp s c g).queue = e :: q ∧ (grp s c g).busyAt ≠ some s.t.now ∧ (e.at_ < s.t.now)) :=
  ⟨⟨({ modCore (stT) 79 (fun k => { k with sp := { k.sp with rows := [(39 * 512 + 511, 0xABC), (31 * 512 + 511, 7)], cecnt := [(39, 4), (3, 1)], badRows := [(39 * 512 + 511, true)] } }) with creg := [((0x1000000 + 0x40000 * 79 + 0x100), 39 + 256 * 511), ((0x1000000 + 0x40000 * 0 + 0x100), 1 + 256 * 3)] }), Writer.firmware, 79, by decide +kernel⟩,
   ⟨(modCore ({ modCore (stT) 79 (fun k => { k with sp := { k.sp with rows := [(39 * 512 + 511, 0xABC), (31 * 512 + 511, 7)], cecnt := [(39, 4), (3, 1)], badRows := [(39 * 512 + 511, true)] } }) with creg := [((0x1000000 + 0x40000 * 79 + 0x100), 39 + 256 * 511), ((0x1000000 + 0x40000 * 0 + 0x100), 1 + 256 * 3)] }) 0 (fun k => { k with sp := { k.sp with groups := [] } })), (.app true), 0, by decide +kernel⟩,
   ⟨({ modCore (stT) 79 (fun k => { k with sp := { k.sp with rows := [(39 * 512 + 511, 0xABC), (31 * 512 + 511, 7)], cecnt := [(39, 4), (3, 1)], badRows := [(39 * 512 + 511, true)] } }) with creg := [((0x1000000 + 0x40000 * 79 + 0x100), 39 + 256 * 511), ((0x1000000 + 0x40000 * 0 + 0x100), 1 + 256 * 3)] }), 79, by decide +kernel⟩,
   ⟨79, 39, by decide +kernel⟩,
   ⟨({ modCore (stT) 79 (fun k => { k with sp := { k.sp with rows := [(39 * 512 + 511, 0xABC), (31 * 512 + 511, 7)], cecnt := [(39, 4), (3, 1)], badRows := [(39 * 512 + 511, true)] } }) with creg := [((0x1000000 + 0x40000 * 79 + 0x100), 39 + 256 * 511), ((0x1000000 + 0x40000 * 0 + 0x100), 1 + 256 * 3)] }), 79, 0, 10, by decide +kernel⟩,
   ⟨({ modCore (stT) 79 (fun k => { k with sp := { k.sp with rows := [(39 * 512 + 511, 0xABC), (31 * 512 + 511, 7)], cecnt := [(39, 4), (3, 1)], badRows := [(39 * 512 + 511, true)] } }) with creg := [((0x1000000 + 0x40000 * 79 + 0x100), 39 + 256 * 511), ((0x1000000 + 0x40000 * 0 + 0x100), 1 + 256 * 3)] }), 79, 7, 10, by decide +kernel⟩,
   ⟨({ modCore (stT) 79 (fun k => { k with sp := { k.sp with rows := [(39 * 512 + 511, 0xABC), (31 * 512 + 511, 7)], cecnt := [(39, 4), (3, 1)], badRows := [(39 * 512 + 511, true)] } }) with creg := [((0x1000000 + 0x40000 * 79 + 0x100), 39 + 256 * 511), ((0x1000000 + 0x40000 * 0 + 0x100), 1 + 256 * 3)] }), 79, 0, by decide +kernel⟩,
   ⟨({ modCore (stT) 79 (fun k => { k with sp := { k.sp with rows := [(39 * 512 + 511, 0xABC), (31 * 512 + 511, 7)], cecnt := [(39, 4), (3, 1)], badRows := [(39 * 512 + 511, true)] } }) with creg := [((0x1000000 + 0x40000 * 79 + 0x100), 39 + 256 * 511), ((0x1000000 + 0x40000 * 0 + 0x100), 1 + 256 * 3)] }), 79, 7, by decide +kernel⟩,
   ⟨({ modCore (stT) 79 (fun k => { k with sp := { k.sp with rows := [(39 * 512 + 511, 0xABC), (31 * 512 + 511, 7)], cecnt := [(39, 4), (3, 1)], badRows := [(39 * 512 + 511, true)] } }) with creg := [((0x1000000 + 0x40000 * 79 + 0x100), 39 + 256 * 511), ((0x1000000 + 0x40000 * 0 + 0x100), 1 + 256 * 3)] }), 79, 0, by decide +kernel⟩,
   ⟨({ modCore (stT) 79 (fun k => { k with sp := { k.sp with rows := [(39 * 512 + 511, 0xABC), (31 * 512 + 511, 7)], cecnt := [(39, 4), (3, 1)], badRows := [(39 * 512 + 511, true)] } }) with creg := [((0x1000000 + 0x40000 * 79 + 0x100), 39 + 256 * 511), ((0x1000000 + 0x40000 * 0 + 0x100), 1 + 256 * 3)] }), 79, 7, by decide +kernel⟩,
   ⟨({ modCore (stT) 79 (fun k => { k with sp := { k.sp with rows := [(39 * 512 + 511, 0xABC), (31 * 512 + 511, 7)], cecnt := [(39, 4), (3, 1)], badRows := [(39 * 512 + 511, true)] } }) with creg := [((0x1000000 + 0x40000 * 79 + 0x100), 39 + 256 * 511), ((0x1000000 + 0x40000 * 0 + 0x100), 1 + 256 * 3)] }), 79, 0, by decide +kernel⟩,
   ⟨({ modCore (stT) 79 (fun k => { k with sp := { k.sp with rows := [(39 * 512 + 511, 0xABC), (31 * 512 + 511, 7)], cecnt := [(39, 4), (3, 1)], badRows := [(39 * 512 + 511, true)] } }) with creg := [((0x1000000 + 0x40000 * 79 + 0x100), 39 + 256 * 511), ((0x1000000 + 0x40000 * 0 + 0x100), 1 + 256 * 3)] }), 79, 7, by decide +kernel⟩,
   ⟨({ modCore (stT) 79 (fun k => { k with sp := { k.sp with rows := [(39 * 512 + 511, 0xABC), (31 * 512 + 511, 7)], cecnt := [(39, 4), (3, 1)], badRows := [(39 * 512 + 511, true)] } }) with creg := [((0x1000000 + 0x40000 * 79 + 0x100), 39 + 256 * 511), ((0x1000000 + 0x40000 * 0 + 0x100), 1 + 256 * 3)] }), 79, 0, by decide +kernel⟩,
   ⟨({ modCore (stT) 79 (fun k => { k with sp := { k.sp with rows := [(39 * 512 + 511, 0xABC), (31 * 512 + 511, 7)], cecnt := [(39, 4), (3, 1)], badRows := [(39 * 512 + 511, true)] } }) with creg := [((0x1000000 + 0x40000 * 79 + 0x100), 39 + 256 * 511), ((0x1000000 + 0x40000 * 0 + 0x100), 1 + 256 * 3)] }), 79, 7, by decide +kernel⟩,
   ⟨(modCore ({ modCore (stT) 79 (fun k => { k with sp := { k.sp with rows := [(39 * 512 + 511, 0xABC), (31 * 512 + 511, 7)], cecnt := [(39, 4), (3, 1)], badRows := [(39 * 512 + 511, true)] } }) with creg := [((0x1000000 + 0x40000 * 79 + 0x100), 39 + 256 * 511), ((0x1000000 + 0x40000 * 0 + 0x100), 1 + 256 * 3)] }) 79 (fun k => setGrp k 0 { getGrp k 0 with retWritten := some 2, pretWritten := true })), 79, 0, by decide +kernel⟩,
   ⟨(modCore ({ modCore (stT) 79 (fun k => { k with sp := { k.sp with rows := [(39 * 512 + 511, 0xABC), (31 * 512 + 511, 7)], cecnt := [(39, 4), (3, 1)], badRows := [(39 * 512 + 511, true)] } }) with creg := [((0x1000000 + 0x40000 * 79 + 0x100), 39 + 256 * 511), ((0x1000000 + 0x40000 * 0 + 0x100), 1 + 256 * 3)] }) 79 (fun k => setGrp k 7 { getGrp k 7 with retWritten := some 2, pretWritten := true })), 79, 7, by decide +kernel⟩,
   ⟨(modCore ({ modCore (stT) 79 (fun k => { k with sp := { k.sp with rows := [(39 * 512 + 511, 0xABC), (31 * 512 + 511, 7)], cecnt := [(39, 4), (3, 1)], badRows := [(39 * 512 + 511, true)] } }) with creg := [((0x1000000 + 0x40000 * 79 + 0x100), 39 + 256 * 511), ((0x1000000 + 0x40000 * 0 + 0x100), 1 + 256 * 3)] }) 79 (fun k => setGrp k 0 { getGrp k 0 with rebuild := some 0, plost := true })), 79, 0, 0, by decide +kernel⟩,
   ⟨(modCore ({ modCore (stT) 79 (fun k => { k with sp := { k.sp with rows := [(39 * 512 + 511, 0xABC), (31 * 512 + 511, 7)], cecnt := [(39, 4), (3, 1)], badRows := [(39 * 512 + 511, true)] } }) with creg := [((0x1000000 + 0x40000 * 79 + 0x100), 39 + 256 * 511), ((0x1000000 + 0x40000 * 0 + 0x100), 1 + 256 * 3)] }) 79 (fun k => setGrp k 7 { getGrp k 7 with rebuild := some 511, plost := true })), 79, 7, 511, by decide +kernel⟩,
   ⟨({ modCore ({ modCore (stT) 79 (fun k => { k with sp := { k.sp with rows := [(39 * 512 + 511, 0xABC), (31 * 512 + 511, 7)], cecnt := [(39, 4), (3, 1)], badRows := [(39 * 512 + 511, true)] } }) with creg := [((0x1000000 + 0x40000 * 79 + 0x100), 39 + 256 * 511), ((0x1000000 + 0x40000 * 0 + 0x100), 1 + 256 * 3)] }) 79 (fun k => setGrp k 0 { getGrp k 0 with queue := [⟨511, 0xFF, 0⟩, ⟨3, 1, 0⟩] }) with t := { (modCore ({ modCore (stT) 79 (fun k => { k with sp := { k.sp with rows := [(39 * 512 + 511, 0xABC), (31 * 512 + 511, 7)], cecnt := [(39, 4), (3, 1)], badRows := [(39 * 512 + 511, true)] } }) with creg := [((0x1000000 + 0x40000 * 79 + 0x100), 39 + 256 * 511), ((0x1000000 + 0x40000 * 0 + 0x100), 1 + 256 * 3)] }) 79 (fun k => setGrp k 0 { getGrp k 0 with queue := [⟨511, 0xFF, 0⟩, ⟨3, 1, 0⟩] })).t with now := 5 } }), 79, 0, (⟨511, 0xFF, 0⟩), ([⟨3, 1, 0⟩]), by decide +kernel⟩,
   ⟨({ modCore ({ modCore (stT) 79 (fun k => { k with sp := { k.sp with rows := [(39 * 512 + 511, 0xABC), (31 * 512 + 511, 7)], cecnt := [(39, 4), (3, 1)], badRows := [(39 * 512 + 511, true)] } }) with creg := [((0x1000000 + 0x40000 * 79 + 0x100), 39 + 256 * 511), ((0x1000000 + 0x40000 * 0 + 0x100), 1 + 256 * 3)] }) 79 (fun k => setGrp k 7 { getGrp k 7 with queue := [⟨0, 0xFF, 0⟩, ⟨3, 1, 0⟩] }) with t := { (modCore ({ modCore (stT) 79 (fun k => { k with sp := { k.sp with rows := [(39 * 512 + 511, 0xABC), (31 * 512 + 511, 7)], cecnt := [(39, 4), (3, 1)], badRows := [(39 * 512 + 511, true)] } }) with creg := [((0x1000000 + 0x40000 * 79 + 0x100), 39 + 256 * 511), ((0x1000000 + 0x40000 * 0 + 0x100), 1 + 256 * 3)] }) 79 (fun k => setGrp k 7 { getGrp k 7 with queue := [⟨0, 0xFF, 0⟩, ⟨3, 1, 0⟩] })).t with now := 5 } }), 79, 7, (⟨0, 0xFF, 0⟩), ([⟨3, 1, 0⟩]), by decide +kernel⟩⟩

/-- States and operands that meet the hypotheses of ClusterEvents. -/
theorem wit_ClusterEvents :
    (∃ n : Nat, ∃ v : BitVec 32, (∀ i j, i < j → j < 8 → v.toNat / 16 ^ i % 16 ≠ v.toNat / 16 ^ j % 16) ∧ (n < 10) ∧ (∀ i, i < 8 → v.toNat / 16 ^ i % 16 ≤ 8)) ∧
    (∃ n : Nat, ∃ v : BitVec 32, (∀ i j, i < j → j < 8 → v.toNat / 16 ^ i % 16 ≠ v.toNat / 16 ^ j % 16) ∧ (n < 10) ∧ (∀ i, i < 8 → v.toNat / 16 ^ i % 16 ≤ 8)) ∧
    (∃ s : State, ∃ n : Nat, ∃ v : Word, (n < 10) ∧ (v = 0 ∨ v = 4 ∨ v = 8 ∨ v = 12) ∧ (getCl s n).sweep = none) ∧
    (∃ s : State, ∃ n : Nat, ∃ v : Word, (n < 10) ∧ (v = 0 ∨ v = 4 ∨ v = 8 ∨ v = 12) ∧ (getCl s n).sweep = none) ∧
    (∃ s : State, ∃ n : Nat, ∃ p : Nat, ∃ q : Nat, ∃ i : Nat, (getCl s n).sweep = some (.grow p q i) ∧ (i < 8192 * (q - p)) ∧ (getCl s n).sweepAt < s.t.now ∧ (getCl s n).wb.length < 64) ∧
    (∃ s : State, ∃ n : Nat, ∃ p : Nat, ∃ q : Nat, ∃ i : Nat, (getCl s n).sweep = some (.grow p q i) ∧ (i < 8192 * (q - p)) ∧ (getCl s n).sweepAt < s.t.now ∧ (getCl s n).wb.length < 64) ∧
    (∃ s : State, ∃ n : Nat, ∃ p : Nat, ∃ q : Nat, ∃ i : Nat, (getCl s n).sweep = some (.shrink p q i) ∧ (i < 8192 * (p - q)) ∧ (getCl s n).sweepAt < s.t.now ∧ (i ≠ 0 ∨ windowBusy s n q p = false)) ∧
    (∃ s : State, ∃ n : Nat, ∃ p : Nat, ∃ q : Nat, ∃ i : Nat, (getCl s n).sweep = some (.shrink p q i) ∧ (i < 8192 * (p - q)) ∧ (getCl s n).sweepAt < s.t.now ∧ (i ≠ 0 ∨ windowBusy s n q p = false)) ∧
    (∃ s : State, ∃ n : Nat, ∃ l : Nat, ∃ e : WbEntry, (getCl s n).wb.find? (fun e => e.line = l && e.due.any (fun d => d ≤ s.t.now)) = some e) ∧
    (∃ b : Nat, (b ≤ 10)) ∧
    (∃ b : Nat, (b ≤ 10)) ∧
    (∃ s : State, ∃ b : Nat, (b < 10) ∧ (getCl s b).commitAt = some (s.t.now + 1)) ∧
    (∃ s : State, (s.x.hbmCommit = some (s.t.now + 1))) :=
  ⟨⟨9, 0x87654321, (fun i j hi hj => (by decide +kernel : ∀ j, j < 8 → ∀ i, i < j → (0x87654321 : BitVec 32).toNat / 16 ^ i % 16 ≠ (0x87654321 : BitVec 32).toNat / 16 ^ j % 16) j hj i hi), by decide +kernel⟩,
   ⟨0, 0x01234567, (fun i j hi hj => (by decide +kernel : ∀ j, j < 8 → ∀ i, i < j → (0x01234567 : BitVec 32).toNat / 16 ^ i % 16 ≠ (0x01234567 : BitVec 32).toNat / 16 ^ j % 16) j hj i hi), by decide +kernel⟩,
   ⟨stT, 9, 12, by decide +kernel⟩,
   ⟨(modCl (stT) 0 (fun k => { k with present := 4 })), 0, 4, by decide +kernel⟩,
   ⟨(modCl ({ stT with t := { (stT).t with now := 5 } }) 9 (fun k => { k with sweep := some (.grow 4 8 0), present := 4 })), 9, 4, 8, 0, by decide +kernel⟩,
   ⟨(modCl ({ stT with t := { (stT).t with now := 5 } }) 9 (fun k => { k with sweep := some (.grow 4 8 32767), present := 4 })), 9, 4, 8, 32767, by decide +kernel⟩,
   ⟨(modCl ({ { stT with t := { (stT).t with now := 5 } } with c := { ({ stT with t := { (stT).t with now := 5 } }).c with mem := wrNat memT (0x3000000000 + 0x1000000 * 9 + 0x400000 + 128 * 0) 0x11111111 4 } }) 9 (fun k => { k with sweep := some (.shrink 8 4 0), present := 8 })), 9, 8, 4, 0, by decide +kernel⟩,
   ⟨(modCl ({ { stT with t := { (stT).t with now := 5 } } with c := { ({ stT with t := { (stT).t with now := 5 } }).c with mem := wrNat memT (0x3000000000 + 0x1000000 * 9 + 0x400000 + 128 * 32767) 0x11111111 4 } }) 9 (fun k => { k with sweep := some (.shrink 8 4 32767), present := 8 })), 9, 8, 4, 32767, by decide +kernel⟩,
   ⟨(modCl ({ stT with t := { (stT).t with now := 5 } }) 9 (fun k => { k with wb := [{ line := 7, part := 1 }, { line := 7, part := 0, due := some 5 }] })), 9, 7, ({ line := 7, part := 0, due := some 5 }), by decide +kernel⟩,
   ⟨0, by decide +kernel⟩,
   ⟨10, by decide +kernel⟩,
   ⟨(modCl ({ { stT with t := { (stT).t with now := 5 } } with creg := [(0x10400 + 0x10000 * 9 + 64 * 7, 77)] }) 9 (fun k => { k with commitAt := some 6 })), 9, by decide +kernel⟩,
   ⟨({ { { stT with t := { (stT).t with now := 5 } } with creg := [(0x304000 + 64 * 255, 77)] } with x := { ({ { stT with t := { (stT).t with now := 5 } } with creg := [(0x304000 + 64 * 255, 77)] }).x with hbmCommit := some 6 } }), by decide +kernel⟩⟩

/-- States and operands that meet the hypotheses of MigrationEvents. -/
theorem wit_MigrationEvents :
    (∃ s : State, ∃ v : BitVec 12, (v.toNat < swSize s)) ∧
    (∃ s : State, (s.x.swap = none) ∧ (s.x.swHead ≠ s.x.swTail)) ∧
    (∃ s : State, (s.x.swap = none) ∧ (s.x.swHead ≠ s.x.swTail)) ∧
    (∃ s : State, ∃ j : SwapJob, ∃ a : Nat, (s.x.swap = some j) ∧ (j.marked = false) ∧ (j.entries.find? (fun a => mig s a ≠ 1) = some a) ∧ (NoEntries s) ∧ (mig s a = 0) ∧ (rdc s a = 0)) ∧
    (∃ s : State, ∃ j : SwapJob, ∃ a : Nat, (s.x.swap = some j) ∧ (j.marked = false) ∧ (j.entries.find? (fun a => mig s a ≠ 1) = some a) ∧ (NoEntries s) ∧ (mig s a = 0) ∧ (rdc s a = 0)) ∧
    (∃ s : State, ∃ j : SwapJob, (s.x.swap = some j) ∧ (j.marked = true) ∧ (arrived s j.due = true)) ∧
    (∃ s : State, ∃ j : SwapJob, (s.x.swap = some j) ∧ (j.marked = true) ∧ (arrived s j.due = true)) ∧
    (∃ s : State, ∃ e : Nat, (s.x.flip = none) ∧ (e % 16 = 0)) ∧
    (∃ s : State, ∃ e : Nat, (s.x.flip = none) ∧ (e % 16 = 0)) ∧
    (∃ s : State, ∃ f : Flip, (s.x.flip = some f) ∧ (f.phase = 1) ∧ (NoEntries s) ∧ (mig s f.entry = 0) ∧ (rdc s f.entry = 0)) ∧
    (∃ s : State, ∃ f : Flip, (s.x.flip = some f) ∧ (f.phase = 1) ∧ (NoEntries s) ∧ (mig s f.entry = 0) ∧ (rdc s f.entry = 0)) ∧
    (∃ s : State, ∃ f : Flip, (s.x.flip = some f) ∧ (f.phase = 2) ∧ (f.due ≤ s.t.now) ∧ (f.toHost = true → ∀ n, n < 10 → (∀ p ∈ (getCl s n).tags, p.2.line / 128 ≠ f.frame) ∧ ∀ e ∈ (getCl s n).wb, e.line / 128 ≠ f.frame) ∧ (Room s)) ∧
    (∃ s : State, ∃ f : Flip, (s.x.flip = some f) ∧ (f.phase = 2) ∧ (f.due ≤ s.t.now) ∧ (f.toHost = true → ∀ n, n < 10 → (∀ p ∈ (getCl s n).tags, p.2.line / 128 ≠ f.frame) ∧ ∀ e ∈ (getCl s n).wb, e.line / 128 ≠ f.frame) ∧ (Room s)) ∧
    (∃ s : State, ∃ f : Flip, (s.x.flip = some f) ∧ (f.phase = 3)) ∧
    (∃ s : State, ∃ f : Flip, (s.x.flip = some f) ∧ (f.phase = 3)) :=
  ⟨⟨({ stT with creg := [(0x310000, 0x40000 + 4 * 2 ^ 56)] }), 15, by decide +kernel⟩,
   ⟨({ { { stT with creg := [(0x310000, 0x40000 + 4 * 2 ^ 56)] } with c := { ({ stT with creg := [(0x310000, 0x40000 + 4 * 2 ^ 56)] }).c with mem := wrNat memT (0x40000 + 32 * 0) (1 + 65552 * 2 ^ 64 + 12 * 2 ^ 128) 24 } } with x := { ({ { stT with creg := [(0x310000, 0x40000 + 4 * 2 ^ 56)] } with c := { ({ stT with creg := [(0x310000, 0x40000 + 4 * 2 ^ 56)] }).c with mem := wrNat memT (0x40000 + 32 * 0) (1 + 65552 * 2 ^ 64 + 12 * 2 ^ 128) 24 } }).x with swTail := 1 } }), by decide +kernel⟩,
   ⟨({ { { stT with creg := [(0x310000, 0x40000 + 4 * 2 ^ 56)] } with c := { ({ stT with creg := [(0x310000, 0x40000 + 4 * 2 ^ 56)] }).c with mem := wrNat memT (0x40000 + 32 * 15) (3 + 65552 * 2 ^ 64 + 65536 * 2 ^ 128) 24 } } with x := { ({ { stT with creg := [(0x310000, 0x40000 + 4 * 2 ^ 56)] } with c := { ({ stT with creg := [(0x310000, 0x40000 + 4 * 2 ^ 56)] }).c with mem := wrNat memT (0x40000 + 32 * 15) (3 + 65552 * 2 ^ 64 + 65536 * 2 ^ 128) 24 } }).x with swTail := 0, swHead := 15 } }), by decide +kernel⟩,
   ⟨({ { stT with c := { (stT).c with mem := memT } } with x := { ({ stT with c := { (stT).c with mem := memT } }).x with swap := some { exchange := false, entA := 65552, entB := 65536, newF := 12 }, drains := [65552, 65536] } }), ({ exchange := false, entA := 65552, entB := 65536, newF := 12 }), 65552, by decide +kernel⟩,
   ⟨({ { stT with c := { (stT).c with mem := wrNat memT (65536 + 12) 1 1 } } with x := { ({ stT with c := { (stT).c with mem := wrNat memT (65536 + 12) 1 1 } }).x with swap := some { exchange := true, entA := 65552, entB := 65536, newF := 12 }, drains := [65552, 65536] } }), ({ exchange := true, entA := 65552, entB := 65536, newF := 12 }), 65552, by decide +kernel⟩,
   ⟨({ { { stT with t := { (stT).t with now := 5 } } with creg := [(0x310000, 0x40000 + 4 * 2 ^ 56)] } with x := { ({ { stT with t := { (stT).t with now := 5 } } with creg := [(0x310000, 0x40000 + 4 * 2 ^ 56)] }).x with swap := some { exchange := false, entA := 65552, entB := 65536, newF := 12, marked := true, due := 44 }, swTail := 0, swHead := 15 } }), ({ exchange := false, entA := 65552, entB := 65536, newF := 12, marked := true, due := 44 }), by decide +kernel⟩,
   ⟨({ { { stT with t := { (stT).t with now := 5 } } with creg := [(0x310000, 0x40000 + 4 * 2 ^ 56)] } with x := { ({ { stT with t := { (stT).t with now := 5 } } with creg := [(0x310000, 0x40000 + 4 * 2 ^ 56)] }).x with swap := some { exchange := true, entA := 65552, entB := 65536, newF := 12, marked := true, due := 44 }, swTail := 0, swHead := 15 } }), ({ exchange := true, entA := 65552, entB := 65536, newF := 12, marked := true, due := 44 }), by decide +kernel⟩,
   ⟨stT, 65552, by decide +kernel⟩,
   ⟨({ stT with x := { (stT).x with bias := [(9, true)] } }), 65552, by decide +kernel⟩,
   ⟨({ stT with x := { (stT).x with flip := some { entry := 65552, frame := 9, toHost := true, phase := 1 }, drains := [65552] } }), ({ entry := 65552, frame := 9, toHost := true, phase := 1 }), by decide +kernel⟩,
   ⟨({ stT with x := { (stT).x with flip := some { entry := 65552, frame := 9, toHost := false, phase := 1 }, drains := [65552] } }), ({ entry := 65552, frame := 9, toHost := false, phase := 1 }), by decide +kernel⟩,
   ⟨({ { stT with t := { (stT).t with now := 5 } } with x := { ({ stT with t := { (stT).t with now := 5 } }).x with flip := some { entry := 65552, frame := 9, toHost := true, phase := 2 }, bias := [(9, true)] } }), ({ entry := 65552, frame := 9, toHost := true, phase := 2 }), by decide +kernel⟩,
   ⟨({ { stT with t := { (stT).t with now := 5 } } with x := { ({ stT with t := { (stT).t with now := 5 } }).x with flip := some { entry := 65552, frame := 9, toHost := false, phase := 2 }, bias := [(9, true)] } }), ({ entry := 65552, frame := 9, toHost := false, phase := 2 }), by decide +kernel⟩,
   ⟨({ { stT with t := { (stT).t with now := 5 } } with x := { ({ stT with t := { (stT).t with now := 5 } }).x with flip := some { entry := 65552, frame := 9, toHost := true, phase := 3 } } }), ({ entry := 65552, frame := 9, toHost := true, phase := 3 }), by decide +kernel⟩,
   ⟨({ { stT with t := { (stT).t with now := 5 } } with x := { ({ stT with t := { (stT).t with now := 5 } }).x with flip := some { entry := 65552, frame := 9, toHost := false, phase := 3 } } }), ({ entry := 65552, frame := 9, toHost := false, phase := 3 }), by decide +kernel⟩⟩

/-- States and operands that meet the hypotheses of TranslationAndClockEvents. -/
theorem wit_TranslationAndClockEvents :
    (∃ s : State, (s.c.rollReq = none) ∧ (s.c.rollEnd = none)) ∧
    (∃ s : State, (s.c.rollReq = some s.t.now)) ∧
    (∃ s : State, (s.c.rollEnd = some s.t.now)) ∧
    (∃ s : State, ∃ u : Nat, ∃ tid : Nat, ∃ k : Nat, (getUnit s u).fetch = some (tid, k) ∧ (arrived s k = true)) ∧
    (∃ s : State, ∃ i : Instr, ∃ k : InvKind, ∃ tid : BitVec 16, (s.x.inv = none) ∧ (i = .invalidateIdentifier .firmware tid ∧ k = .ident tid.toNat ∨ i = .invalidateTileRange .firmware tid ∧ k = .range tid.toNat (cfield s 0x20F008 31 0) (cfield s 0x20F008 63 32) ∨ i = .invalidateEverything .firmware ∧ k = .all)) ∧
    (∃ s : State, ∃ i : Instr, ∃ k : InvKind, ∃ tid : BitVec 16, (s.x.inv = none) ∧ (i = .invalidateIdentifier .firmware tid ∧ k = .ident tid.toNat ∨ i = .invalidateTileRange .firmware tid ∧ k = .range tid.toNat (cfield s 0x20F008 31 0) (cfield s 0x20F008 63 32) ∨ i = .invalidateEverything .firmware ∧ k = .all)) ∧
    (∃ s : State, ∃ k : InvKind, (s.x.inv = some k) ∧ (NoEntries s)) ∧
    (∃ s : State, ∃ k : InvKind, (s.x.inv = some k) ∧ (NoEntries s)) ∧
    (∃ s : State, ∃ id : Nat, ∃ r : Req, ∃ d : Desc, ∃ dB : Desc, ∃ r' : Req, ∃ n : NextChunk, ∃ k : Nat, let ds := if n.side then dB else d
      let a := ds.ttb + 16 * n.tile
      (s.x.reqs.find? (fun p => p.1 = id) = some (id, r)) ∧ (reqDescs s r = some (d, dB)) ∧ (nextOf s r d dB = some (r', n)) ∧ (r.acq = some k) ∧ (landsNow s k = true) ∧ (getUnit s (unitOf r)).tiles.length < 64 ∧ (descIn s (unitOf r) (tidOf r n.side)).isSome = true ∧ (entryCheck s r ds (readEntry s a) (writesMem r n.side) = none) ∧ (mig s a = 0) ∧ (rdc s a ≠ 255) ∧ (s.x.drains.contains a = false) ∧ (mustWait s (tidOf r n.side) n.tile a (readEntry s a) = false)) ∧
    (∃ s : State, ∃ id : Nat, ∃ code : FaultAt, (getReq s id).st = .waitPark code ∧ (parkRoom s = true) ∧ (Room s)) ∧
    (∃ s : State, ∃ id : Nat, ∃ r : Req, ∃ tid : Nat, (s.x.reqs.find? (fun p => p.1 = id) = some (id, r)) ∧ (r.st = .running ∨ r.st = .accepting) ∧ (r.tick = none) ∧ (r.kind ≠ .tcopy) ∧ (r.kind ≠ .fill) ∧ (unitBusy s (unitOf r) = false) ∧ (invDesc s r.tid = false) ∧ (tid = r.tid) ∧ (tid ≠ 0) ∧ (descIn s (unitOf r) tid = none) ∧ (lineReach s r.part.toNat (portOf r) (dtBase s + 64 * tid) = true)) ∧
    (∃ s : State, ∃ id : Nat, ∃ r : Req, ∃ d : Desc, ∃ n : NextChunk, ∃ e : TileEnt, (s.x.reqs.find? (fun p => p.1 = id) = some (id, r)) ∧ (r.st = .running) ∧ (r.tick = none) ∧ (invDesc s r.tid = false) ∧ (r.kind = .copy ∨ r.kind = .wfill) ∧ (descIn s (unitOf r) r.tid = some d) ∧ (d.ok r.part r.secure = true) ∧ (r.unaccepted = false) ∧ (nextOf s r d d = some (r, n)) ∧ (r.ord = 0 ∨ r.replaying = true → d.inBounds (reqOrigin r false r.iter) (reqExt r) = true) ∧ (∀ c ∈ r.chunks, c.tick.isSome = true ∧ c.ord ≠ chunkKey r.iter r.ord) ∧ (tileIn s (unitOf r) r.tid n.tile = some e) ∧ (mustWait s r.tid n.tile e.addr e.img = false) ∧ (entryCheck s r d e.img false = none) ∧ (entPeer e.img = false) ∧ (entWatch e.img = false) ∧ (chunkReach s r.part.toNat (portOf r) (entFrame e.img * 16384 + 256 * n.idx) = true)) :=
  ⟨⟨stT, by decide +kernel⟩,
   ⟨({ { stT with t := { (stT).t with now := 5 } } with c := { ({ stT with t := { (stT).t with now := 5 } }).c with rollReq := some 5 } }), by decide +kernel⟩,
   ⟨({ { stT with t := { (stT).t with now := 5 } } with c := { ({ stT with t := { (stT).t with now := 5 } }).c with rollEnd := some 5, epoch := 2 ^ 32 - 1 } }), by decide +kernel⟩,
   ⟨({ stT with x := { stT.x with lunits := [(3, { descs := (List.range 16).map (fun i => { tid := 100 + i, img := 0 }), fetch := some (9, 44) })] } }), 3, 9, 44, by decide +kernel⟩,
   ⟨stT, (.invalidateIdentifier .firmware 9), (.ident 9), 9, by decide +kernel⟩,
   ⟨stT, (.invalidateEverything .firmware), .all, 0, by decide +kernel⟩,
   ⟨({ stT with x := { (stT).x with inv := some .all, invseq := 2 ^ 64 - 1 } }), .all, by decide +kernel⟩,
   ⟨({ stT with x := { (stT).x with inv := some (.ident 9) } }), (.ident 9), by decide +kernel⟩,
   ⟨({ stF with x := { (stF).x with reqs := [(5, { id := 5, img := some img9, dimg := some img9, kind := .copy, core := 0, ctx := 0, tid := 9, origin := [0], ext := [256], tile := 1, acq := some 44, ord := 0, st := .running })], lunits := [(0, { descs := [{ tid := 9, img := BitVec.ofNat 512 (image1 0 16384 14 65552 1) }], tiles := [], queue := [5] })] } }), 5, ({ id := 5, img := some img9, dimg := some img9, kind := .copy, core := 0, ctx := 0, tid := 9, origin := [0], ext := [256], tile := 1, acq := some 44, ord := 0, st := .running }), (descOf (BitVec.ofNat 512 (image1 0 16384 14 65552 1))), (descOf (BitVec.ofNat 512 (image1 0 16384 14 65552 1))), (((nextOf ({ stF with x := { (stF).x with reqs := [(5, { id := 5, img := some img9, dimg := some img9, kind := .copy, core := 0, ctx := 0, tid := 9, origin := [0], ext := [256], tile := 1, acq := some 44, ord := 0, st := .running })], lunits := [(0, { descs := [{ tid := 9, img := BitVec.ofNat 512 (image1 0 16384 14 65552 1) }], tiles := [], queue := [5] })] } }) ({ id := 5, img := some img9, dimg := some img9, kind := .copy, core := 0, ctx := 0, tid := 9, origin := [0], ext := [256], tile := 1, acq := some 44, ord := 0, st := .running }) (descOf (BitVec.ofNat 512 (image1 0 16384 14 65552 1))) (descOf (BitVec.ofNat 512 (image1 0 16384 14 65552 1)))).getD ({}, { side := false, tile := 0, idx := 0 })).1), (((nextOf ({ stF with x := { (stF).x with reqs := [(5, { id := 5, img := some img9, dimg := some img9, kind := .copy, core := 0, ctx := 0, tid := 9, origin := [0], ext := [256], tile := 1, acq := some 44, ord := 0, st := .running })], lunits := [(0, { descs := [{ tid := 9, img := BitVec.ofNat 512 (image1 0 16384 14 65552 1) }], tiles := [], queue := [5] })] } }) ({ id := 5, img := some img9, dimg := some img9, kind := .copy, core := 0, ctx := 0, tid := 9, origin := [0], ext := [256], tile := 1, acq := some 44, ord := 0, st := .running }) (descOf (BitVec.ofNat 512 (image1 0 16384 14 65552 1))) (descOf (BitVec.ofNat 512 (image1 0 16384 14 65552 1)))).getD ({}, { side := false, tile := 0, idx := 0 })).2), 44, by dsimp only; decide +kernel⟩,
   ⟨({ { stT with creg := [(0x20F030, 0x50000 + 4 * 2 ^ 56)] } with x := { ({ stT with creg := [(0x20F030, 0x50000 + 4 * 2 ^ 56)] }).x with reqs := [(5, { id := 5, st := .waitPark { cause := 3 } })] } }), 5, ({ cause := 3 }), by decide +kernel⟩,
   ⟨({ stF with x := { (stF).x with reqs := [(5, { id := 5, img := some img9, dimg := some img9, kind := .copy, core := 0, ctx := 0, tid := 9, origin := [0], ext := [256], tile := 1, acq := none, ord := 0, st := .running })], lunits := [] } }), 5, ({ id := 5, img := some img9, dimg := some img9, kind := .copy, core := 0, ctx := 0, tid := 9, origin := [0], ext := [256], tile := 1, acq := none, ord := 0, st := .running }), 9, by decide +kernel⟩,
   ⟨({ stF with x := { (stF).x with reqs := [(5, { id := 5, img := some img9, dimg := some img9, kind := .copy, core := 0, ctx := 0, tid := 9, origin := [0], ext := [256], tile := 1, acq := none, ord := 0, st := .running })], lunits := [(0, { descs := [{ tid := 9, img := BitVec.ofNat 512 (image1 0 16384 14 65552 1) }], tiles := [{ tid := 9, tile := 0, addr := 65552, img := BitVec.ofNat 128 (entry1 9), inflight := 0, lastUse := 0 }], queue := [5] })] } }), 5, ({ id := 5, img := some img9, dimg := some img9, kind := .copy, core := 0, ctx := 0, tid := 9, origin := [0], ext := [256], tile := 1, acq := none, ord := 0, st := .running }), (descOf (BitVec.ofNat 512 (image1 0 16384 14 65552 1))), (((nextOf ({ stF with x := { (stF).x with reqs := [(5, { id := 5, img := some img9, dimg := some img9, kind := .copy, core := 0, ctx := 0, tid := 9, origin := [0], ext := [256], tile := 1, acq := none, ord := 0, st := .running })], lunits := [(0, { descs := [{ tid := 9, img := BitVec.ofNat 512 (image1 0 16384 14 65552 1) }], tiles := [{ tid := 9, tile := 0, addr := 65552, img := BitVec.ofNat 128 (entry1 9), inflight := 0, lastUse := 0 }], queue := [5] })] } }) ({ id := 5, img := some img9, dimg := some img9, kind := .copy, core := 0, ctx := 0, tid := 9, origin := [0], ext := [256], tile := 1, acq := none, ord := 0, st := .running }) (descOf (BitVec.ofNat 512 (image1 0 16384 14 65552 1))) (descOf (BitVec.ofNat 512 (image1 0 16384 14 65552 1)))).getD ({}, { side := false, tile := 0, idx := 0 })).2), (([{ tid := 9, tile := 0, addr := 65552, img := BitVec.ofNat 128 (entry1 9), inflight := 0, lastUse := 0 }]).headD { tid := 0, tile := 0, addr := 0, img := 0 }), by decide +kernel⟩⟩

/-- States and operands that meet the hypotheses of CopyEngineEvents. -/
theorem wit_CopyEngineEvents :
    (∃ s : State, ∃ id : Nat, ∃ r : Req, ∃ d : Desc, (Found s id r) ∧ (r.id = id) ∧ (r.st = .accepting) ∧ (r.mirror = false) ∧ (r.tid ≠ 0) ∧ (descIn s (unitOf r) r.tid = some d) ∧ (acceptBad s r (some d) = none)) ∧
    (∃ s : State, ∃ id : Nat, ∃ r : Req, ∃ d : Desc, (Found s id r) ∧ (r.id = id) ∧ (r.st = .accepting) ∧ (r.mirror = false) ∧ (r.tid ≠ 0) ∧ (descIn s (unitOf r) r.tid = some d) ∧ (acceptBad s r (some d) = none)) ∧
    (∃ s : State, ∃ id : Nat, ∃ r : Req, ∃ d : Desc, ∃ cause : Nat, (Found s id r) ∧ (r.st = .accepting) ∧ (r.tid ≠ 0) ∧ (descIn s (unitOf r) r.tid = some d) ∧ (acceptBad s r (some d) = some cause) ∧ (getCtx s r.core r.ctx).status ≠ .trapped ∧ (getCtx s r.core r.ctx).cast = []) ∧
    (∃ s : State, ∃ id : Nat, ∃ r : Req, ∃ d : Desc, ∃ cause : Nat, (Found s id r) ∧ (r.st = .accepting) ∧ (r.tid ≠ 0) ∧ (descIn s (unitOf r) r.tid = some d) ∧ (acceptBad s r (some d) = some cause) ∧ (getCtx s r.core r.ctx).status ≠ .trapped ∧ (getCtx s r.core r.ctx).cast = []) ∧
    (∃ s : State, ∃ id : Nat, ∃ r : Req, ∃ c : Chunk, ∃ d : Desc, ∃ dB : Desc, (∀ k, c.tick = some k → (smGet {} s.x.tickets k).met = []) ∧ (Found s id r) ∧ (getChunk r c.ord = some c) ∧ (reqDescs s r = some (d, dB)) ∧ (r.kind = .copy) ∧ (r.st = .running) ∧ (c.side = false) ∧ (c.done = false) ∧ (c.peer = false) ∧ (c.tick.any (arrived s) = true) ∧ (s.c.versions = []) ∧ (s.c.lineKeys = []) ∧ (c.addr = c.addr / 16384 * 16384 + 256 * c.idx)) ∧
    (∃ s : State, ∃ id : Nat, ∃ r : Req, ∃ d : Desc, ∃ dB : Desc, ∃ it : Nat, ∃ p : RowP, (Found s id r) ∧ (reqDescs s r = some (d, dB)) ∧ (r.kind = .copy) ∧ (r.st = .running) ∧ (r.mirror = false) ∧ (p.k < 65536) ∧ (iterRows s r d it).1.find? (fun q => q.k = p.k) = some p ∧ (rowReady s r d it p.k = true) ∧ (rowWritable s r.core p.bank = true) ∧ (p.bank < 32) ∧ (p.row < 512) ∧ (retBank (getCore s r.core) (grpOf p.bank) = none)) ∧
    (∃ s : State, ∃ id : Nat, ∃ r : Req, ∃ d : Desc, ∃ dB : Desc, ∃ c : Chunk, ∃ p : RowP, (Found s id r) ∧ (reqDescs s r = some (d, dB)) ∧ (r.st = .running) ∧ (waitingChunk r = some c) ∧ (p.k < 65536) ∧ (chunkRows s r d c).find? (fun q => q.k = p.k) = some p ∧ (r.rowData.any (fun q => q.1 = p.k) = false) ∧ (bankFree s r.core p.bank = true) ∧ (retBank (getCore s r.core) (grpOf p.bank) = none) ∧ (badRow (getCore s r.core) p.bank p.row = false)) ∧
    (∃ s : State, ∃ id : Nat, ∃ r : Req, ∃ c : Chunk, ∃ d : Desc, ∃ dB : Desc, (Found s id r) ∧ (getChunk r c.ord = some c) ∧ (reqDescs s r = some (d, dB)) ∧ (r.kind = .copy) ∧ (r.st = .running) ∧ (c.side = false) ∧ (c.done = false) ∧ (c.peer = true) ∧ (c.tick.any (arrived s) = true) ∧ (parkRoom s = true) ∧ (Room s)) ∧
    (∃ s : State, ∃ id : Nat, ∃ r : Req, ∃ c : Chunk, (Found s id r) ∧ (getChunk r c.ord = some c) ∧ (r.kind = .copy) ∧ (r.st = .running) ∧ (c.side = false) ∧ (c.done = false) ∧ (c.peer = true) ∧ (parkRoom s = true) ∧ (Room s)) :=
  ⟨⟨({ modCore (stF) 0 (fun k => { k with sp := { k.sp with tiles := [(1, { whi := 1, bhi := 3, st := .empty }), (2, { whi := 1, bhi := 3, st := .ready })] } }) with x := { (modCore (stF) 0 (fun k => { k with sp := { k.sp with tiles := [(1, { whi := 1, bhi := 3, st := .empty }), (2, { whi := 1, bhi := 3, st := .ready })] } })).x with reqs := [(50, { id := 50, img := some img9, dimg := some img9, kind := .copy, tid := 9, origin := [0], ext := [256], ctr := 3, tile := 1, st := .accepting, slot := 4 })] } }), 50, ({ id := 50, img := some img9, dimg := some img9, kind := .copy, tid := 9, origin := [0], ext := [256], ctr := 3, tile := 1, st := .accepting, slot := 4 }), (descOf (BitVec.ofNat 512 (image1 0 16384 14 65552 1))), by decide +kernel⟩,
   ⟨({ modCore (stF) 0 (fun k => { k with sp := { k.sp with tiles := [(1, { whi := 1, bhi := 3, st := .empty }), (2, { whi := 1, bhi := 3, st := .ready })] } }) with x := { (modCore (stF) 0 (fun k => { k with sp := { k.sp with tiles := [(1, { whi := 1, bhi := 3, st := .empty }), (2, { whi := 1, bhi := 3, st := .ready })] } })).x with reqs := [(50, { id := 50, img := some img9, dimg := some img9, kind := .copyo, tid := 9, origin := [0], ext := [256], ctr := 3, tile := 2, st := .accepting, slot := 4 })] } }), 50, ({ id := 50, img := some img9, dimg := some img9, kind := .copyo, tid := 9, origin := [0], ext := [256], ctr := 3, tile := 2, st := .accepting, slot := 4 }), (descOf (BitVec.ofNat 512 (image1 0 16384 14 65552 1))), by decide +kernel⟩,
   ⟨({ modCore (stF) 0 (fun k => { k with sp := { k.sp with tiles := [(1, { whi := 1, bhi := 3, st := .empty }), (2, { whi := 1, bhi := 3, st := .ready })] } }) with x := { (modCore (stF) 0 (fun k => { k with sp := { k.sp with tiles := [(1, { whi := 1, bhi := 3, st := .empty }), (2, { whi := 1, bhi := 3, st := .ready })] } })).x with reqs := [(50, { id := 50, img := some img9, dimg := some img9, kind := .copy, tid := 9, origin := [0], ext := [16384], ctr := 3, tile := 2, st := .accepting, slot := 4 })] } }), 50, ({ id := 50, img := some img9, dimg := some img9, kind := .copy, tid := 9, origin := [0], ext := [16384], ctr := 3, tile := 2, st := .accepting, slot := 4 }), (descOf (BitVec.ofNat 512 (image1 0 16384 14 65552 1))), ((acceptBad ({ modCore (stF) 0 (fun k => { k with sp := { k.sp with tiles := [(1, { whi := 1, bhi := 3, st := .empty }), (2, { whi := 1, bhi := 3, st := .ready })] } }) with x := { (modCore (stF) 0 (fun k => { k with sp := { k.sp with tiles := [(1, { whi := 1, bhi := 3, st := .empty }), (2, { whi := 1, bhi := 3, st := .ready })] } })).x with reqs := [(50, { id := 50, img := some img9, dimg := some img9, kind := .copy, tid := 9, origin := [0], ext := [16384], ctr := 3, tile := 2, st := .accepting, slot := 4 })] } }) ({ id := 50, img := some img9, dimg := some img9, kind := .copy, tid := 9, origin := [0], ext := [16384], ctr := 3, tile := 2, st := .accepting, slot := 4 }) (some (descOf (BitVec.ofNat 512 (image1 0 16384 14 65552 1))))).getD 0), by decide +kernel⟩,
   ⟨({ modCore (stF) 0 (fun k => { k with sp := { k.sp with tiles := [(1, { whi := 1, bhi := 3, st := .empty }), (2, { whi := 1, bhi := 3, st := .ready })] } }) with x := { (modCore (stF) 0 (fun k => { k with sp := { k.sp with tiles := [(1, { whi := 1, bhi := 3, st := .empty }), (2, { whi := 1, bhi := 3, st := .ready })] } })).x with reqs := [(50, { id := 50, img := some img9, dimg := some img9, kind := .copyo, tid := 9, origin := [0], ext := [16384], ctr := 3, tile := 7, st := .accepting, slot := 4 })] } }), 50, ({ id := 50, img := some img9, dimg := some img9, kind := .copyo, tid := 9, origin := [0], ext := [16384], ctr := 3, tile := 7, st := .accepting, slot := 4 }), (descOf (BitVec.ofNat 512 (image1 0 16384 14 65552 1))), ((acceptBad ({ modCore (stF) 0 (fun k => { k with sp := { k.sp with tiles := [(1, { whi := 1, bhi := 3, st := .empty }), (2, { whi := 1, bhi := 3, st := .ready })] } }) with x := { (modCore (stF) 0 (fun k => { k with sp := { k.sp with tiles := [(1, { whi := 1, bhi := 3, st := .empty }), (2, { whi := 1, bhi := 3, st := .ready })] } })).x with reqs := [(50, { id := 50, img := some img9, dimg := some img9, kind := .copyo, tid := 9, origin := [0], ext := [16384], ctr := 3, tile := 7, st := .accepting, slot := 4 })] } }) ({ id := 50, img := some img9, dimg := some img9, kind := .copyo, tid := 9, origin := [0], ext := [16384], ctr := 3, tile := 7, st := .accepting, slot := 4 }) (some (descOf (BitVec.ofNat 512 (image1 0 16384 14 65552 1))))).getD 0), by decide +kernel⟩,
   ⟨({ { modCore (stF) 0 (fun k => { k with sp := { k.sp with tiles := [(1, { whi := 1, bhi := 3, st := .empty }), (2, { whi := 1, bhi := 3, st := .ready })] } }) with c := { (modCore (stF) 0 (fun k => { k with sp := { k.sp with tiles := [(1, { whi := 1, bhi := 3, st := .empty }), (2, { whi := 1, bhi := 3, st := .ready })] } })).c with mem := wrNat memT (9 * 16384) 0x0102030405060708090A0B 13 } } with x := { ({ modCore (stF) 0 (fun k => { k with sp := { k.sp with tiles := [(1, { whi := 1, bhi := 3, st := .empty }), (2, { whi := 1, bhi := 3, st := .ready })] } }) with c := { (modCore (stF) 0 (fun k => { k with sp := { k.sp with tiles := [(1, { whi := 1, bhi := 3, st := .empty }), (2, { whi := 1, bhi := 3, st := .ready })] } })).c with mem := wrNat memT (9 * 16384) 0x0102030405060708090A0B 13 } }).x with reqs := [(50, { id := 50, img := some img9, dimg := some img9, kind := .copy, tid := 9, origin := [0], ext := [256], ctr := 3, tile := 1, st := .running, slot := 4, geo := some { whi := 1, bhi := 3 }, chunks := [{ ord := 0, addr := 9 * 16384, tile := 0, idx := 0, tick := some 44 }] })] } }), 50, ({ id := 50, img := some img9, dimg := some img9, kind := .copy, tid := 9, origin := [0], ext := [256], ctr := 3, tile := 1, st := .running, slot := 4, geo := some { whi := 1, bhi := 3 }, chunks := [{ ord := 0, addr := 9 * 16384, tile := 0, idx := 0, tick := some 44 }] }), ({ ord := 0, addr := 9 * 16384, tile := 0, idx := 0, tick := some 44 }), (descOf (BitVec.ofNat 512 (image1 0 16384 14 65552 1))), (descOf (BitVec.ofNat 512 (image1 0 16384 14 65552 1))), (fun k hk => by cases hk <;> decide +kernel), by decide +kernel⟩,
   ⟨({ modCore (stF) 0 (fun k => { k with sp := { k.sp with tiles := [(1, { whi := 1, bhi := 3, st := .empty }), (2, { whi := 1, bhi := 3, st := .ready })] } }) with x := { (modCore (stF) 0 (fun k => { k with sp := { k.sp with tiles := [(1, { whi := 1, bhi := 3, st := .empty }), (2, { whi := 1, bhi := 3, st := .ready })] } })).x with reqs := [(50, { id := 50, img := some img9, dimg := some img9, kind := .copy, tid := 9, origin := [0], ext := [256], ctr := 3, tile := 1, st := .running, slot := 4, geo := some { whi := 1, bhi := 3 }, chunks := [{ ord := 0, addr := 9 * 16384, tile := 0, idx := 0, done := true, tick := some 44, bytes := (List.range 256).map (fun i => (i, BitVec.ofNat 16 (i + 65280))) }] })] } }), 50, ({ id := 50, img := some img9, dimg := some img9, kind := .copy, tid := 9, origin := [0], ext := [256], ctr := 3, tile := 1, st := .running, slot := 4, geo := some { whi := 1, bhi := 3 }, chunks := [{ ord := 0, addr := 9 * 16384, tile := 0, idx := 0, done := true, tick := some 44, bytes := (List.range 256).map (fun i => (i, BitVec.ofNat 16 (i + 65280))) }] }), (descOf (BitVec.ofNat 512 (image1 0 16384 14 65552 1))), (descOf (BitVec.ofNat 512 (image1 0 16384 14 65552 1))), 0, (((iterRows ({ modCore (stF) 0 (fun k => { k with sp := { k.sp with tiles := [(1, { whi := 1, bhi := 3, st := .empty }), (2, { whi := 1, bhi := 3, st := .ready })] } }) with x := { (modCore (stF) 0 (fun k => { k with sp := { k.sp with tiles := [(1, { whi := 1, bhi := 3, st := .empty }), (2, { whi := 1, bhi := 3, st := .ready })] } })).x with reqs := [(50, { id := 50, img := some img9, dimg := some img9, kind := .copy, tid := 9, origin := [0], ext := [256], ctr := 3, tile := 1, st := .running, slot := 4, geo := some { whi := 1, bhi := 3 }, chunks := [{ ord := 0, addr := 9 * 16384, tile := 0, idx := 0, done := true, tick := some 44, bytes := (List.range 256).map (fun i => (i, BitVec.ofNat 16 (i + 65280))) }] })] } }) ({ id := 50, img := some img9, dimg := some img9, kind := .copy, tid := 9, origin := [0], ext := [256], ctr := 3, tile := 1, st := .running, slot := 4, geo := some { whi := 1, bhi := 3 }, chunks := [{ ord := 0, addr := 9 * 16384, tile := 0, idx := 0, done := true, tick := some 44, bytes := (List.range 256).map (fun i => (i, BitVec.ofNat 16 (i + 65280))) }] }) (descOf (BitVec.ofNat 512 (image1 0 16384 14 65552 1))) 0).1.headD { k := 9, bank := 0, row := 0, fmt := 0, j0 := 0, cnt := 0 })), by decide +kernel⟩,
   ⟨({ modCore (stF) 0 (fun k => { k with sp := { k.sp with tiles := [(1, { whi := 1, bhi := 3, st := .empty }), (2, { whi := 1, bhi := 3, st := .ready })] } }) with x := { (modCore (stF) 0 (fun k => { k with sp := { k.sp with tiles := [(1, { whi := 1, bhi := 3, st := .empty }), (2, { whi := 1, bhi := 3, st := .ready })] } })).x with reqs := [(50, { id := 50, img := some img9, dimg := some img9, kind := .copyo, tid := 9, origin := [0], ext := [256], ctr := 3, tile := 2, st := .running, slot := 4, geo := some { whi := 1, bhi := 3 }, chunks := [{ ord := 0, addr := 9 * 16384, tile := 0, idx := 0 }] })] } }), 50, ({ id := 50, img := some img9, dimg := some img9, kind := .copyo, tid := 9, origin := [0], ext := [256], ctr := 3, tile := 2, st := .running, slot := 4, geo := some { whi := 1, bhi := 3 }, chunks := [{ ord := 0, addr := 9 * 16384, tile := 0, idx := 0 }] }), (descOf (BitVec.ofNat 512 (image1 0 16384 14 65552 1))), (descOf (BitVec.ofNat 512 (image1 0 16384 14 65552 1))), ({ ord := 0, addr := 9 * 16384, tile := 0, idx := 0 }), (((chunkRows ({ modCore (stF) 0 (fun k => { k with sp := { k.sp with tiles := [(1, { whi := 1, bhi := 3, st := .empty }), (2, { whi := 1, bhi := 3, st := .ready })] } }) with x := { (modCore (stF) 0 (fun k => { k with sp := { k.sp with tiles := [(1, { whi := 1, bhi := 3, st := .empty }), (2, { whi := 1, bhi := 3, st := .ready })] } })).x with reqs := [(50, { id := 50, img := some img9, dimg := some img9, kind := .copyo, tid := 9, origin := [0], ext := [256], ctr := 3, tile := 2, st := .running, slot := 4, geo := some { whi := 1, bhi := 3 }, chunks := [{ ord := 0, addr := 9 * 16384, tile := 0, idx := 0 }] })] } }) ({ id := 50, img := some img9, dimg := some img9, kind := .copyo, tid := 9, origin := [0], ext := [256], ctr := 3, tile := 2, st := .running, slot := 4, geo := some { whi := 1, bhi := 3 }, chunks := [{ ord := 0, addr := 9 * 16384, tile := 0, idx := 0 }] }) (descOf (BitVec.ofNat 512 (image1 0 16384 14 65552 1))) ({ ord := 0, addr := 9 * 16384, tile := 0, idx := 0 })).headD { k := 9, bank := 0, row := 0, fmt := 0, j0 := 0, cnt := 0 })), by decide +kernel⟩,
   ⟨({ { modCore (stF) 0 (fun k => { k with sp := { k.sp with tiles := [(1, { whi := 1, bhi := 3, st := .empty }), (2, { whi := 1, bhi := 3, st := .ready })] } }) with creg := [(0x20F030, 0x50000 + 4 * 2 ^ 56)] } with x := { ({ modCore (stF) 0 (fun k => { k with sp := { k.sp with tiles := [(1, { whi := 1, bhi := 3, st := .empty }), (2, { whi := 1, bhi := 3, st := .ready })] } }) with creg := [(0x20F030, 0x50000 + 4 * 2 ^ 56)] }).x with reqs := [(50, { id := 50, img := some img9, dimg := some img9, kind := .copy, tid := 9, origin := [0], ext := [256], ctr := 3, tile := 1, st := .running, slot := 4, geo := some { whi := 1, bhi := 3 }, chunks := [{ ord := 0, addr := 9 * 16384, tile := 0, idx := 0, tick := some 44, peer := true }] })] } }), 50, ({ id := 50, img := some img9, dimg := some img9, kind := .copy, tid := 9, origin := [0], ext := [256], ctr := 3, tile := 1, st := .running, slot := 4, geo := some { whi := 1, bhi := 3 }, chunks := [{ ord := 0, addr := 9 * 16384, tile := 0, idx := 0, tick := some 44, peer := true }] }), ({ ord := 0, addr := 9 * 16384, tile := 0, idx := 0, tick := some 44, peer := true }), (descOf (BitVec.ofNat 512 (image1 0 16384 14 65552 1))), (descOf (BitVec.ofNat 512 (image1 0 16384 14 65552 1))), by decide +kernel⟩,
   ⟨({ { modCore (stF) 0 (fun k => { k with sp := { k.sp with tiles := [(1, { whi := 1, bhi := 3, st := .empty }), (2, { whi := 1, bhi := 3, st := .ready })] } }) with creg := [(0x20F030, 0x50000 + 4 * 2 ^ 56)] } with x := { ({ modCore (stF) 0 (fun k => { k with sp := { k.sp with tiles := [(1, { whi := 1, bhi := 3, st := .empty }), (2, { whi := 1, bhi := 3, st := .ready })] } }) with creg := [(0x20F030, 0x50000 + 4 * 2 ^ 56)] }).x with reqs := [(50, { id := 50, img := some img9, dimg := some img9, kind := .copy, tid := 9, origin := [0], ext := [256], ctr := 3, tile := 1, st := .running, slot := 4, geo := some { whi := 1, bhi := 3 }, chunks := [{ ord := 0, addr := 9 * 16384, tile := 0, idx := 0, tick := some 44, peer := true }] })] } }), 50, ({ id := 50, img := some img9, dimg := some img9, kind := .copy, tid := 9, origin := [0], ext := [256], ctr := 3, tile := 1, st := .running, slot := 4, geo := some { whi := 1, bhi := 3 }, chunks := [{ ord := 0, addr := 9 * 16384, tile := 0, idx := 0, tick := some 44, peer := true }] }), ({ ord := 0, addr := 9 * 16384, tile := 0, idx := 0, tick := some 44, peer := true }), by decide +kernel⟩⟩

/-- States and operands that meet the hypotheses of IssueSlotEvents. -/
theorem wit_IssueSlotEvents :
    (∃ s : State, ∃ c : Nat, ∃ x : Nat, ∃ words : List (BitVec 32), ∃ ops : List SlotOp, ∃ rc : List Nat, (Issues s c x 0 words ops rc) ∧ (followDue s c = none) ∧ (getCore s c).running = some x ∧ (getCtx s c x).status = .running ∧ (getCtx s c x).heldUntil = none ∧ (getCore s c).nextIssue ≤ s.t.now ∧ (broadcast s (getCtx s c x) = false) ∧ (mayRun s (getCtx s c x) = true)) ∧
    (∃ s : State, ∃ c : Nat, ∃ x : Nat, ∃ u : Nat, ∃ words : List (BitVec 32), ∃ ops : List SlotOp, ∃ rc : List Nat, let s1 := modCtx s c x (fun v => { v with heldUntil := none })
      (Issues s1 c x (getCtx s c x).heldStage words ops rc) ∧ (getCore s c).running = some x ∧ (getCtx s c x).heldUntil = some u ∧ (u ≤ s.t.now) ∧ (getCtx s c x).cast = [] ∧ (followDue s c = none) ∧ (getCore s c).nextIssue ≤ s.t.now ∧ (mayRun s (getCtx s c x) = true)) ∧
    (∃ s : State, ∃ c : Nat, ∃ x : Nat, ∃ u : Nat, ∃ words : List (BitVec 32), ∃ ops : List SlotOp, ∃ rc : List Nat, let s1 := modCtx s c x (fun v => { v with heldUntil := none })
      (Issues s1 c x (getCtx s c x).heldStage words ops rc) ∧ (getCore s c).running = some x ∧ (getCtx s c x).heldUntil = some u ∧ (u ≤ s.t.now) ∧ (getCtx s c x).cast = [] ∧ (followDue s c = none) ∧ (getCore s c).nextIssue ≤ s.t.now ∧ (mayRun s (getCtx s c x) = true)) ∧
    (∃ s : State, ∃ c : Nat, ∃ x : Nat, ∃ cause : Nat, ∃ slot : Nat, ∃ detail : Nat, (getCtx s c x).status = .blocked cause slot detail ∧ (cleared s c x cause slot detail = true)) ∧
    (∃ s : State, ∃ c : Nat, ∃ x : Nat, ∃ cause : Nat, ∃ slot : Nat, ∃ detail : Nat, (getCtx s c x).status = .blocked cause slot detail ∧ (cleared s c x cause slot detail = true)) ∧
    (∃ s : State, ∃ c : Nat, ∃ x : Nat, ∃ y : Nat, (getCore s c).running = some x ∧ (4096 ≤ (getCore s c).consec) ∧ (getCtx s c x).cast = [] ∧ (y < 4) ∧ (y ≠ x) ∧ (getCtx s c y).status = .ready ∧ (oddOfPair c (getCtx s c y) = false) ∧ (mayRun s (getCtx s c y) = true)) ∧
    (∃ s : State, ∃ c : Nat, ∃ x : Nat, ∃ tid : Nat, ∃ ch : Nat, ∃ k : Nat, (getCore s c).bfetch.find? (fun f => f.1 = x && arrived s f.2.2.2) = some (x, tid, ch, k)) ∧
    (∃ s : State, ∃ c : Nat, ∃ d : Nat, ∃ due : Nat, ∃ fresh : Bool, (domPower (getCore s c) d = .waking due fresh) ∧ (due ≤ s.t.now)) ∧
    (∃ s : State, ∃ c : Nat, ∃ d : Nat, ∃ due : Nat, ∃ fresh : Bool, (domPower (getCore s c) d = .waking due fresh) ∧ (due ≤ s.t.now)) ∧
    (∃ s : State, ∃ c : Nat, ∃ x : Nat, ∃ pc : BitVec 32, ∃ yes : Bool, ∃ slot : Nat, ∃ stall : Nat, (getCore s c).lastDec = some (s.t.now, x, pc, yes, slot, stall) ∧ (s.d.bvEn = true) ∧ (s.d.bvStopped = false)) ∧
    (∃ s : State, ∃ c : Nat, ∃ x : Nat, ∃ pc : BitVec 32, ∃ yes : Bool, ∃ slot : Nat, ∃ stall : Nat, (getCore s c).lastDec = some (s.t.now, x, pc, yes, slot, stall) ∧ (s.d.bvEn = true) ∧ (s.d.bvStopped = false)) ∧
    (∃ s : State, ∃ id : Nat, let j := getJob s id
      let x := j.ctx
      let ms := castMembers s j
      let skew := fun m => skewOf j.hdr (getCtx s m x).j.rank
      let then_ := fun m => forecast s m x (skew m)
      let m0 := ms.headD 0
      let v0 := getCtx (then_ m0) m0 x
      let words := bundleWords s (codeOfP v0.j) v0.r.pc
      let ops := fun m => slotsFrom (getCtx (then_ m) m x).r.donemask 0 words
      (∀ m ∈ ms, judgeFront (then_ m) m x (ops m) = none ∧ (∀ o ∈ ops m, o.posts = false) ∧ decision (then_ m) m x (ops m) = decision (then_ m0) m0 x (ops m0) ∧ (∃ rc, judgeBack (then_ m) m x (ops m) j.castStage = .go rc) ∧ ((ops m).any (·.heavy) && decide ((getCore (then_ m) m).phi < (getCore (then_ m) m).thrl.toNat)) = false ∧ comparator (then_ m) m x words = none) ∧ (j.gang = true) ∧ (ms ≠ []) ∧ (ms.Nodup) ∧ (j.nextSend ≤ s.t.now) ∧ (∀ m ∈ j.members, (getCtx s m x).status ≠ .trapped) ∧ (∀ m ∈ ms, (getCtx s m x).status = .running ∧ canTake s x m (then_ m) = true) ∧ (codeHas s (codeOfP v0.j) (32 * v0.r.pc.toNat) 32 = true) ∧ (cacheHas (getCore s (fetchCore s m0 x)) v0.j.code.toNat v0.r.pc = true)) ∧
    (∃ s : State, ∃ c : Nat, ∃ x : Nat, ∃ b : CastSlot, ∃ l : List CastSlot, ∃ words : List (BitVec 32), ∃ ops : List SlotOp, ∃ rc : List Nat, (ops = slotsFrom (getCtx s c x).r.donemask 0 words) ∧ (getCore s c).running = some x ∧ (getCtx s c x).cast = b :: l ∧ (b.at_ ≤ s.t.now) ∧ (getCtx s c x).stopWith = none ∧ (words = bundleWords s (codeOfP (getCtx s c x).j) (getCtx s c x).r.pc) ∧ (rc = reconOn (getCore s c) ((ops.filter (fun o => guardOf o.h (getCtx s c x).r)).filterMap (accOf (getCtx s c x).r)))) :=
  ⟨⟨(modCore (stF) 0 (fun k => { k with bcache := [(5, 0)] })), 0, 0, (bundleWords (modCore (stF) 0 (fun k => { k with bcache := [(5, 0)] })) (codeOfP (getCtx (modCore (stF) 0 (fun k => { k with bcache := [(5, 0)] })) 0 0).j) 0), (slotsFrom (getCtx (modCore (stF) 0 (fun k => { k with bcache := [(5, 0)] })) 0 0).r.donemask 0 (bundleWords (modCore (stF) 0 (fun k => { k with bcache := [(5, 0)] })) (codeOfP (getCtx (modCore (stF) 0 (fun k => { k with bcache := [(5, 0)] })) 0 0).j) 0)), ([]), ⟨by decide +kernel, rfl, by decide +kernel⟩, by decide +kernel⟩,
   ⟨({ modCtx (modCore (stF) 0 (fun k => { k with bcache := [(5, 0)] })) 0 0 (fun v => { v with heldUntil := some 5, heldStage := 2 }) with t := { (modCtx (modCore (stF) 0 (fun k => { k with bcache := [(5, 0)] })) 0 0 (fun v => { v with heldUntil := some 5, heldStage := 2 })).t with now := 5 } }), 0, 0, 5, (bundleWords (modCore (stF) 0 (fun k => { k with bcache := [(5, 0)] })) (codeOfP (getCtx (modCore (stF) 0 (fun k => { k with bcache := [(5, 0)] })) 0 0).j) 0), (slotsFrom (getCtx (modCore (stF) 0 (fun k => { k with bcache := [(5, 0)] })) 0 0).r.donemask 0 (bundleWords (modCore (stF) 0 (fun k => { k with bcache := [(5, 0)] })) (codeOfP (getCtx (modCore (stF) 0 (fun k => { k with bcache := [(5, 0)] })) 0 0).j) 0)), ([]), ⟨by decide +kernel, rfl, by decide +kernel⟩, by decide +kernel⟩,
   ⟨({ modCtx (modCore (stF) 0 (fun k => { k with bcache := [(5, 0)] })) 0 0 (fun v => { v with heldUntil := some 5, heldStage := 3 }) with t := { (modCtx (modCore (stF) 0 (fun k => { k with bcache := [(5, 0)] })) 0 0 (fun v => { v with heldUntil := some 5, heldStage := 3 })).t with now := 5 } }), 0, 0, 5, (bundleWords (modCore (stF) 0 (fun k => { k with bcache := [(5, 0)] })) (codeOfP (getCtx (modCore (stF) 0 (fun k => { k with bcache := [(5, 0)] })) 0 0).j) 0), (slotsFrom (getCtx (modCore (stF) 0 (fun k => { k with bcache := [(5, 0)] })) 0 0).r.donemask 0 (bundleWords (modCore (stF) 0 (fun k => { k with bcache := [(5, 0)] })) (codeOfP (getCtx (modCore (stF) 0 (fun k => { k with bcache := [(5, 0)] })) 0 0).j) 0)), ([]), ⟨by decide +kernel, rfl, by decide +kernel⟩, by decide +kernel⟩,
   ⟨(modCtx (modCore (stF) 0 (fun k => { k with bcache := [(5, 0)] })) 0 2 (fun v => { v with status := .blocked 105 0 0, j := { v.j with code := 5 } })), 0, 2, 105, 0, 0, by decide +kernel⟩,
   ⟨(modCtx (modCore (stF) 0 (fun k => { k with bcache := [(5, 0)] })) 79 3 (fun v => { v with status := .blocked 103 4 0 })), 79, 3, 103, 4, 0, by decide +kernel⟩,
   ⟨(modCtx (modCore (stF) 0 (fun k => { k with consec := 4096 })) 0 3 (fun v => { v with status := .ready })), 0, 0, 3, by decide +kernel⟩,
   ⟨(modCore (stF) 0 (fun k => { k with bfetch := [(1, 5, 2, 44), (0, 5, 1, 45)], bcache := (List.range 512).map (fun i => (6, i)) })), 0, 0, 5, 1, 45, by decide +kernel⟩,
   ⟨(modCore ({ stF with t := { (stF).t with now := 5 } }) 0 (fun k => { k with vf := { k.vf with domains := [(1023, .waking 5 false), (3, .ret)] } })), 0, 1023, 5, false, by decide +kernel⟩,
   ⟨(modCore ({ stF with t := { (stF).t with now := 5 } }) 0 (fun k => { k with vf := { k.vf with domains := [(0, .waking 4 true)] } })), 0, 0, 4, true, by decide +kernel⟩,
   ⟨({ modCore ({ stF with t := { (stF).t with now := 5 } }) 0 (fun k => { k with lastDec := some (5, 0, 77, true, 3, 0) }) with d := { (modCore ({ stF with t := { (stF).t with now := 5 } }) 0 (fun k => { k with lastDec := some (5, 0, 77, true, 3, 0) })).d with bvEn := true } }), 0, 0, 77, true, 3, 0, by decide +kernel⟩,
   ⟨({ modCore ({ stF with t := { (stF).t with now := 5 } }) 0 (fun k => { k with lastDec := some (5, 0, 77, false, 7, 7) }) with d := { (modCore ({ stF with t := { (stF).t with now := 5 } }) 0 (fun k => { k with lastDec := some (5, 0, 77, false, 7, 7) })).d with bvEn := true } }), 0, 0, 77, false, 7, 7, by decide +kernel⟩,
   ⟨({ modCore (modCtx (modCtx (modCore (stF) 0 (fun k => { k with bcache := [(5, 0)] })) 0 0 (fun v => { v with j := { v.j with job := some 60, gsize := 2 } })) 1 0 (fun _ => { ctxT with j := { ctxT.j with job := some 60, gsize := 2, rank := 1 } })) 1 (fun k => { k with running := some 0, sp := coreT.sp, vf := coreT.vf, mx := coreT.mx, bcache := [(5, 0)] }) with f := { (modCore (modCtx (modCtx (modCore (stF) 0 (fun k => { k with bcache := [(5, 0)] })) 0 0 (fun v => { v with j := { v.j with job := some 60, gsize := 2 } })) 1 0 (fun _ => { ctxT with j := { ctxT.j with job := some 60, gsize := 2, rank := 1 } })) 1 (fun k => { k with running := some 0, sp := coreT.sp, vf := coreT.vf, mx := coreT.mx, bcache := [(5, 0)] })).f with jobs := [(60, { id := 60, queue := 3, coach := 4, members := [0, 1], ctx := 0, st := .running, gang := true, hdr := 1 })] } }), 60, (fun m hm => by
      rcases List.mem_cons.1 hm with rfl | hm
      · exact ⟨by decide +kernel, by decide +kernel, by decide +kernel, ⟨[], by decide +kernel⟩, by decide +kernel, by decide +kernel⟩
      · rcases List.mem_cons.1 hm with rfl | hm
        · exact ⟨by decide +kernel, by decide +kernel, by decide +kernel, ⟨[], by decide +kernel⟩, by decide +kernel, by decide +kernel⟩
        · cases hm), by decide +kernel⟩,
   ⟨(modCtx (modCore (stF) 0 (fun k => { k with bcache := [(5, 0)] })) 0 0 (fun v => { v with cast := [{ at_ := 0, grps := [], posts := false }, { at_ := 1, grps := [], posts := false }] })), 0, 0, ({ at_ := 0, grps := [], posts := false }), ([{ at_ := 1, grps := [], posts := false }]), (bundleWords (modCore (stF) 0 (fun k => { k with bcache := [(5, 0)] })) (codeOfP (getCtx (modCore (stF) 0 (fun k => { k with bcache := [(5, 0)] })) 0 0).j) 0), (slotsFrom (getCtx (modCore (stF) 0 (fun k => { k with bcache := [(5, 0)] })) 0 0).r.donemask 0 (bundleWords (modCore (stF) 0 (fun k => { k with bcache := [(5, 0)] })) (codeOfP (getCtx (modCore (stF) 0 (fun k => { k with bcache := [(5, 0)] })) 0 0).j) 0)), ([]), rfl, by decide +kernel⟩⟩

/-- States and operands that meet the hypotheses of TrapAndCheckEvents. -/
theorem wit_TrapAndCheckEvents :
    (∃ s : State, ∃ c : Nat, ∃ x : Nat, ∃ g : Nat, ∃ slot : Nat, ∃ b : BitVec 32, (getCtx s c x).watchPending = some (g, slot, b) ∧ ((getCtx s c x).status = .ready ∨ (getCtx s c x).status = .running)) ∧
    (∃ s : State, ∃ c : Nat, ∃ x : Nat, ∃ g : Nat, ∃ slot : Nat, ∃ b : BitVec 32, (getCtx s c x).watchPending = some (g, slot, b) ∧ ((getCtx s c x).status = .ready ∨ (getCtx s c x).status = .running)) ∧
    (∃ s : State, ∃ a : Nat, (trappedAgent s a = true) ∧ (agentCore a ∈ membersOf s (agentCore a) (agentCtx a) ∨ (getCtx s (agentCore a) (agentCtx a)).g.solo = true)) ∧
    (∃ s : State, ∃ a : Nat, (trappedAgent s a = true) ∧ (agentCore a ∈ membersOf s (agentCore a) (agentCtx a) ∨ (getCtx s (agentCore a) (agentCtx a)).g.solo = true)) ∧
    (∃ s : State, ∃ a : Nat, ∃ j : Nat, ∃ k : TrapRec, (trappedAgent s a = true) ∧ (getCtx s (agentCore a) (agentCtx a)).j.job = some j ∧ (getCtx s (agentCore a) (agentCtx a)).trap = some k ∧ (Sound s (getJob s j).queue (getJob s j).coach)) ∧
    (∃ s : State, ∃ a : Nat, (trappedAgent s a = true)) ∧
    (∃ s : State, ∃ a : Nat, ∃ j : Nat, (a < 320) ∧ (getCtx s (agentCore a) (agentCtx a)).status ≠ .free ∧ (getCtx s (agentCore a) (agentCtx a)).j.job = some j ∧ (getJob s j).st = .running ∧ (getJob s j).killed = false ∧ (framesFor s (getJob s j) = true)) ∧
    (∃ s : State, ∃ c : Nat, ∃ v : Bool, ∃ job : Option Nat, (getCore s c).kats = [(v, job)] ∧ (Room s)) ∧
    (∃ s : State, ∃ c : Nat, ∃ v : Bool, ∃ job : Option Nat, (getCore s c).kats = [(v, job)] ∧ (Room s)) :=
  ⟨⟨(modCtx stF 0 0 (fun v => { v with status := .ready, watchPending := some (3, 4, 77), r := { v.r with pc := 78 } })), 0, 0, 3, 4, 77, by decide +kernel⟩,
   ⟨(modCtx stF 0 0 (fun v => { v with status := .running, watchPending := some (3, 4, 77), r := { v.r with pc := 78 } })), 0, 0, 3, 4, 77, by decide +kernel⟩,
   ⟨(modCtx stF 79 3 (fun v => { v with status := .trapped, trap := some { cls := 1, cause := 19, baddr := 7 }, j := { v.j with job := none }, g := { v.g with solo := true } })), 319, by decide +kernel⟩,
   ⟨({ modCtx stF 0 0 (fun v => { v with status := .trapped, trap := some { cls := 1, cause := 19, baddr := 7 }, j := { v.j with job := some 60 }, g := { v.g with solo := false } }) with f := { (modCtx stF 0 0 (fun v => { v with status := .trapped, trap := some { cls := 1, cause := 19, baddr := 7 }, j := { v.j with job := some 60 }, g := { v.g with solo := false } })).f with jobs := [(60, { id := 60, queue := 3, coach := 4, members := [0, 1], ctx := 0, st := .running, hdr := 1 * 2 ^ 0 })], queues := [(3, { qT with coaches := [{ num := 4, taddr := 0, task := none, st := .issued, job := some 60 }] })] } }), 0, by decide +kernel⟩,
   ⟨({ modCtx stF 0 0 (fun v => { v with status := .trapped, trap := some { cls := 1, cause := 19, baddr := 7 }, j := { v.j with job := some 60 }, g := { v.g with solo := false } }) with f := { (modCtx stF 0 0 (fun v => { v with status := .trapped, trap := some { cls := 1, cause := 19, baddr := 7 }, j := { v.j with job := some 60 }, g := { v.g with solo := false } })).f with jobs := [(60, { id := 60, queue := 3, coach := 4, members := [0, 1], ctx := 0, st := .running, hdr := 1 * 2 ^ 0 })], queues := [(3, { qT with coaches := [{ num := 4, taddr := 0, task := none, st := .issued, job := some 60 }] })] } }), 0, 60, ({ cls := 1, cause := 19, baddr := 7 }), by decide +kernel⟩,
   ⟨(modCtx stF 79 3 (fun v => { v with status := .trapped, trap := some { cls := 1, cause := 19, baddr := 7 }, j := { v.j with job := none }, g := { v.g with solo := true } })), 319, by decide +kernel⟩,
   ⟨({ modCtx stF 0 0 (fun v => { v with j := { v.j with job := some 60 } }) with f := { (modCtx stF 0 0 (fun v => { v with j := { v.j with job := some 60 } })).f with jobs := [(60, { id := 60, queue := 3, coach := 4, members := [0, 1], ctx := 0, st := .running, hdr := 1 * 2 ^ 0 })] } }), 0, 60, by decide +kernel⟩,
   ⟨(modCore (stF) 79 (fun k => { k with kats := [(false, none)] })), 79, false, none, by decide +kernel⟩,
   ⟨(modCore (stF) 79 (fun k => { k with kats := [(true, some 60)] })), 79, true, (some 60), by decide +kernel⟩⟩

/-- States and operands that meet the hypotheses of JobPlacementEvents. -/
theorem wit_JobPlacementEvents :
    (∃ s : State, ∃ id : Nat, ∃ k : Nat, (HeaderHere s id k) ∧ (headerBad s (getJob s id) (codeOfQ s (getJob s id).queue) (headerOf s id) = true) ∧ (Sound s (getJob s id).queue (getJob s id).coach)) ∧
    (∃ s : State, ∃ id : Nat, ∃ k : Nat, (HeaderHere s id k) ∧ (headerBad s (getJob s id) (codeOfQ s (getJob s id).queue) (headerOf s id) = false) ∧ (tileMapBad (headerOf s id) (tileMap s (codeOfQ s (getJob s id).queue) (headerOf s id)) = true) ∧ (Sound s (getJob s id).queue (getJob s id).coach)) ∧
    (∃ s : State, ∃ id : Nat, ∃ k : Nat, ∃ n : Nat, ∃ x : Nat, ∃ m : Nat, let h := headerOf s id
      let s2 := headed s id k h
      let j := getJob s2 id
      (HeaderHere s id k) ∧ (dueOf s k < s.t.now) ∧ (headerBad s (getJob s id) (codeOfQ s (getJob s id).queue) h = false) ∧ (tileMapBad h (tileMap s (codeOfQ s (getJob s id).queue) h) = false) ∧ (choosePlace s2 id j = some (n, x, [m]))) ∧
    (∃ s : State, ∃ id : Nat, ∃ k : Nat, ∃ n : Nat, ∃ x : Nat, ∃ m : Nat, let h := headerOf s id
      let s2 := headed s id k h
      let j := getJob s2 id
      (HeaderHere s id k) ∧ (dueOf s k < s.t.now) ∧ (headerBad s (getJob s id) (codeOfQ s (getJob s id).queue) h = false) ∧ (tileMapBad h (tileMap s (codeOfQ s (getJob s id).queue) h) = false) ∧ (choosePlace s2 id j = some (n, x, [m]))) ∧
    (∃ s : State, ∃ id : Nat, ∃ k : Nat, let h := headerOf s id
      (HeaderHere s id k) ∧ (dueOf s k < s.t.now) ∧ (headerBad s (getJob s id) (codeOfQ s (getJob s id).queue) h = false) ∧ (tileMapBad h (tileMap s (codeOfQ s (getJob s id).queue) h) = false) ∧ (choosePlace (headed s id k h) id (getJob (headed s id k h) id) = none)) ∧
    (∃ s : State, ∃ id : Nat, ∃ k : Nat, (getJob s id).st = .starting k false ∧ (arrived s k = true)) ∧
    (∃ s : State, ∃ id : Nat, ∃ k : Nat, (getJob s id).st = .starting k true ∧ (arrived s k = true) ∧ (getJob s id).placed + 16 ≤ s.t.now) ∧
    (∃ s : State, ∃ id : Nat, ∃ n : Nat, ∃ x : Nat, ∃ ms : List Nat, (getJob s id).st = .waiting ∧ (getJob s id).killed = false ∧ (getJob s id).victim = none ∧ (choosePlace s id (getJob s id) = some (n, x, ms))) ∧
    (∃ s : State, ∃ id : Nat, ∃ v : Nat, (getJob s id).st = .waiting ∧ (getJob s id).killed = false ∧ (getJob s id).victim = none ∧ (choosePlace s id (getJob s id) = none) ∧ (victimFor s (getJob s id) = some v) ∧ (v ≠ id) ∧ (getJob s v).st = .running ∧ (getJob s v).killed = false) ∧
    (∃ s : State, ∃ id : Nat, ∃ v : Nat, (getJob s id).st = .waiting ∧ (getJob s id).killed = false ∧ (getJob s id).victim = none ∧ (choosePlace s id (getJob s id) = none) ∧ (victimFor s (getJob s id) = some v) ∧ (v ≠ id) ∧ (getJob s v).st = .running ∧ (getJob s v).killed = false) :=
  ⟨⟨({ { { { stF with t := { (stF).t with now := 50 } } with c := { ({ stF with t := { (stF).t with now := 50 } }).c with mem := wrNat memT (131072 + 2048) (18449277352794914816) 64 } } with creg := [(queueReg 3 0x20, 5)] } with f := { ({ { { stF with t := { (stF).t with now := 50 } } with c := { ({ stF with t := { (stF).t with now := 50 } }).c with mem := wrNat memT (131072 + 2048) (18449277352794914816) 64 } } with creg := [(queueReg 3 0x20, 5)] }).f with jobs := [(60, { id := 60, queue := 3, coach := 4, st := .header 44 })], queues := [(3, { qT with coaches := [{ num := 4, taddr := 0, task := some (.kern (th 0 32) []), st := .issued, job := some 60 }] })] } }), 60, 44, by decide +kernel⟩,
   ⟨({ { { { stF with t := { (stF).t with now := 50 } } with c := { ({ stF with t := { (stF).t with now := 50 } }).c with mem := wrNat memT (131072 + 2048) (169230368357957986439637032230126448743132135240509005093487479569300328504114798544392103960775757923136984911418594781298688) 64 } } with creg := [(queueReg 3 0x20, 5)] } with f := { ({ { { stF with t := { (stF).t with now := 50 } } with c := { ({ stF with t := { (stF).t with now := 50 } }).c with mem := wrNat memT (131072 + 2048) (169230368357957986439637032230126448743132135240509005093487479569300328504114798544392103960775757923136984911418594781298688) 64 } } with creg := [(queueReg 3 0x20, 5)] }).f with jobs := [(60, { id := 60, queue := 3, coach := 4, st := .header 44 })], queues := [(3, { qT with coaches := [{ num := 4, taddr := 0, task := some (.kern (th 0 32) []), st := .issued, job := some 60 }] })] } }), 60, 44, by decide +kernel⟩,
   ⟨({ { { { stF with t := { (stF).t with now := 50 } } with c := { ({ stF with t := { (stF).t with now := 50 } }).c with mem := wrNat memT (131072 + 2048) (18447026652492857344) 64 } } with creg := [(queueReg 3 0x20, 5)] } with f := { ({ { { stF with t := { (stF).t with now := 50 } } with c := { ({ stF with t := { (stF).t with now := 50 } }).c with mem := wrNat memT (131072 + 2048) (18447026652492857344) 64 } } with creg := [(queueReg 3 0x20, 5)] }).f with jobs := [(60, { id := 60, queue := 3, coach := 4, st := .header 44 })], queues := [(3, { qT with coaches := [{ num := 4, taddr := 0, task := some (.kern (th 0 32) []), st := .issued, job := some 60 }] })] } }), 60, 44, (((choosePlace (headed ({ { { { stF with t := { (stF).t with now := 50 } } with c := { ({ stF with t := { (stF).t with now := 50 } }).c with mem := wrNat memT (131072 + 2048) (18447026652492857344) 64 } } with creg := [(queueReg 3 0x20, 5)] } with f := { ({ { { stF with t := { (stF).t with now := 50 } } with c := { ({ stF with t := { (stF).t with now := 50 } }).c with mem := wrNat memT (131072 + 2048) (18447026652492857344) 64 } } with creg := [(queueReg 3 0x20, 5)] }).f with jobs := [(60, { id := 60, queue := 3, coach := 4, st := .header 44 })], queues := [(3, { qT with coaches := [{ num := 4, taddr := 0, task := some (.kern (th 0 32) []), st := .issued, job := some 60 }] })] } }) 60 44 (headerOf (dropTicket ({ { { { stF with t := { (stF).t with now := 50 } } with c := { ({ stF with t := { (stF).t with now := 50 } }).c with mem := wrNat memT (131072 + 2048) (18447026652492857344) 64 } } with creg := [(queueReg 3 0x20, 5)] } with f := { ({ { { stF with t := { (stF).t with now := 50 } } with c := { ({ stF with t := { (stF).t with now := 50 } }).c with mem := wrNat memT (131072 + 2048) (18447026652492857344) 64 } } with creg := [(queueReg 3 0x20, 5)] }).f with jobs := [(60, { id := 60, queue := 3, coach := 4, st := .header 44 })], queues := [(3, { qT with coaches := [{ num := 4, taddr := 0, task := some (.kern (th 0 32) []), st := .issued, job := some 60 }] })] } }) 44) 60)) 60 (getJob (headed ({ { { { stF with t := { (stF).t with now := 50 } } with c := { ({ stF with t := { (stF).t with now := 50 } }).c with mem := wrNat memT (131072 + 2048) (18447026652492857344) 64 } } with creg := [(queueReg 3 0x20, 5)] } with f := { ({ { { stF with t := { (stF).t with now := 50 } } with c := { ({ stF with t := { (stF).t with now := 50 } }).c with mem := wrNat memT (131072 + 2048) (18447026652492857344) 64 } } with creg := [(queueReg 3 0x20, 5)] }).f with jobs := [(60, { id := 60, queue := 3, coach := 4, st := .header 44 })], queues := [(3, { qT with coaches := [{ num := 4, taddr := 0, task := some (.kern (th 0 32) []), st := .issued, job := some 60 }] })] } }) 60 44 (headerOf (dropTicket ({ { { { stF with t := { (stF).t with now := 50 } } with c := { ({ stF with t := { (stF).t with now := 50 } }).c with mem := wrNat memT (131072 + 2048) (18447026652492857344) 64 } } with creg := [(queueReg 3 0x20, 5)] } with f := { ({ { { stF with t := { (stF).t with now := 50 } } with c := { ({ stF with t := { (stF).t with now := 50 } }).c with mem := wrNat memT (131072 + 2048) (18447026652492857344) 64 } } with creg := [(queueReg 3 0x20, 5)] }).f with jobs := [(60, { id := 60, queue := 3, coach := 4, st := .header 44 })], queues := [(3, { qT with coaches := [{ num := 4, taddr := 0, task := some (.kern (th 0 32) []), st := .issued, job := some 60 }] })] } }) 44) 60)) 60)).getD (0,0,[])).1), (((choosePlace (headed ({ { { { stF with t := { (stF).t with now := 50 } } with c := { ({ stF with t := { (stF).t with now := 50 } }).c with mem := wrNat memT (131072 + 2048) (18447026652492857344) 64 } } with creg := [(queueReg 3 0x20, 5)] } with f := { ({ { { stF with t := { (stF).t with now := 50 } } with c := { ({ stF with t := { (stF).t with now := 50 } }).c with mem := wrNat memT (131072 + 2048) (18447026652492857344) 64 } } with creg := [(queueReg 3 0x20, 5)] }).f with jobs := [(60, { id := 60, queue := 3, coach := 4, st := .header 44 })], queues := [(3, { qT with coaches := [{ num := 4, taddr := 0, task := some (.kern (th 0 32) []), st := .issued, job := some 60 }] })] } }) 60 44 (headerOf (dropTicket ({ { { { stF with t := { (stF).t with now := 50 } } with c := { ({ stF with t := { (stF).t with now := 50 } }).c with mem := wrNat memT (131072 + 2048) (18447026652492857344) 64 } } with creg := [(queueReg 3 0x20, 5)] } with f := { ({ { { stF with t := { (stF).t with now := 50 } } with c := { ({ stF with t := { (stF).t with now := 50 } }).c with mem := wrNat memT (131072 + 2048) (18447026652492857344) 64 } } with creg := [(queueReg 3 0x20, 5)] }).f with jobs := [(60, { id := 60, queue := 3, coach := 4, st := .header 44 })], queues := [(3, { qT with coaches := [{ num := 4, taddr := 0, task := some (.kern (th 0 32) []), st := .issued, job := some 60 }] })] } }) 44) 60)) 60 (getJob (headed ({ { { { stF with t := { (stF).t with now := 50 } } with c := { ({ stF with t := { (stF).t with now := 50 } }).c with mem := wrNat memT (131072 + 2048) (18447026652492857344) 64 } } with creg := [(queueReg 3 0x20, 5)] } with f := { ({ { { stF with t := { (stF).t with now := 50 } } with c := { ({ stF with t := { (stF).t with now := 50 } }).c with mem := wrNat memT (131072 + 2048) (18447026652492857344) 64 } } with creg := [(queueReg 3 0x20, 5)] }).f with jobs := [(60, { id := 60, queue := 3, coach := 4, st := .header 44 })], queues := [(3, { qT with coaches := [{ num := 4, taddr := 0, task := some (.kern (th 0 32) []), st := .issued, job := some 60 }] })] } }) 60 44 (headerOf (dropTicket ({ { { { stF with t := { (stF).t with now := 50 } } with c := { ({ stF with t := { (stF).t with now := 50 } }).c with mem := wrNat memT (131072 + 2048) (18447026652492857344) 64 } } with creg := [(queueReg 3 0x20, 5)] } with f := { ({ { { stF with t := { (stF).t with now := 50 } } with c := { ({ stF with t := { (stF).t with now := 50 } }).c with mem := wrNat memT (131072 + 2048) (18447026652492857344) 64 } } with creg := [(queueReg 3 0x20, 5)] }).f with jobs := [(60, { id := 60, queue := 3, coach := 4, st := .header 44 })], queues := [(3, { qT with coaches := [{ num := 4, taddr := 0, task := some (.kern (th 0 32) []), st := .issued, job := some 60 }] })] } }) 44) 60)) 60)).getD (0,0,[])).2.1), ((((choosePlace (headed ({ { { { stF with t := { (stF).t with now := 50 } } with c := { ({ stF with t := { (stF).t with now := 50 } }).c with mem := wrNat memT (131072 + 2048) (18447026652492857344) 64 } } with creg := [(queueReg 3 0x20, 5)] } with f := { ({ { { stF with t := { (stF).t with now := 50 } } with c := { ({ stF with t := { (stF).t with now := 50 } }).c with mem := wrNat memT (131072 + 2048) (18447026652492857344) 64 } } with creg := [(queueReg 3 0x20, 5)] }).f with jobs := [(60, { id := 60, queue := 3, coach := 4, st := .header 44 })], queues := [(3, { qT with coaches := [{ num := 4, taddr := 0, task := some (.kern (th 0 32) []), st := .issued, job := some 60 }] })] } }) 60 44 (headerOf (dropTicket ({ { { { stF with t := { (stF).t with now := 50 } } with c := { ({ stF with t := { (stF).t with now := 50 } }).c with mem := wrNat memT (131072 + 2048) (18447026652492857344) 64 } } with creg := [(queueReg 3 0x20, 5)] } with f := { ({ { { stF with t := { (stF).t with now := 50 } } with c := { ({ stF with t := { (stF).t with now := 50 } }).c with mem := wrNat memT (131072 + 2048) (18447026652492857344) 64 } } with creg := [(queueReg 3 0x20, 5)] }).f with jobs := [(60, { id := 60, queue := 3, coach := 4, st := .header 44 })], queues := [(3, { qT with coaches := [{ num := 4, taddr := 0, task := some (.kern (th 0 32) []), st := .issued, job := some 60 }] })] } }) 44) 60)) 60 (getJob (headed ({ { { { stF with t := { (stF).t with now := 50 } } with c := { ({ stF with t := { (stF).t with now := 50 } }).c with mem := wrNat memT (131072 + 2048) (18447026652492857344) 64 } } with creg := [(queueReg 3 0x20, 5)] } with f := { ({ { { stF with t := { (stF).t with now := 50 } } with c := { ({ stF with t := { (stF).t with now := 50 } }).c with mem := wrNat memT (131072 + 2048) (18447026652492857344) 64 } } with creg := [(queueReg 3 0x20, 5)] }).f with jobs := [(60, { id := 60, queue := 3, coach := 4, st := .header 44 })], queues := [(3, { qT with coaches := [{ num := 4, taddr := 0, task := some (.kern (th 0 32) []), st := .issued, job := some 60 }] })] } }) 60 44 (headerOf (dropTicket ({ { { { stF with t := { (stF).t with now := 50 } } with c := { ({ stF with t := { (stF).t with now := 50 } }).c with mem := wrNat memT (131072 + 2048) (18447026652492857344) 64 } } with creg := [(queueReg 3 0x20, 5)] } with f := { ({ { { stF with t := { (stF).t with now := 50 } } with c := { ({ stF with t := { (stF).t with now := 50 } }).c with mem := wrNat memT (131072 + 2048) (18447026652492857344) 64 } } with creg := [(queueReg 3 0x20, 5)] }).f with jobs := [(60, { id := 60, queue := 3, coach := 4, st := .header 44 })], queues := [(3, { qT with coaches := [{ num := 4, taddr := 0, task := some (.kern (th 0 32) []), st := .issued, job := some 60 }] })] } }) 44) 60)) 60)).getD (0,0,[])).2.2).headD 0), by dsimp only; decide +kernel⟩,
   ⟨({ { { { stF with t := { (stF).t with now := 50 } } with c := { ({ stF with t := { (stF).t with now := 50 } }).c with mem := wrNat (wrNat memT (131072 + 2048) (169230368515566011225214949079242609143706590460827962175349266241093502121097685630380946406432822942676647474646206254153731) 64) (131072 + 1028) (2 ^ 30 + 3 * 2 ^ 5 + 2 ^ 19 + 2 ^ 29) 4 } } with creg := [(queueReg 3 0x20, 5)] } with f := { ({ { { stF with t := { (stF).t with now := 50 } } with c := { ({ stF with t := { (stF).t with now := 50 } }).c with mem := wrNat (wrNat memT (131072 + 2048) (169230368515566011225214949079242609143706590460827962175349266241093502121097685630380946406432822942676647474646206254153731) 64) (131072 + 1028) (2 ^ 30 + 3 * 2 ^ 5 + 2 ^ 19 + 2 ^ 29) 4 } } with creg := [(queueReg 3 0x20, 5)] }).f with jobs := [(60, { id := 60, queue := 3, coach := 4, st := .header 44 })], queues := [(3, { qT with coaches := [{ num := 4, taddr := 0, task := some (.kern (th 0 32) []), st := .issued, job := some 60 }] })] } }), 60, 44, (((choosePlace (headed ({ { { { stF with t := { (stF).t with now := 50 } } with c := { ({ stF with t := { (stF).t with now := 50 } }).c with mem := wrNat (wrNat memT (131072 + 2048) (169230368515566011225214949079242609143706590460827962175349266241093502121097685630380946406432822942676647474646206254153731) 64) (131072 + 1028) (2 ^ 30 + 3 * 2 ^ 5 + 2 ^ 19 + 2 ^ 29) 4 } } with creg := [(queueReg 3 0x20, 5)] } with f := { ({ { { stF with t := { (stF).t with now := 50 } } with c := { ({ stF with t := { (stF).t with now := 50 } }).c with mem := wrNat (wrNat memT (131072 + 2048) (169230368515566011225214949079242609143706590460827962175349266241093502121097685630380946406432822942676647474646206254153731) 64) (131072 + 1028) (2 ^ 30 + 3 * 2 ^ 5 + 2 ^ 19 + 2 ^ 29) 4 } } with creg := [(queueReg 3 0x20, 5)] }).f with jobs := [(60, { id := 60, queue := 3, coach := 4, st := .header 44 })], queues := [(3, { qT with coaches := [{ num := 4, taddr := 0, task := some (.kern (th 0 32) []), st := .issued, job := some 60 }] })] } }) 60 44 (headerOf (dropTicket ({ { { { stF with t := { (stF).t with now := 50 } } with c := { ({ stF with t := { (stF).t with now := 50 } }).c with mem := wrNat (wrNat memT (131072 + 2048) (169230368515566011225214949079242609143706590460827962175349266241093502121097685630380946406432822942676647474646206254153731) 64) (131072 + 1028) (2 ^ 30 + 3 * 2 ^ 5 + 2 ^ 19 + 2 ^ 29) 4 } } with creg := [(queueReg 3 0x20, 5)] } with f := { ({ { { stF with t := { (stF).t with now := 50 } } with c := { ({ stF with t := { (stF).t with now := 50 } }).c with mem := wrNat (wrNat memT (131072 + 2048) (169230368515566011225214949079242609143706590460827962175349266241093502121097685630380946406432822942676647474646206254153731) 64) (131072 + 1028) (2 ^ 30 + 3 * 2 ^ 5 + 2 ^ 19 + 2 ^ 29) 4 } } with creg := [(queueReg 3 0x20, 5)] }).f with jobs := [(60, { id := 60, queue := 3, coach := 4, st := .header 44 })], queues := [(3, { qT with coaches := [{ num := 4, taddr := 0, task := some (.kern (th 0 32) []), st := .issued, job := some 60 }] })] } }) 44) 60)) 60 (getJob (headed ({ { { { stF with t := { (stF).t with now := 50 } } with c := { ({ stF with t := { (stF).t with now := 50 } }).c with mem := wrNat (wrNat memT (131072 + 2048) (169230368515566011225214949079242609143706590460827962175349266241093502121097685630380946406432822942676647474646206254153731) 64) (131072 + 1028) (2 ^ 30 + 3 * 2 ^ 5 + 2 ^ 19 + 2 ^ 29) 4 } } with creg := [(queueReg 3 0x20, 5)] } with f := { ({ { { stF with t := { (stF).t with now := 50 } } with c := { ({ stF with t := { (stF).t with now := 50 } }).c with mem := wrNat (wrNat memT (131072 + 2048) (169230368515566011225214949079242609143706590460827962175349266241093502121097685630380946406432822942676647474646206254153731) 64) (131072 + 1028) (2 ^ 30 + 3 * 2 ^ 5 + 2 ^ 19 + 2 ^ 29) 4 } } with creg := [(queueReg 3 0x20, 5)] }).f with jobs := [(60, { id := 60, queue := 3, coach := 4, st := .header 44 })], queues := [(3, { qT with coaches := [{ num := 4, taddr := 0, task := some (.kern (th 0 32) []), st := .issued, job := some 60 }] })] } }) 60 44 (headerOf (dropTicket ({ { { { stF with t := { (stF).t with now := 50 } } with c := { ({ stF with t := { (stF).t with now := 50 } }).c with mem := wrNat (wrNat memT (131072 + 2048) (169230368515566011225214949079242609143706590460827962175349266241093502121097685630380946406432822942676647474646206254153731) 64) (131072 + 1028) (2 ^ 30 + 3 * 2 ^ 5 + 2 ^ 19 + 2 ^ 29) 4 } } with creg := [(queueReg 3 0x20, 5)] } with f := { ({ { { stF with t := { (stF).t with now := 50 } } with c := { ({ stF with t := { (stF).t with now := 50 } }).c with mem := wrNat (wrNat memT (131072 + 2048) (169230368515566011225214949079242609143706590460827962175349266241093502121097685630380946406432822942676647474646206254153731) 64) (131072 + 1028) (2 ^ 30 + 3 * 2 ^ 5 + 2 ^ 19 + 2 ^ 29) 4 } } with creg := [(queueReg 3 0x20, 5)] }).f with jobs := [(60, { id := 60, queue := 3, coach := 4, st := .header 44 })], queues := [(3, { qT with coaches := [{ num := 4, taddr := 0, task := some (.kern (th 0 32) []), st := .issued, job := some 60 }] })] } }) 44) 60)) 60)).getD (0,0,[])).1), (((choosePlace (headed ({ { { { stF with t := { (stF).t with now := 50 } } with c := { ({ stF with t := { (stF).t with now := 50 } }).c with mem := wrNat (wrNat memT (131072 + 2048) (169230368515566011225214949079242609143706590460827962175349266241093502121097685630380946406432822942676647474646206254153731) 64) (131072 + 1028) (2 ^ 30 + 3 * 2 ^ 5 + 2 ^ 19 + 2 ^ 29) 4 } } with creg := [(queueReg 3 0x20, 5)] } with f := { ({ { { stF with t := { (stF).t with now := 50 } } with c := { ({ stF with t := { (stF).t with now := 50 } }).c with mem := wrNat (wrNat memT (131072 + 2048) (169230368515566011225214949079242609143706590460827962175349266241093502121097685630380946406432822942676647474646206254153731) 64) (131072 + 1028) (2 ^ 30 + 3 * 2 ^ 5 + 2 ^ 19 + 2 ^ 29) 4 } } with creg := [(queueReg 3 0x20, 5)] }).f with jobs := [(60, { id := 60, queue := 3, coach := 4, st := .header 44 })], queues := [(3, { qT with coaches := [{ num := 4, taddr := 0, task := some (.kern (th 0 32) []), st := .issued, job := some 60 }] })] } }) 60 44 (headerOf (dropTicket ({ { { { stF with t := { (stF).t with now := 50 } } with c := { ({ stF with t := { (stF).t with now := 50 } }).c with mem := wrNat (wrNat memT (131072 + 2048) (169230368515566011225214949079242609143706590460827962175349266241093502121097685630380946406432822942676647474646206254153731) 64) (131072 + 1028) (2 ^ 30 + 3 * 2 ^ 5 + 2 ^ 19 + 2 ^ 29) 4 } } with creg := [(queueReg 3 0x20, 5)] } with f := { ({ { { stF with t := { (stF).t with now := 50 } } with c := { ({ stF with t := { (stF).t with now := 50 } }).c with mem := wrNat (wrNat memT (131072 + 2048) (169230368515566011225214949079242609143706590460827962175349266241093502121097685630380946406432822942676647474646206254153731) 64) (131072 + 1028) (2 ^ 30 + 3 * 2 ^ 5 + 2 ^ 19 + 2 ^ 29) 4 } } with creg := [(queueReg 3 0x20, 5)] }).f with jobs := [(60, { id := 60, queue := 3, coach := 4, st := .header 44 })], queues := [(3, { qT with coaches := [{ num := 4, taddr := 0, task := some (.kern (th 0 32) []), st := .issued, job := some 60 }] })] } }) 44) 60)) 60 (getJob (headed ({ { { { stF with t := { (stF).t with now := 50 } } with c := { ({ stF with t := { (stF).t with now := 50 } }).c with mem := wrNat (wrNat memT (131072 + 2048) (169230368515566011225214949079242609143706590460827962175349266241093502121097685630380946406432822942676647474646206254153731) 64) (131072 + 1028) (2 ^ 30 + 3 * 2 ^ 5 + 2 ^ 19 + 2 ^ 29) 4 } } with creg := [(queueReg 3 0x20, 5)] } with f := { ({ { { stF with t := { (stF).t with now := 50 } } with c := { ({ stF with t := { (stF).t with now := 50 } }).c with mem := wrNat (wrNat memT (131072 + 2048) (169230368515566011225214949079242609143706590460827962175349266241093502121097685630380946406432822942676647474646206254153731) 64) (131072 + 1028) (2 ^ 30 + 3 * 2 ^ 5 + 2 ^ 19 + 2 ^ 29) 4 } } with creg := [(queueReg 3 0x20, 5)] }).f with jobs := [(60, { id := 60, queue := 3, coach := 4, st := .header 44 })], queues := [(3, { qT with coaches := [{ num := 4, taddr := 0, task := some (.kern (th 0 32) []), st := .issued, job := some 60 }] })] } }) 60 44 (headerOf (dropTicket ({ { { { stF with t := { (stF).t with now := 50 } } with c := { ({ stF with t := { (stF).t with now := 50 } }).c with mem := wrNat (wrNat memT (131072 + 2048) (169230368515566011225214949079242609143706590460827962175349266241093502121097685630380946406432822942676647474646206254153731) 64) (131072 + 1028) (2 ^ 30 + 3 * 2 ^ 5 + 2 ^ 19 + 2 ^ 29) 4 } } with creg := [(queueReg 3 0x20, 5)] } with f := { ({ { { stF with t := { (stF).t with now := 50 } } with c := { ({ stF with t := { (stF).t with now := 50 } }).c with mem := wrNat (wrNat memT (131072 + 2048) (169230368515566011225214949079242609143706590460827962175349266241093502121097685630380946406432822942676647474646206254153731) 64) (131072 + 1028) (2 ^ 30 + 3 * 2 ^ 5 + 2 ^ 19 + 2 ^ 29) 4 } } with creg := [(queueReg 3 0x20, 5)] }).f with jobs := [(60, { id := 60, queue := 3, coach := 4, st := .header 44 })], queues := [(3, { qT with coaches := [{ num := 4, taddr := 0, task := some (.kern (th 0 32) []), st := .issued, job := some 60 }] })] } }) 44) 60)) 60)).getD (0,0,[])).2.1), ((((choosePlace (headed ({ { { { stF with t := { (stF).t with now := 50 } } with c := { ({ stF with t := { (stF).t with now := 50 } }).c with mem := wrNat (wrNat memT (131072 + 2048) (169230368515566011225214949079242609143706590460827962175349266241093502121097685630380946406432822942676647474646206254153731) 64) (131072 + 1028) (2 ^ 30 + 3 * 2 ^ 5 + 2 ^ 19 + 2 ^ 29) 4 } } with creg := [(queueReg 3 0x20, 5)] } with f := { ({ { { stF with t := { (stF).t with now := 50 } } with c := { ({ stF with t := { (stF).t with now := 50 } }).c with mem := wrNat (wrNat memT (131072 + 2048) (169230368515566011225214949079242609143706590460827962175349266241093502121097685630380946406432822942676647474646206254153731) 64) (131072 + 1028) (2 ^ 30 + 3 * 2 ^ 5 + 2 ^ 19 + 2 ^ 29) 4 } } with creg := [(queueReg 3 0x20, 5)] }).f with jobs := [(60, { id := 60, queue := 3, coach := 4, st := .header 44 })], queues := [(3, { qT with coaches := [{ num := 4, taddr := 0, task := some (.kern (th 0 32) []), st := .issued, job := some 60 }] })] } }) 60 44 (headerOf (dropTicket ({ { { { stF with t := { (stF).t with now := 50 } } with c := { ({ stF with t := { (stF).t with now := 50 } }).c with mem := wrNat (wrNat memT (131072 + 2048) (169230368515566011225214949079242609143706590460827962175349266241093502121097685630380946406432822942676647474646206254153731) 64) (131072 + 1028) (2 ^ 30 + 3 * 2 ^ 5 + 2 ^ 19 + 2 ^ 29) 4 } } with creg := [(queueReg 3 0x20, 5)] } with f := { ({ { { stF with t := { (stF).t with now := 50 } } with c := { ({ stF with t := { (stF).t with now := 50 } }).c with mem := wrNat (wrNat memT (131072 + 2048) (169230368515566011225214949079242609143706590460827962175349266241093502121097685630380946406432822942676647474646206254153731) 64) (131072 + 1028) (2 ^ 30 + 3 * 2 ^ 5 + 2 ^ 19 + 2 ^ 29) 4 } } with creg := [(queueReg 3 0x20, 5)] }).f with jobs := [(60, { id := 60, queue := 3, coach := 4, st := .header 44 })], queues := [(3, { qT with coaches := [{ num := 4, taddr := 0, task := some (.kern (th 0 32) []), st := .issued, job := some 60 }] })] } }) 44) 60)) 60 (getJob (headed ({ { { { stF with t := { (stF).t with now := 50 } } with c := { ({ stF with t := { (stF).t with now := 50 } }).c with mem := wrNat (wrNat memT (131072 + 2048) (169230368515566011225214949079242609143706590460827962175349266241093502121097685630380946406432822942676647474646206254153731) 64) (131072 + 1028) (2 ^ 30 + 3 * 2 ^ 5 + 2 ^ 19 + 2 ^ 29) 4 } } with creg := [(queueReg 3 0x20, 5)] } with f := { ({ { { stF with t := { (stF).t with now := 50 } } with c := { ({ stF with t := { (stF).t with now := 50 } }).c with mem := wrNat (wrNat memT (131072 + 2048) (169230368515566011225214949079242609143706590460827962175349266241093502121097685630380946406432822942676647474646206254153731) 64) (131072 + 1028) (2 ^ 30 + 3 * 2 ^ 5 + 2 ^ 19 + 2 ^ 29) 4 } } with creg := [(queueReg 3 0x20, 5)] }).f with jobs := [(60, { id := 60, queue := 3, coach := 4, st := .header 44 })], queues := [(3, { qT with coaches := [{ num := 4, taddr := 0, task := some (.kern (th 0 32) []), st := .issued, job := some 60 }] })] } }) 60 44 (headerOf (dropTicket ({ { { { stF with t := { (stF).t with now := 50 } } with c := { ({ stF with t := { (stF).t with now := 50 } }).c with mem := wrNat (wrNat memT (131072 + 2048) (169230368515566011225214949079242609143706590460827962175349266241093502121097685630380946406432822942676647474646206254153731) 64) (131072 + 1028) (2 ^ 30 + 3 * 2 ^ 5 + 2 ^ 19 + 2 ^ 29) 4 } } with creg := [(queueReg 3 0x20, 5)] } with f := { ({ { { stF with t := { (stF).t with now := 50 } } with c := { ({ stF with t := { (stF).t with now := 50 } }).c with mem := wrNat (wrNat memT (131072 + 2048) (169230368515566011225214949079242609143706590460827962175349266241093502121097685630380946406432822942676647474646206254153731) 64) (131072 + 1028) (2 ^ 30 + 3 * 2 ^ 5 + 2 ^ 19 + 2 ^ 29) 4 } } with creg := [(queueReg 3 0x20, 5)] }).f with jobs := [(60, { id := 60, queue := 3, coach := 4, st := .header 44 })], queues := [(3, { qT with coaches := [{ num := 4, taddr := 0, task := some (.kern (th 0 32) []), st := .issued, job := some 60 }] })] } }) 44) 60)) 60)).getD (0,0,[])).2.2).headD 0), by dsimp only; decide +kernel⟩,
   ⟨({ { { { { stF with t := { (stF).t with now := 50 } } with c := { ({ stF with t := { (stF).t with now := 50 } }).c with mem := wrNat memT (131072 + 2048) (18447026652492857344) 64 } } with creg := [(queueReg 3 0x20, 5)] } with f := { ({ { { stF with t := { (stF).t with now := 50 } } with c := { ({ stF with t := { (stF).t with now := 50 } }).c with mem := wrNat memT (131072 + 2048) (18447026652492857344) 64 } } with creg := [(queueReg 3 0x20, 5)] }).f with jobs := [(60, { id := 60, queue := 3, coach := 4, st := .header 44 })], queues := [(3, { qT with coaches := [{ num := 4, taddr := 0, task := some (.kern (th 0 32) []), st := .issued, job := some 60 }] })] } } with clusters := (List.range 10).map (fun n => (n, { owner := 1 })) }), 60, 44, by dsimp only; decide +kernel⟩,
   ⟨({ { { { stF with t := { (stF).t with now := 50 } } with c := { ({ stF with t := { (stF).t with now := 50 } }).c with mem := wrNat memT (131072 + 2048) (18447025552981229568) 64 } } with creg := [(queueReg 3 0x20, 5)] } with f := { ({ { { stF with t := { (stF).t with now := 50 } } with c := { ({ stF with t := { (stF).t with now := 50 } }).c with mem := wrNat memT (131072 + 2048) (18447025552981229568) 64 } } with creg := [(queueReg 3 0x20, 5)] }).f with jobs := [(60, { id := 60, queue := 3, coach := 4, st := .starting 44 false, hdr := BitVec.ofNat 512 (18447025552981229568), members := [0], placed := 50 })], queues := [(3, { qT with coaches := [{ num := 4, taddr := 0, task := some (.kern (th 0 32) []), st := .issued, job := some 60 }] })] } }), 60, 44, by decide +kernel⟩,
   ⟨(modCtx ({ { { { stF with t := { (stF).t with now := 50 } } with c := { ({ stF with t := { (stF).t with now := 50 } }).c with mem := wrNat memT (131072 + 2048) (18447025552981229568) 64 } } with creg := [(queueReg 3 0x20, 5)] } with f := { ({ { { stF with t := { (stF).t with now := 50 } } with c := { ({ stF with t := { (stF).t with now := 50 } }).c with mem := wrNat memT (131072 + 2048) (18447025552981229568) 64 } } with creg := [(queueReg 3 0x20, 5)] }).f with jobs := [(60, { id := 60, queue := 3, coach := 4, st := .starting 44 true, hdr := BitVec.ofNat 512 (18447025552981229568), members := [0], placed := 34 })], queues := [(3, { qT with coaches := [{ num := 4, taddr := 0, task := some (.kern (th 0 32) []), st := .issued, job := some 60 }] })] } }) 0 0 (fun v => { v with status := .starting })), 60, 44, by decide +kernel⟩,
   ⟨({ { { { stF with t := { (stF).t with now := 50 } } with c := { ({ stF with t := { (stF).t with now := 50 } }).c with mem := wrNat memT (131072 + 2048) (18447025552981229568) 64 } } with creg := [(queueReg 3 0x20, 5)] } with f := { ({ { { stF with t := { (stF).t with now := 50 } } with c := { ({ stF with t := { (stF).t with now := 50 } }).c with mem := wrNat memT (131072 + 2048) (18447025552981229568) 64 } } with creg := [(queueReg 3 0x20, 5)] }).f with jobs := [(60, { id := 60, queue := 3, coach := 4, st := .waiting, hdr := BitVec.ofNat 512 (18447025552981229568) })], queues := [(3, { qT with coaches := [{ num := 4, taddr := 0, task := some (.kern (th 0 32) []), st := .issued, job := some 60 }] })] } }), 60, (((choosePlace ({ { { { stF with t := { (stF).t with now := 50 } } with c := { ({ stF with t := { (stF).t with now := 50 } }).c with mem := wrNat memT (131072 + 2048) (18447025552981229568) 64 } } with creg := [(queueReg 3 0x20, 5)] } with f := { ({ { { stF with t := { (stF).t with now := 50 } } with c := { ({ stF with t := { (stF).t with now := 50 } }).c with mem := wrNat memT (131072 + 2048) (18447025552981229568) 64 } } with creg := [(queueReg 3 0x20, 5)] }).f with jobs := [(60, { id := 60, queue := 3, coach := 4, st := .waiting, hdr := BitVec.ofNat 512 (18447025552981229568) })], queues := [(3, { qT with coaches := [{ num := 4, taddr := 0, task := some (.kern (th 0 32) []), st := .issued, job := some 60 }] })] } }) 60 (getJob ({ { { { stF with t := { (stF).t with now := 50 } } with c := { ({ stF with t := { (stF).t with now := 50 } }).c with mem := wrNat memT (131072 + 2048) (18447025552981229568) 64 } } with creg := [(queueReg 3 0x20, 5)] } with f := { ({ { { stF with t := { (stF).t with now := 50 } } with c := { ({ stF with t := { (stF).t with now := 50 } }).c with mem := wrNat memT (131072 + 2048) (18447025552981229568) 64 } } with creg := [(queueReg 3 0x20, 5)] }).f with jobs := [(60, { id := 60, queue := 3, coach := 4, st := .waiting, hdr := BitVec.ofNat 512 (18447025552981229568) })], queues := [(3, { qT with coaches := [{ num := 4, taddr := 0, task := some (.kern (th 0 32) []), st := .issued, job := some 60 }] })] } }) 60)).getD (0,0,[])).1), (((choosePlace ({ { { { stF with t := { (stF).t with now := 50 } } with c := { ({ stF with t := { (stF).t with now := 50 } }).c with mem := wrNat memT (131072 + 2048) (18447025552981229568) 64 } } with creg := [(queueReg 3 0x20, 5)] } with f := { ({ { { stF with t := { (stF).t with now := 50 } } with c := { ({ stF with t := { (stF).t with now := 50 } }).c with mem := wrNat memT (131072 + 2048) (18447025552981229568) 64 } } with creg := [(queueReg 3 0x20, 5)] }).f with jobs := [(60, { id := 60, queue := 3, coach := 4, st := .waiting, hdr := BitVec.ofNat 512 (18447025552981229568) })], queues := [(3, { qT with coaches := [{ num := 4, taddr := 0, task := some (.kern (th 0 32) []), st := .issued, job := some 60 }] })] } }) 60 (getJob ({ { { { stF with t := { (stF).t with now := 50 } } with c := { ({ stF with t := { (stF).t with now := 50 } }).c with mem := wrNat memT (131072 + 2048) (18447025552981229568) 64 } } with creg := [(queueReg 3 0x20, 5)] } with f := { ({ { { stF with t := { (stF).t with now := 50 } } with c := { ({ stF with t := { (stF).t with now := 50 } }).c with mem := wrNat memT (131072 + 2048) (18447025552981229568) 64 } } with creg := [(queueReg 3 0x20, 5)] }).f with jobs := [(60, { id := 60, queue := 3, coach := 4, st := .waiting, hdr := BitVec.ofNat 512 (18447025552981229568) })], queues := [(3, { qT with coaches := [{ num := 4, taddr := 0, task := some (.kern (th 0 32) []), st := .issued, job := some 60 }] })] } }) 60)).getD (0,0,[])).2.1), (((choosePlace ({ { { { stF with t := { (stF).t with now := 50 } } with c := { ({ stF with t := { (stF).t with now := 50 } }).c with mem := wrNat memT (131072 + 2048) (18447025552981229568) 64 } } with creg := [(queueReg 3 0x20, 5)] } with f := { ({ { { stF with t := { (stF).t with now := 50 } } with c := { ({ stF with t := { (stF).t with now := 50 } }).c with mem := wrNat memT (131072 + 2048) (18447025552981229568) 64 } } with creg := [(queueReg 3 0x20, 5)] }).f with jobs := [(60, { id := 60, queue := 3, coach := 4, st := .waiting, hdr := BitVec.ofNat 512 (18447025552981229568) })], queues := [(3, { qT with coaches := [{ num := 4, taddr := 0, task := some (.kern (th 0 32) []), st := .issued, job := some 60 }] })] } }) 60 (getJob ({ { { { stF with t := { (stF).t with now := 50 } } with c := { ({ stF with t := { (stF).t with now := 50 } }).c with mem := wrNat memT (131072 + 2048) (18447025552981229568) 64 } } with creg := [(queueReg 3 0x20, 5)] } with f := { ({ { { stF with t := { (stF).t with now := 50 } } with c := { ({ stF with t := { (stF).t with now := 50 } }).c with mem := wrNat memT (131072 + 2048) (18447025552981229568) 64 } } with creg := [(queueReg 3 0x20, 5)] }).f with jobs := [(60, { id := 60, queue := 3, coach := 4, st := .waiting, hdr := BitVec.ofNat 512 (18447025552981229568) })], queues := [(3, { qT with coaches := [{ num := 4, taddr := 0, task := some (.kern (th 0 32) []), st := .issued, job := some 60 }] })] } }) 60)).getD (0,0,[])).2.2), by decide +kernel⟩,
   ⟨({ { modCtx ({ { { { stF with t := { (stF).t with now := 50 } } with c := { ({ stF with t := { (stF).t with now := 50 } }).c with mem := wrNat memT (131072 + 2048) (18447025552981229568) 64 } } with creg := [(queueReg 3 0x20, 5)] } with f := { ({ { { stF with t := { (stF).t with now := 50 } } with c := { ({ stF with t := { (stF).t with now := 50 } }).c with mem := wrNat memT (131072 + 2048) (18447025552981229568) 64 } } with creg := [(queueReg 3 0x20, 5)] }).f with jobs := [(60, { id := 60, queue := 3, coach := 4, st := .waiting, pri := 3, hdr := BitVec.ofNat 512 (18447025552981229568) }), (61, { id := 61, queue := 3, coach := 5, st := .running, members := [0], ctx := 0, hdr := BitVec.ofNat 512 (18447025552981229568) })], queues := [(3, { qT with coaches := [{ num := 4, taddr := 0, task := some (.kern (th 0 32) []), st := .issued, job := some 60 }] })] } }) 0 0 (fun v => { v with j := { v.j with job := some 61 } }) with creg := [(queueReg 3 0x20, 5)] ++ (List.range 10).map (fun n => (0x10030 + 0x10000 * n, 1)), clusters := (List.range 10).map (fun n => (n, { owner := if n = 0 then 0 else 1 })) } with f := { ({ modCtx ({ { { { stF with t := { (stF).t with now := 50 } } with c := { ({ stF with t := { (stF).t with now := 50 } }).c with mem := wrNat memT (131072 + 2048) (18447025552981229568) 64 } } with creg := [(queueReg 3 0x20, 5)] } with f := { ({ { { stF with t := { (stF).t with now := 50 } } with c := { ({ stF with t := { (stF).t with now := 50 } }).c with mem := wrNat memT (131072 + 2048) (18447025552981229568) 64 } } with creg := [(queueReg 3 0x20, 5)] }).f with jobs := [(60, { id := 60, queue := 3, coach := 4, st := .waiting, pri := 3, hdr := BitVec.ofNat 512 (18447025552981229568) }), (61, { id := 61, queue := 3, coach := 5, st := .running, members := [0], ctx := 0, hdr := BitVec.ofNat 512 (18447025552981229568) })], queues := [(3, { qT with coaches := [{ num := 4, taddr := 0, task := some (.kern (th 0 32) []), st := .issued, job := some 60 }] })] } }) 0 0 (fun v => { v with j := { v.j with job := some 61 } }) with creg := [(queueReg 3 0x20, 5)] ++ (List.range 10).map (fun n => (0x10030 + 0x10000 * n, 1)), clusters := (List.range 10).map (fun n => (n, { owner := if n = 0 then 0 else 1 })) }).f with sidings := [(0, List.range 400)] } }), 60, 61, by decide +kernel⟩,
   ⟨({ modCtx ({ { { { stF with t := { (stF).t with now := 50 } } with c := { ({ stF with t := { (stF).t with now := 50 } }).c with mem := wrNat memT (131072 + 2048) (18447025552981229568) 64 } } with creg := [(queueReg 3 0x20, 5)] } with f := { ({ { { stF with t := { (stF).t with now := 50 } } with c := { ({ stF with t := { (stF).t with now := 50 } }).c with mem := wrNat memT (131072 + 2048) (18447025552981229568) 64 } } with creg := [(queueReg 3 0x20, 5)] }).f with jobs := [(60, { id := 60, queue := 3, coach := 4, st := .waiting, pri := 3, hdr := BitVec.ofNat 512 (18447025552981229568) }), (61, { id := 61, queue := 3, coach := 5, st := .running, members := [0], ctx := 0, hdr := BitVec.ofNat 512 (18447025552981229568) })], queues := [(3, { qT with coaches := [{ num := 4, taddr := 0, task := some (.kern (th 0 32) []), st := .issued, job := some 60 }] })] } }) 0 0 (fun v => { v with j := { v.j with job := some 61 } }) with creg := [(queueReg 3 0x20, 5)] ++ (List.range 10).map (fun n => (0x10030 + 0x10000 * n, 1)), clusters := (List.range 10).map (fun n => (n, { owner := if n = 0 then 0 else 1 })) }), 60, 61, by decide +kernel⟩⟩

/-- States and operands that meet the hypotheses of RollbackAndPreemptionEvents. -/
theorem wit_RollbackAndPreemptionEvents :
    (∃ s : State, ∃ c : Nat, ∃ x : Nat, ∃ cls : Nat, ∃ cause : Nat, (getCtx s c x).g.rbPending = some (cls, cause) ∧ ((getCtx s c x).status = .running ∨ (getCtx s c x).status = .ready) ∧ (getCtx s c x).g.nonReplay = false ∧ (getCtx s c x).g.replays < 2) ∧
    (∃ s : State, ∃ c : Nat, ∃ x : Nat, ∃ cls : Nat, ∃ cause : Nat, (getCtx s c x).g.rbPending = some (cls, cause) ∧ ((getCtx s c x).status = .running ∨ (getCtx s c x).status = .ready) ∧ (getCtx s c x).g.nonReplay = false ∧ (getCtx s c x).g.replays < 2) ∧
    (∃ s : State, ∃ c : Nat, ∃ x : Nat, ∃ cls : Nat, ∃ cause : Nat, ∃ j : Nat, (getCtx s c x).g.rbPending = some (cls, cause) ∧ ((getCtx s c x).status = .running ∨ (getCtx s c x).status = .ready) ∧ ((getCtx s c x).g.nonReplay = true ∨ 2 ≤ (getCtx s c x).g.replays) ∧ (getCtx s c x).j.job = some j ∧ (Sound s (getJob s j).queue (getJob s j).coach)) ∧
    (∃ s : State, ∃ c : Nat, ∃ x : Nat, ∃ cls : Nat, ∃ cause : Nat, ∃ j : Nat, (getCtx s c x).g.rbPending = some (cls, cause) ∧ ((getCtx s c x).status = .running ∨ (getCtx s c x).status = .ready) ∧ ((getCtx s c x).g.nonReplay = true ∨ 2 ≤ (getCtx s c x).g.replays) ∧ (getCtx s c x).j.job = some j ∧ (Sound s (getJob s j).queue (getJob s j).coach)) ∧
    (∃ s : State, ∃ c : Nat, ∃ x : Nat, (getCtx s c x).g.rollingBack = true ∧ (getCtx s c x).status = .stopped ∧ (getCtx s c x).stopWith = none ∧ (∀ j, (getCtx s c x).j.job = some j → (getJob s j).st = .running ∧ (getJob s j).killed = false) ∧ (ctxReqs s c x inbound = [])) ∧
    (∃ s : State, ∃ id : Nat, ∃ who : Preemptor, (getJob s id).st = .running ∧ (getJob s id).killed = false ∧ (who ≠ .debugHalt) ∧ (framesFor s (getJob s id) = true)) ∧
    (∃ s : State, ∃ id : Nat, (getJob s id).st = .running ∧ (getJob s id).killed = false ∧ (framesFor s (getJob s id) = false)) ∧
    (∃ s : State, ∃ id : Nat, let j := getJob s id
      (j.st = .halting) ∧ (j.killed = false) ∧ (j.preempt ≠ some .debugHalt) ∧ (∀ c ∈ jobCores j, (getCtx s c j.ctx).cast = [] ∧ (getCtx s c j.ctx).commits = [])) ∧
    (∃ s : State, ∃ id : Nat, let j := getJob s id
      (j.st = .halting) ∧ (j.killed = false) ∧ (j.preempt ≠ some .debugHalt) ∧ (∀ c ∈ jobCores j, (getCtx s c j.ctx).cast = [] ∧ (getCtx s c j.ctx).commits = [])) ∧
    (∃ s : State, ∃ id : Nat, (getJob s id).st = .halted ∧ (quiet s id (getJob s id) = true)) ∧
    (∃ s : State, ∃ id : Nat, ∃ k : Nat, (getJob s id).st = .swapping k ∧ (arrived s k = true)) ∧
    (∃ s : State, ∃ id : Nat, ∃ k : Nat, ∃ c : Nat, ∃ im : MemberImage, (getJob s id).st = .restoring k ∧ (arrived s k = true) ∧ (jobCores (getJob s id) = [c]) ∧ (getJob s id).image = [im] ∧ (im.ctx.status = .stopped)) ∧
    (∃ s : State, ∃ id : Nat, ∃ k : Nat, ∃ c : Nat, ∃ im : MemberImage, (getJob s id).st = .restoring k ∧ (arrived s k = true) ∧ (jobCores (getJob s id) = [c]) ∧ (getJob s id).image = [im] ∧ (im.ctx.status = .stopped)) :=
  ⟨⟨(modCtx stF 0 0 (fun v => { v with status := .running, landings := [{ id := 3 }], g := { v.g with rbPending := some (19, 2), replays := 1, chk := { pc := 9, sregs := [(1, 5)], preds := 0x11, rstack := [3] } } })), 0, 0, 19, 2, by decide +kernel⟩,
   ⟨(modCtx stF 0 0 (fun v => { v with status := .ready, landings := [{ id := 3 }], g := { v.g with rbPending := some (19, 2), replays := 1, chk := { pc := 9, sregs := [(1, 5)], preds := 0x11, rstack := [3] } } })), 0, 0, 19, 2, by decide +kernel⟩,
   ⟨({ modCtx stF 0 0 (fun v => { v with j := { v.j with job := some 60 }, g := { v.g with rbPending := some (19, 2), nonReplay := true, replays := 0, chk := { pc := 9, sregs := [(1, 5)], preds := 0x11, rstack := [3] } } }) with f := { (modCtx stF 0 0 (fun v => { v with j := { v.j with job := some 60 }, g := { v.g with rbPending := some (19, 2), nonReplay := true, replays := 0, chk := { pc := 9, sregs := [(1, 5)], preds := 0x11, rstack := [3] } } })).f with jobs := [(60, { id := 60, queue := 3, coach := 4, st := .running, members := [0] })], queues := [(3, { qT with coaches := [{ num := 4, taddr := 0, task := none, st := .issued, job := some 60 }] })] } }), 0, 0, 19, 2, 60, by decide +kernel⟩,
   ⟨({ modCtx stF 0 0 (fun v => { v with j := { v.j with job := some 60 }, g := { v.g with rbPending := some (18, 2), nonReplay := false, replays := 2, chk := { pc := 9, sregs := [(1, 5)], preds := 0x11, rstack := [3] } } }) with f := { (modCtx stF 0 0 (fun v => { v with j := { v.j with job := some 60 }, g := { v.g with rbPending := some (18, 2), nonReplay := false, replays := 2, chk := { pc := 9, sregs := [(1, 5)], preds := 0x11, rstack := [3] } } })).f with jobs := [(60, { id := 60, queue := 3, coach := 4, st := .running, members := [0] })], queues := [(3, { qT with coaches := [{ num := 4, taddr := 0, task := none, st := .issued, job := some 60 }] })] } }), 0, 0, 18, 2, 60, by decide +kernel⟩,
   ⟨({ modCtx stF 0 0 (fun v => { v with status := .stopped, g := { v.g with rollingBack := true, chk := { pc := 9, sregs := [(1, 5)], preds := 0x11, rstack := [3] } } }) with x := { stF.x with reqs := [(50, { id := 50, core := 0, ctx := 0, kind := .copyo, st := .held })] } }), 0, 0, by decide +kernel⟩,
   ⟨({ stF with f := { (stF).f with jobs := [(60, { id := 60, queue := 3, coach := 4, st := .running, members := [0], hdr := BitVec.ofNat 512 (18447025552981229568) })], sidings := [(0, List.range 400)] } }), 60, .dispatcher, by decide +kernel⟩,
   ⟨({ stF with f := { (stF).f with jobs := [(60, { id := 60, queue := 3, coach := 4, st := .running, members := [0], hdr := BitVec.ofNat 512 (18447025552981229568) })], sidings := [(0, [])] } }), 60, by decide +kernel⟩,
   ⟨({ modCtx stF 0 0 (fun v => { v with status := .running, j := { v.j with job := some 60 }, r := { v.r with pc := 9 } }) with f := { (modCtx stF 0 0 (fun v => { v with status := .running, j := { v.j with job := some 60 }, r := { v.r with pc := 9 } })).f with jobs := [(60, { id := 60, queue := 3, coach := 4, st := .halting, members := [0], hdr := BitVec.ofNat 512 (18447025552981229568) })], sidings := [(0, [])] } }), 60, by dsimp only; decide +kernel⟩,
   ⟨({ modCtx stF 0 0 (fun v => { v with status := .blocked 1 0 0, j := { v.j with job := some 60 }, r := { v.r with pc := 9 } }) with f := { (modCtx stF 0 0 (fun v => { v with status := .blocked 1 0 0, j := { v.j with job := some 60 }, r := { v.r with pc := 9 } })).f with jobs := [(60, { id := 60, queue := 3, coach := 4, st := .halting, members := [0], hdr := BitVec.ofNat 512 (18447025552981229568) })], sidings := [(0, [])] } }), 60, by dsimp only; decide +kernel⟩,
   ⟨({ modCtx stF 0 0 (fun v => { v with status := .stopped, j := { v.j with job := some 60 }, r := { v.r with pc := 9 } }) with f := { (modCtx stF 0 0 (fun v => { v with status := .stopped, j := { v.j with job := some 60 }, r := { v.r with pc := 9 } })).f with jobs := [(60, { id := 60, queue := 3, coach := 4, st := .halted, members := [0], hdr := BitVec.ofNat 512 (18447025552981229568), frames := List.range 40 })], sidings := [(0, [])] } }), 60, by decide +kernel⟩,
   ⟨({ modCtx stF 0 0 (fun v => { v with status := .stopped, j := { v.j with job := some 60 }, r := { v.r with pc := 9 } }) with f := { (modCtx stF 0 0 (fun v => { v with status := .stopped, j := { v.j with job := some 60 }, r := { v.r with pc := 9 } })).f with jobs := [(60, { id := 60, queue := 3, coach := 4, st := .swapping 44, members := [0], hdr := BitVec.ofNat 512 (18447025552981229568), frames := List.range 40 })], sidings := [(0, [])] } }), 60, 44, by decide +kernel⟩,
   ⟨({ modCtx stF 0 0 (fun v => { v with status := .starting, j := { v.j with job := some 60 }, r := { v.r with pc := 9 } }) with f := { (modCtx stF 0 0 (fun v => { v with status := .starting, j := { v.j with job := some 60 }, r := { v.r with pc := 9 } })).f with jobs := [(60, { id := 60, queue := 3, coach := 4, st := .restoring 44, members := [0], hdr := BitVec.ofNat 512 (18447025552981229568), frames := List.range 40, image := [{ core := 0, ctx := { ctxT with status := .stopped, g := { rollingBack := false } } }] })], sidings := [(0, [])] } }), 60, 44, 0, ({ core := 0, ctx := { ctxT with status := .stopped, g := { rollingBack := false } } }), by decide +kernel⟩,
   ⟨({ modCtx stF 0 0 (fun v => { v with status := .starting, j := { v.j with job := some 60 }, r := { v.r with pc := 9 } }) with f := { (modCtx stF 0 0 (fun v => { v with status := .starting, j := { v.j with job := some 60 }, r := { v.r with pc := 9 } })).f with jobs := [(60, { id := 60, queue := 3, coach := 4, st := .restoring 44, members := [0], hdr := BitVec.ofNat 512 (18447025552981229568), frames := List.range 40, image := [{ core := 0, ctx := { ctxT with status := .stopped, g := { rollingBack := true } } }] })], sidings := [(0, [])] } }), 60, 44, 0, ({ core := 0, ctx := { ctxT with status := .stopped, g := { rollingBack := true } } }), by decide +kernel⟩⟩

/-- States and operands that meet the hypotheses of CoachIssueAndRetirementEvents. -/
theorem wit_CoachIssueAndRetirementEvents :
    (∃ s : State, ∃ q : Nat, ∃ c : Coach, ∃ n : Nat, ∃ a : Nat, (NextIssue s q c) ∧ (c.opc = 1 ∨ c.opc = 2) ∧ (c.badOp = none) ∧ (n < 10) ∧ (getCl s n).owner = (getQ s q).part ∧ (codeHas s (codeOfQ s q) (64 * (coachHdr c).imm.toNat) 64 = true) ∧ (codeAddr s (codeOfQ s q) (64 * (coachHdr c).imm.toNat) = some a)) ∧
    (∃ s : State, ∃ q : Nat, ∃ c : Coach, ∃ n : Nat, ∃ a : Nat, (NextIssue s q c) ∧ (c.opc = 1 ∨ c.opc = 2) ∧ (c.badOp = none) ∧ (n < 10) ∧ (getCl s n).owner = (getQ s q).part ∧ (codeHas s (codeOfQ s q) (64 * (coachHdr c).imm.toNat) 64 = true) ∧ (codeAddr s (codeOfQ s q) (64 * (coachHdr c).imm.toNat) = some a)) ∧
    (∃ s : State, ∃ q : Nat, ∃ c : Coach, ∃ a : ROp, ∃ b : ROp, ∃ l : List ROp, ∃ img : Wide, (NextIssue s q c) ∧ (c.opc = 3) ∧ (c.badOp = none) ∧ (c.ops = a :: b :: l) ∧ (nestAt s (codeOfQ s q) (coachImm c) = some img) ∧ (nestOf img).dir = 2 ∧ (tcopyBad (nestOf img) (descOf (descImage s a.tid)) (descOf (descImage s b.tid)) (tileOrigin (descOf (descImage s a.tid)) (firstTile a)) (tileOrigin (descOf (descImage s b.tid)) (firstTile b)) = false)) ∧
    (∃ s : State, ∃ q : Nat, ∃ c : Coach, ∃ a : ROp, ∃ l : List ROp, (NextIssue s q c) ∧ (c.opc = 4) ∧ (c.badOp = none) ∧ (c.ops = a :: l) ∧ (descOf (descImage s a.tid)).fmt ≠ 9) ∧
    (∃ s : State, ∃ q : Nat, ∃ c : Coach, ∃ a : ROp, ∃ l : List ROp, (NextIssue s q c) ∧ (c.opc = 0x21 ∨ c.opc = 0x20 ∧ ((coachHdr c).scope ≠ 3 ∨ (getQ s q).peerOwed = false)) ∧ (c.ops = a :: l)) ∧
    (∃ s : State, ∃ q : Nat, ∃ c : Coach, ∃ a : ROp, ∃ l : List ROp, (NextIssue s q c) ∧ (c.opc = 0x21 ∨ c.opc = 0x20 ∧ ((coachHdr c).scope ≠ 3 ∨ (getQ s q).peerOwed = false)) ∧ (c.ops = a :: l)) ∧
    (∃ s : State, ∃ q : Nat, ∃ c : Coach, (NextIssue s q c) ∧ (c.opc = 0x20) ∧ (coachHdr c).scope = 3 ∧ (getQ s q).peerOwed = true) ∧
    (∃ s : State, ∃ q : Nat, ∃ c : Coach, (NextIssue s q c) ∧ (c.opc = 0x41)) ∧
    (∃ s : State, ∃ q : Nat, ∃ c : Coach, (NextIssue s q c) ∧ (c.opc = 0x40 ∨ c.opc = 0x7F)) ∧
    (∃ s : State, ∃ q : Nat, ∃ c : Coach, (NextIssue s q c) ∧ (c.opc = 0x40 ∨ c.opc = 0x7F)) ∧
    (∃ s : State, ∃ q : Nat, ∃ n : Nat, ∃ c : Coach, ∃ e : Nat, ∃ o : ROp, (sound (getQ s q)).find? (fun c => c.num = n) = some c ∧ (spareFe s = some e) ∧ (fillsOf c)[c.fills.length]? = some o ∧ (getQ s q).live = true ∧ (c.st = .decoded ∨ c.st = .waiting) ∧ (edgesMet (getQ s q) c = true)) ∧
    (∃ s : State, ∃ q : Nat, ∃ n : Nat, ∃ c : Coach, ∃ clk : Nat, (getCoach s q n = some c) ∧ (c.st = .issued) ∧ (c.fault = none) ∧ (coachEnd s c = .ended clk) ∧ ((coachHdr c).scope ≠ 3 ∨ (getQ s q).peerOwed = false ∨ c.opc = 0x20)) ∧
    (∃ s : State, ∃ q : Nat, ∃ n : Nat, ∃ c : Coach, ∃ clk : Nat, (getCoach s q n = some c) ∧ (c.st = .issued) ∧ (c.fault = none) ∧ (coachEnd s c = .ended clk) ∧ ((coachHdr c).scope ≠ 3 ∨ (getQ s q).peerOwed = false ∨ c.opc = 0x20)) ∧
    (∃ s : State, ∃ q : Nat, ∃ n : Nat, ∃ c : Coach, ∃ clk : Nat, (getCoach s q n = some c) ∧ (c.st = .issued) ∧ (c.fault = none) ∧ (coachEnd s c = .ended clk) ∧ (coachHdr c).scope = 3 ∧ (c.opc ≠ 0x20) ∧ (getQ s q).peerOwed = true ∧ (getQ s q).flushAt = none) ∧
    (∃ s : State, ∃ q : Nat, ∃ u : Nat, (getQ s q).flushAt = some u ∧ (u ≤ s.t.now)) ∧
    (∃ s : State, ∃ q : Nat, ∃ c : Coach, ∃ l : List Coach, (getQ s q).coaches = c :: l ∧ (getQ s q).live = true ∧ (c.st = .completed) ∧ (c.fault = none)) ∧
    (∃ s : State, ∃ q : Nat, ∃ c : Coach, ∃ l : List Coach, (getQ s q).coaches = c :: l ∧ (getQ s q).live = true ∧ (c.st = .completed) ∧ (c.fault = none)) :=
  ⟨⟨({ { stF with creg := [(queueReg 3 0x20, 5)] } with f := { ({ stF with creg := [(queueReg 3 0x20, 5)] }).f with queues := [(3, { qT with coaches := [{ num := 3, taddr := 0, opc := 64, task := some (.tmark (th 0 0) []), st := .completed }, { num := 4, taddr := 0, opc := 1, task := some (.kern (th 0 32) []), st := .decoded, sregs := [5] }] })] } }), 3, ({ num := 4, taddr := 0, opc := 1, task := some (.kern (th 0 32) []), st := .decoded, sregs := [5] }), 9, ((codeAddr ({ { stF with creg := [(queueReg 3 0x20, 5)] } with f := { ({ stF with creg := [(queueReg 3 0x20, 5)] }).f with queues := [(3, { qT with coaches := [{ num := 3, taddr := 0, opc := 64, task := some (.tmark (th 0 0) []), st := .completed }, { num := 4, taddr := 0, opc := 1, task := some (.kern (th 0 32) []), st := .decoded, sregs := [5] }] })] } }) (codeOfQ ({ { stF with creg := [(queueReg 3 0x20, 5)] } with f := { ({ stF with creg := [(queueReg 3 0x20, 5)] }).f with queues := [(3, { qT with coaches := [{ num := 3, taddr := 0, opc := 64, task := some (.tmark (th 0 0) []), st := .completed }, { num := 4, taddr := 0, opc := 1, task := some (.kern (th 0 32) []), st := .decoded, sregs := [5] }] })] } }) 3) (64 * 32)).getD 0), by decide +kernel⟩,
   ⟨({ { stF with creg := [(queueReg 3 0x20, 5)] } with f := { ({ stF with creg := [(queueReg 3 0x20, 5)] }).f with queues := [(3, { qT with coaches := [{ num := 3, taddr := 0, opc := 64, task := some (.tmark (th 0 0) []), st := .completed }, { num := 4, taddr := 0, opc := 2, task := some (.gang (th 0 32) []), st := .decoded, sregs := [5] }] })] } }), 3, ({ num := 4, taddr := 0, opc := 2, task := some (.gang (th 0 32) []), st := .decoded, sregs := [5] }), 9, ((codeAddr ({ { stF with creg := [(queueReg 3 0x20, 5)] } with f := { ({ stF with creg := [(queueReg 3 0x20, 5)] }).f with queues := [(3, { qT with coaches := [{ num := 3, taddr := 0, opc := 64, task := some (.tmark (th 0 0) []), st := .completed }, { num := 4, taddr := 0, opc := 2, task := some (.gang (th 0 32) []), st := .decoded, sregs := [5] }] })] } }) (codeOfQ ({ { stF with creg := [(queueReg 3 0x20, 5)] } with f := { ({ stF with creg := [(queueReg 3 0x20, 5)] }).f with queues := [(3, { qT with coaches := [{ num := 3, taddr := 0, opc := 64, task := some (.tmark (th 0 0) []), st := .completed }, { num := 4, taddr := 0, opc := 2, task := some (.gang (th 0 32) []), st := .decoded, sregs := [5] }] })] } }) 3) (64 * 32)).getD 0), by decide +kernel⟩,
   ⟨({ { { stF with creg := [(queueReg 3 0x20, 5)] } with c := { ({ stF with creg := [(queueReg 3 0x20, 5)] }).c with mem := wrNat memT (131072 + 1280) (17 + 256 * 2 ^ 64 + 1 * 2 ^ 512) 66 } } with f := { ({ { stF with creg := [(queueReg 3 0x20, 5)] } with c := { ({ stF with creg := [(queueReg 3 0x20, 5)] }).c with mem := wrNat memT (131072 + 1280) (17 + 256 * 2 ^ 64 + 1 * 2 ^ 512) 66 } }).f with queues := [(3, { qT with coaches := [{ num := 3, taddr := 0, opc := 64, task := some (.tmark (th 0 0) []), st := .completed }, { num := 4, taddr := 0, opc := 3, task := some (.tcopy (th 0 20) []), st := .decoded, ops := [{ tid := 9, mode := 1, raw := true, boxes := [(0, 0)] }, { tid := 9, mode := 2, raw := true, boxes := [(0, 0)] }] }] })] } }), 3, ({ num := 4, taddr := 0, opc := 3, task := some (.tcopy (th 0 20) []), st := .decoded, ops := [{ tid := 9, mode := 1, raw := true, boxes := [(0, 0)] }, { tid := 9, mode := 2, raw := true, boxes := [(0, 0)] }] }), ({ tid := 9, mode := 1, raw := true, boxes := [(0, 0)] }), ({ tid := 9, mode := 2, raw := true, boxes := [(0, 0)] }), ([]), ((nestAt ({ { { stF with creg := [(queueReg 3 0x20, 5)] } with c := { ({ stF with creg := [(queueReg 3 0x20, 5)] }).c with mem := wrNat memT (131072 + 1280) (17 + 256 * 2 ^ 64 + 1 * 2 ^ 512) 66 } } with f := { ({ { stF with creg := [(queueReg 3 0x20, 5)] } with c := { ({ stF with creg := [(queueReg 3 0x20, 5)] }).c with mem := wrNat memT (131072 + 1280) (17 + 256 * 2 ^ 64 + 1 * 2 ^ 512) 66 } }).f with queues := [(3, { qT with coaches := [{ num := 3, taddr := 0, opc := 64, task := some (.tmark (th 0 0) []), st := .completed }, { num := 4, taddr := 0, opc := 3, task := some (.tcopy (th 0 20) []), st := .decoded, ops := [{ tid := 9, mode := 1, raw := true, boxes := [(0, 0)] }, { tid := 9, mode := 2, raw := true, boxes := [(0, 0)] }] }] })] } }) (codeOfQ ({ { { stF with creg := [(queueReg 3 0x20, 5)] } with c := { ({ stF with creg := [(queueReg 3 0x20, 5)] }).c with mem := wrNat memT (131072 + 1280) (17 + 256 * 2 ^ 64 + 1 * 2 ^ 512) 66 } } with f := { ({ { stF with creg := [(queueReg 3 0x20, 5)] } with c := { ({ stF with creg := [(queueReg 3 0x20, 5)] }).c with mem := wrNat memT (131072 + 1280) (17 + 256 * 2 ^ 64 + 1 * 2 ^ 512) 66 } }).f with queues := [(3, { qT with coaches := [{ num := 3, taddr := 0, opc := 64, task := some (.tmark (th 0 0) []), st := .completed }, { num := 4, taddr := 0, opc := 3, task := some (.tcopy (th 0 20) []), st := .decoded, ops := [{ tid := 9, mode := 1, raw := true, boxes := [(0, 0)] }, { tid := 9, mode := 2, raw := true, boxes := [(0, 0)] }] }] })] } }) 3) 20).getD 0), by decide +kernel⟩,
   ⟨({ { stF with creg := [(queueReg 3 0x20, 5)] } with f := { ({ stF with creg := [(queueReg 3 0x20, 5)] }).f with queues := [(3, { qT with coaches := [{ num := 3, taddr := 0, opc := 64, task := some (.tmark (th 0 0) []), st := .completed }, { num := 4, taddr := 0, opc := 4, task := some (.tfill (th 0 20) []), st := .decoded, ops := [{ tid := 9, mode := 2, raw := true, boxes := [(0, 0)], grid := [[(0, 0)]] }] }] })] } }), 3, ({ num := 4, taddr := 0, opc := 4, task := some (.tfill (th 0 20) []), st := .decoded, ops := [{ tid := 9, mode := 2, raw := true, boxes := [(0, 0)], grid := [[(0, 0)]] }] }), ({ tid := 9, mode := 2, raw := true, boxes := [(0, 0)], grid := [[(0, 0)]] }), ([]), by decide +kernel⟩,
   ⟨({ { stF with creg := [(queueReg 3 0x20, 5)] } with f := { ({ stF with creg := [(queueReg 3 0x20, 5)] }).f with queues := [(3, { qT with coaches := [{ num := 4, taddr := 0, opc := 32, task := some (.tsig (th 5 20) []), st := .decoded, ops := [{ tid := 9, mode := 1, raw := true, boxes := [(0, 0)] }], qval := 3 }] })] } }), 3, ({ num := 4, taddr := 0, opc := 32, task := some (.tsig (th 5 20) []), st := .decoded, ops := [{ tid := 9, mode := 1, raw := true, boxes := [(0, 0)] }], qval := 3 }), ({ tid := 9, mode := 1, raw := true, boxes := [(0, 0)] }), ([]), by decide +kernel⟩,
   ⟨({ { stF with creg := [(queueReg 3 0x20, 5)] } with f := { ({ stF with creg := [(queueReg 3 0x20, 5)] }).f with queues := [(3, { qT with coaches := [{ num := 4, taddr := 0, opc := 33, task := some (.twait (th 5 20) []), st := .decoded, ops := [{ tid := 9, mode := 1, raw := true, boxes := [(0, 0)] }], qval := 3 }] })] } }), 3, ({ num := 4, taddr := 0, opc := 33, task := some (.twait (th 5 20) []), st := .decoded, ops := [{ tid := 9, mode := 1, raw := true, boxes := [(0, 0)] }], qval := 3 }), ({ tid := 9, mode := 1, raw := true, boxes := [(0, 0)] }), ([]), by decide +kernel⟩,
   ⟨({ { stF with creg := [(queueReg 3 0x20, 5)] } with f := { ({ stF with creg := [(queueReg 3 0x20, 5)] }).f with queues := [(3, { qT with coaches := [{ num := 4, taddr := 0, opc := 32, task := some (.tsig ⟨false, 3, false, false, 15, 15, 5, 0, 20⟩ []), st := .decoded, ops := [{ tid := 9, mode := 1, raw := true, boxes := [(0, 0)] }], qval := 3 }], peerOwed := true })] } }), 3, ({ num := 4, taddr := 0, opc := 32, task := some (.tsig ⟨false, 3, false, false, 15, 15, 5, 0, 20⟩ []), st := .decoded, ops := [{ tid := 9, mode := 1, raw := true, boxes := [(0, 0)] }], qval := 3 }), by decide +kernel⟩,
   ⟨({ { stF with creg := [(queueReg 3 0x20, 5)] } with f := { ({ stF with creg := [(queueReg 3 0x20, 5)] }).f with queues := [(3, { qT with coaches := [{ num := 4, taddr := 0, opc := 65, task := some (.tpri (th 5 15) []), st := .decoded }] })] } }), 3, ({ num := 4, taddr := 0, opc := 65, task := some (.tpri (th 5 15) []), st := .decoded }), by decide +kernel⟩,
   ⟨({ { stF with creg := [(queueReg 3 0x20, 5)] } with f := { ({ stF with creg := [(queueReg 3 0x20, 5)] }).f with queues := [(3, { qT with coaches := [{ num := 4, taddr := 0, opc := 64, task := some (.tmark (th 5 15) []), st := .decoded }] })] } }), 3, ({ num := 4, taddr := 0, opc := 64, task := some (.tmark (th 5 15) []), st := .decoded }), by decide +kernel⟩,
   ⟨({ { stF with creg := [(queueReg 3 0x20, 5)] } with f := { ({ stF with creg := [(queueReg 3 0x20, 5)] }).f with queues := [(3, { qT with coaches := [{ num := 4, taddr := 0, opc := 127, task := some (.thalt (th 5 15) []), st := .decoded }] })] } }), 3, ({ num := 4, taddr := 0, opc := 127, task := some (.thalt (th 5 15) []), st := .decoded }), by decide +kernel⟩,
   ⟨({ { stF with creg := [(queueReg 3 0x20, 5)] } with f := { ({ stF with creg := [(queueReg 3 0x20, 5)] }).f with queues := [(3, { qT with coaches := [{ num := 3, taddr := 0, opc := 64, task := some (.tmark (th 0 0) []), st := .completed }, { num := 4, taddr := 0, opc := 1, task := some (.kern (th 0 32) []), st := .decoded, takes := [20], ops := [{ tid := 0xE014, mode := 2, raw := false, boxes := [(0, 0)], wagon := some 20, fillFrom := some 7 }] }] })] } }), 3, 4, ({ num := 4, taddr := 0, opc := 1, task := some (.kern (th 0 32) []), st := .decoded, takes := [20], ops := [{ tid := 0xE014, mode := 2, raw := false, boxes := [(0, 0)], wagon := some 20, fillFrom := some 7 }] }), 0, ({ tid := 0xE014, mode := 2, raw := false, boxes := [(0, 0)], wagon := some 20, fillFrom := some 7 }), by decide +kernel⟩,
   ⟨({ { { stF with creg := [(queueReg 3 0x20, 5)] } with f := { ({ stF with creg := [(queueReg 3 0x20, 5)] }).f with queues := [(3, { qT with coaches := [{ num := 4, taddr := 0, opc := 4, task := some (.tfill (th 0 20) []), st := .issued, req := some 50 }] })] } } with x := { ({ { stF with creg := [(queueReg 3 0x20, 5)] } with f := { ({ stF with creg := [(queueReg 3 0x20, 5)] }).f with queues := [(3, { qT with coaches := [{ num := 4, taddr := 0, opc := 4, task := some (.tfill (th 0 20) []), st := .issued, req := some 50 }] })] } }).x with reqs := [(50, { id := 50, fe := some 0, kind := .tfill, st := .done, maxTs := 99 })] } }), 3, 4, ({ num := 4, taddr := 0, opc := 4, task := some (.tfill (th 0 20) []), st := .issued, req := some 50 }), 99, by decide +kernel⟩,
   ⟨({ { stF with creg := [(queueReg 3 0x20, 5)] } with f := { ({ stF with creg := [(queueReg 3 0x20, 5)] }).f with jobs := [(60, { id := 60, st := .ended, clk := 77 })], queues := [(3, { qT with coaches := [{ num := 4, taddr := 0, opc := 1, task := some (.kern (th 0 32) []), st := .issued, job := some 60 }] })] } }), 3, 4, ({ num := 4, taddr := 0, opc := 1, task := some (.kern (th 0 32) []), st := .issued, job := some 60 }), 77, by decide +kernel⟩,
   ⟨({ { { stF with creg := [(queueReg 3 0x20, 5)] } with f := { ({ stF with creg := [(queueReg 3 0x20, 5)] }).f with queues := [(3, { qT with coaches := [{ num := 4, taddr := 0, opc := 4, task := some (.tfill ⟨false, 3, false, false, 15, 15, 0, 0, 20⟩ []), st := .issued, req := some 50 }], peerOwed := true })] } } with x := { ({ { stF with creg := [(queueReg 3 0x20, 5)] } with f := { ({ stF with creg := [(queueReg 3 0x20, 5)] }).f with queues := [(3, { qT with coaches := [{ num := 4, taddr := 0, opc := 4, task := some (.tfill ⟨false, 3, false, false, 15, 15, 0, 0, 20⟩ []), st := .issued, req := some 50 }], peerOwed := true })] } }).x with reqs := [(50, { id := 50, fe := some 0, kind := .tfill, st := .done, maxTs := 99 })] } }), 3, 4, ({ num := 4, taddr := 0, opc := 4, task := some (.tfill ⟨false, 3, false, false, 15, 15, 0, 0, 20⟩ []), st := .issued, req := some 50 }), 99, by decide +kernel⟩,
   ⟨({ { { stF with creg := [(queueReg 3 0x20, 5)] } with f := { ({ stF with creg := [(queueReg 3 0x20, 5)] }).f with queues := [(3, { qT with coaches := [{ num := 4, taddr := 0, opc := 1, task := some (.kern (th 0 32) []), st := .decoded }], peerOwed := true, flushAt := some 5 })] } } with t := { ({ { stF with creg := [(queueReg 3 0x20, 5)] } with f := { ({ stF with creg := [(queueReg 3 0x20, 5)] }).f with queues := [(3, { qT with coaches := [{ num := 4, taddr := 0, opc := 1, task := some (.kern (th 0 32) []), st := .decoded }], peerOwed := true, flushAt := some 5 })] } }).t with now := 5 } }), 3, 5, by decide +kernel⟩,
   ⟨({ { stF with creg := [(queueReg 3 0x20, 5)] } with f := { ({ stF with creg := [(queueReg 3 0x20, 5)] }).f with queues := [(3, { qT with coaches := [{ num := 4, taddr := 0, opc := 64, task := some (.tmark (th 0 0) []), st := .completed, frees := [7] }, { num := 5, taddr := 0, opc := 1, task := some (.kern (th 0 32) []), st := .decoded }] })] } }), 3, ({ num := 4, taddr := 0, opc := 64, task := some (.tmark (th 0 0) []), st := .completed, frees := [7] }), ([{ num := 5, taddr := 0, opc := 1, task := some (.kern (th 0 32) []), st := .decoded }]), by decide +kernel⟩,
   ⟨({ { stF with creg := [(queueReg 3 0x20, 5)] } with f := { ({ stF with creg := [(queueReg 3 0x20, 5)] }).f with queues := [(3, { qT with coaches := [{ num := 4, taddr := 0, opc := 127, task := some (.tmark (th 0 0) []), st := .completed, frees := [7] }, { num := 5, taddr := 0, opc := 1, task := some (.kern (th 0 32) []), st := .decoded }] })] } }), 3, ({ num := 4, taddr := 0, opc := 127, task := some (.tmark (th 0 0) []), st := .completed, frees := [7] }), ([{ num := 5, taddr := 0, opc := 1, task := some (.kern (th 0 32) []), st := .decoded }]), by decide +kernel⟩⟩

/-- States and operands that meet the hypotheses of WaitsAndFaultsOfStreams. -/
theorem wit_WaitsAndFaultsOfStreams :
    (∃ s : State, ∃ q : Nat, ∃ k : Nat, ∃ th : TaskHdr, ∃ ops : List Operand, let d := descOf (descImage s (bitsN th.imm.toNat 15 0))
      (getQ s q).stop = some (.read k (.tdef th ops)) ∧ (arrived s k = true) ∧ (getQ s q).live = true ∧ (d.shapeOk = true) ∧ (d.part = (getQ s q).part.toNat) ∧ (d.ns = true ∨ (getQ s q).ns = false) ∧ (d.tileCount ≤ 64) ∧ (tdefClass th.imm = none)) ∧
    (∃ s : State, ∃ q : Nat, ∃ k : Nat, ∃ i : Instr, ∃ th : TaskHdr, ∃ ops : List Operand, ∃ tid : Nat, (signalTid s q ops = .ok tid) ∧ (getQ s q).stop = some (.read k i) ∧ (i = .tsig th ops ∨ i = .twait th ops) ∧ (arrived s k = true) ∧ (getQ s q).live = true) ∧
    (∃ s : State, ∃ q : Nat, ∃ k : Nat, ∃ i : Instr, ∃ th : TaskHdr, ∃ ops : List Operand, ∃ tid : Nat, (signalTid s q ops = .ok tid) ∧ (getQ s q).stop = some (.read k i) ∧ (i = .tsig th ops ∨ i = .twait th ops) ∧ (arrived s k = true) ∧ (getQ s q).live = true) ∧
    (∃ s : State, ∃ q : Nat, ∃ id : Nat, ∃ c : Coach, (getQ s q).stop = some (.tldq id) ∧ (getReq s id).st = .done ∧ (getReq s id).ue = false ∧ (getQ s q).coaches.find? (fun c => c.req = some id) = some c) ∧
    (∃ s : State, ∃ q : Nat, ∃ id : Nat, ∃ c : Coach, (getQ s q).stop = some (.tldq id) ∧ (getReq s id).st = .done ∧ (getReq s id).ue = false ∧ (getQ s q).coaches.find? (fun c => c.req = some id) = some c) ∧
    (∃ s : State, ∃ q : Nat, ∃ c : Coach, ∃ id : Nat, (getQ s q).coaches.find? (fun c => c.st = .issued && isTwait c) = some c ∧ (c.req = some id) ∧ (getReq s id).st = .done ∧ (getReq s id).ue = false ∧ (c.fault = none)) ∧
    (∃ s : State, ∃ q : Nat, ∃ c : Coach, ∃ id : Nat, (getQ s q).coaches.find? (fun c => c.st = .issued && isTwait c) = some c ∧ (c.req = some id) ∧ (getReq s id).st = .done ∧ (getReq s id).ue = false ∧ (c.fault = none)) ∧
    (∃ s : State, ∃ q : Nat, ∃ n : Nat, ∃ c : Coach, (getQ s q).stop = some (.fence n) ∧ (getCoach s q n = some c) ∧ (getQ s q).live = true ∧ (olderThan (getQ s q) n).all (fun k => k.st = .completed) = true ∧ ((coachHdr c).scope ≠ 3 ∨ (getQ s q).peerOwed = false)) ∧
    (∃ s : State, ∃ q : Nat, ∃ n : Nat, ∃ c : Coach, ∃ f : Nat × Nat × Nat × Nat × Nat, (getCoach s q n = some c) ∧ (c.fault = some f) ∧ (c.st ≠ .faulted) ∧ (olderThan (getQ s q) n).any (fun k => k.st = .faulted) = false) ∧
    (∃ s : State, ∃ q : Nat, ∃ k : Coach, ∃ l : List Coach, (getQ s q).coaches = k :: l ∧ (k.st = .faulted) ∧ (getQ s q).live = true ∧ (workEnded s q (getQ s q).coaches = true) ∧ (Room s)) ∧
    (∃ s : State, ∃ place : Nat, ∃ id : Nat, (s.x.park.find? (fun p => p.1 = place) = some (place, id)) ∧ (getReq s id).job = none ∧ (Sound s (getReq s id).queue (getReq s id).coach)) :=
  ⟨⟨({ { stF with creg := [(queueReg 3 0x20, 5)] } with f := { ({ stF with creg := [(queueReg 3 0x20, 5)] }).f with queues := [(3, { qT with coaches := [], stop := some (.read 44 (.tdef (th 5 9) [opnd 2 0])) })] } }), 3, 44, (th 5 9), ([opnd 2 0]), by dsimp only; decide +kernel⟩,
   ⟨({ { { stF with creg := [(queueReg 3 0x20, 5)] } with c := { ({ stF with creg := [(queueReg 3 0x20, 5)] }).c with mem := wrNat memT 576 (image1 2 4096 12 65552 1) 64 } } with f := { ({ { stF with creg := [(queueReg 3 0x20, 5)] } with c := { ({ stF with creg := [(queueReg 3 0x20, 5)] }).c with mem := wrNat memT 576 (image1 2 4096 12 65552 1) 64 } }).f with queues := [(3, { qT with coaches := [], stop := some (.read 44 (.tsig (th 5 9) [opndRaw 9 0])) })] } }), 3, 44, (.tsig (th 5 9) [opndRaw 9 0]), (th 5 9), ([opndRaw 9 0]), 9, ok_of (by decide +kernel), by decide +kernel⟩,
   ⟨({ { { stF with creg := [(queueReg 3 0x20, 5)] } with c := { ({ stF with creg := [(queueReg 3 0x20, 5)] }).c with mem := wrNat memT 576 (image1 2 4096 12 65552 1) 64 } } with f := { ({ { stF with creg := [(queueReg 3 0x20, 5)] } with c := { ({ stF with creg := [(queueReg 3 0x20, 5)] }).c with mem := wrNat memT 576 (image1 2 4096 12 65552 1) 64 } }).f with queues := [(3, { qT with coaches := [], stop := some (.read 44 (.twait (th 5 9) [opndRaw 9 0])) })] } }), 3, 44, (.twait (th 5 9) [opndRaw 9 0]), (th 5 9), ([opndRaw 9 0]), 9, ok_of (by decide +kernel), by decide +kernel⟩,
   ⟨({ { { stF with creg := [(queueReg 3 0x20, 5)] } with f := { ({ stF with creg := [(queueReg 3 0x20, 5)] }).f with queues := [(3, { qT with coaches := [{ num := 4, taddr := 0, opc := 35, task := some (.tldq (th 6 0) [opndRaw 9 0]), st := .issued, req := some 50 }], stop := some (.tldq 50) })] } } with x := { ({ { stF with creg := [(queueReg 3 0x20, 5)] } with f := { ({ stF with creg := [(queueReg 3 0x20, 5)] }).f with queues := [(3, { qT with coaches := [{ num := 4, taddr := 0, opc := 35, task := some (.tldq (th 6 0) [opndRaw 9 0]), st := .issued, req := some 50 }], stop := some (.tldq 50) })] } }).x with reqs := [(50, { id := 50, kind := .tldq, fe := none, st := .done, val := 0xFFFFFFFF, lw := 2 })] } }), 3, 50, ({ num := 4, taddr := 0, opc := 35, task := some (.tldq (th 6 0) [opndRaw 9 0]), st := .issued, req := some 50 }), by decide +kernel⟩,
   ⟨({ { { stF with creg := [(queueReg 3 0x20, 5)] } with f := { ({ stF with creg := [(queueReg 3 0x20, 5)] }).f with queues := [(3, { qT with coaches := [{ num := 4, taddr := 0, opc := 35, task := some (.tldq (th 6 0) [opndRaw 9 0]), st := .issued, req := some 50 }], stop := some (.tldq 50) })] } } with x := { ({ { stF with creg := [(queueReg 3 0x20, 5)] } with f := { ({ stF with creg := [(queueReg 3 0x20, 5)] }).f with queues := [(3, { qT with coaches := [{ num := 4, taddr := 0, opc := 35, task := some (.tldq (th 6 0) [opndRaw 9 0]), st := .issued, req := some 50 }], stop := some (.tldq 50) })] } }).x with reqs := [(50, { id := 50, kind := .tldq, fe := none, st := .done, val := 0xFFFFFFFF, lw := 3 })] } }), 3, 50, ({ num := 4, taddr := 0, opc := 35, task := some (.tldq (th 6 0) [opndRaw 9 0]), st := .issued, req := some 50 }), by decide +kernel⟩,
   ⟨({ { { stF with creg := [(queueReg 3 0x20, 5)] } with f := { ({ stF with creg := [(queueReg 3 0x20, 5)] }).f with queues := [(3, { qT with coaches := [{ num := 4, taddr := 0, opc := 33, task := some (.twait ⟨false, 0, false, false, 15, 15, 0, 0, 20⟩ []), st := .issued, req := some 50, qval := 3 }] })] } } with x := { ({ { stF with creg := [(queueReg 3 0x20, 5)] } with f := { ({ stF with creg := [(queueReg 3 0x20, 5)] }).f with queues := [(3, { qT with coaches := [{ num := 4, taddr := 0, opc := 33, task := some (.twait ⟨false, 0, false, false, 15, 15, 0, 0, 20⟩ []), st := .issued, req := some 50, qval := 3 }] })] } }).x with reqs := [(50, { id := 50, kind := .twait, st := .done, val := 3, lw := 3 })] } }), 3, ({ num := 4, taddr := 0, opc := 33, task := some (.twait ⟨false, 0, false, false, 15, 15, 0, 0, 20⟩ []), st := .issued, req := some 50, qval := 3 }), 50, by decide +kernel⟩,
   ⟨({ { { stF with creg := [(queueReg 3 0x20, 5)] } with f := { ({ stF with creg := [(queueReg 3 0x20, 5)] }).f with queues := [(3, { qT with coaches := [{ num := 4, taddr := 0, opc := 33, task := some (.twait ⟨false, 0, false, false, 15, 15, 0, 5, 20⟩ []), st := .issued, req := some 50, qval := 0x8000000000000000 }] })] } } with x := { ({ { stF with creg := [(queueReg 3 0x20, 5)] } with f := { ({ stF with creg := [(queueReg 3 0x20, 5)] }).f with queues := [(3, { qT with coaches := [{ num := 4, taddr := 0, opc := 33, task := some (.twait ⟨false, 0, false, false, 15, 15, 0, 5, 20⟩ []), st := .issued, req := some 50, qval := 0x8000000000000000 }] })] } }).x with reqs := [(50, { id := 50, kind := .twait, st := .done, val := 3, lw := 3 })] } }), 3, ({ num := 4, taddr := 0, opc := 33, task := some (.twait ⟨false, 0, false, false, 15, 15, 0, 5, 20⟩ []), st := .issued, req := some 50, qval := 0x8000000000000000 }), 50, by decide +kernel⟩,
   ⟨({ { stF with creg := [(queueReg 3 0x20, 5)] } with f := { ({ stF with creg := [(queueReg 3 0x20, 5)] }).f with queues := [(3, { qT with coaches := [{ num := 3, taddr := 0, opc := 64, task := some (.tmark (th 0 0) []), st := .completed }, { num := 4, taddr := 0, opc := 34, task := some (.tfence (th 0 0) []), st := .issued }], stop := some (.fence 4) })] } }), 3, 4, ({ num := 4, taddr := 0, opc := 34, task := some (.tfence (th 0 0) []), st := .issued }), by decide +kernel⟩,
   ⟨({ { stF with creg := [(queueReg 3 0x20, 5)] } with f := { ({ stF with creg := [(queueReg 3 0x20, 5)] }).f with queues := [(3, { qT with coaches := [{ num := 3, taddr := 0, opc := 64, task := some (.tmark (th 0 0) []), st := .completed }, { num := 4, taddr := 0, opc := 1, task := some (.kern (th 0 32) []), st := .decoded, fault := some (7, 255, 0, 0, 0) }] })] } }), 3, 4, ({ num := 4, taddr := 0, opc := 1, task := some (.kern (th 0 32) []), st := .decoded, fault := some (7, 255, 0, 0, 0) }), ((7, 255, 0, 0, 0)), by decide +kernel⟩,
   ⟨({ { stF with creg := [(queueReg 3 0x20, 5)] } with f := { ({ stF with creg := [(queueReg 3 0x20, 5)] }).f with queues := [(3, { qT with coaches := [{ num := 4, taddr := 0, opc := 1, task := some (.kern (th 0 32) []), st := .faulted, fault := some (7, 255, 0, 0, 0), deltas := [.q 5 9, .name 2 .none], takes := [20] }, { num := 5, taddr := 0, opc := 1, task := some (.kern (th 0 32) []), st := .decoded }], stop := some .fault })] } }), 3, ({ num := 4, taddr := 0, opc := 1, task := some (.kern (th 0 32) []), st := .faulted, fault := some (7, 255, 0, 0, 0), deltas := [.q 5 9, .name 2 .none], takes := [20] }), ([{ num := 5, taddr := 0, opc := 1, task := some (.kern (th 0 32) []), st := .decoded }]), by decide +kernel⟩,
   ⟨({ { { stF with creg := [(queueReg 3 0x20, 5)] } with f := { ({ stF with creg := [(queueReg 3 0x20, 5)] }).f with queues := [(3, { qT with coaches := [{ num := 4, taddr := 0, opc := 1, task := some (.kern (th 0 32) []), st := .decoded }] })] } } with x := { ({ { stF with creg := [(queueReg 3 0x20, 5)] } with f := { ({ stF with creg := [(queueReg 3 0x20, 5)] }).f with queues := [(3, { qT with coaches := [{ num := 4, taddr := 0, opc := 1, task := some (.kern (th 0 32) []), st := .decoded }] })] } }).x with park := [(2, 50)], reqs := [(50, { id := 50, queue := 3, coach := 4, st := .parked, fe := some 0 })] } }), 2, 50, by decide +kernel⟩⟩

/-- States and operands that meet the hypotheses of RenamingBindsWagons. -/
theorem wit_RenamingBindsWagons :
    (∃ s : State, ∃ n : Nat, ∃ i : Instr, ∃ t : TaskHdr, ∃ ops : List Operand, (Decodes s n) ∧ (placed i = some (t, ops)) ∧ (∀ o ∈ ops, (wagonArg (getQ s n) o).isSome = true)) ∧
    (∃ s : State, ∃ n : Nat, ∃ i : Instr, ∃ t : TaskHdr, ∃ o : Operand, ∃ img : BitVec 512, ∃ cls : Option Nat, ∃ w : Nat, ∃ l : List Nat, let sd := sidingOf (getQ s n).part.toNat cls
      (Decodes s n) ∧ (placed i = some (t, [o])) ∧ (o.kind = false) ∧ (o.mode = 2) ∧ (smGet .none (getQ s n).names o.ref.toNat = .template img cls) ∧ (descOf img).tileCount ≤ 64 ∧ (s.f.wagons = w :: l) ∧ (wagonsHeld s (getQ s n).part.toNat < pwlim s (getQ s n).part.toNat) ∧ (descOf img).tileCount ≤ (siding s sd).length) :=
  ⟨⟨stQ, 3, (.kern (th 0 0) [opnd 2 1, opnd 2 1]), (th 0 0), ([opnd 2 1, opnd 2 1]), by decide +kernel⟩,
   ⟨({ stQ with creg := [(0x108000, 4 * 2 ^ 8)] }), 3, (.kern (th 0 0) [opnd 1 2]), (th 0 0), (opnd 1 2), img9, none, 20, ([21]), by dsimp only; decide +kernel⟩⟩

/-- States and operands that meet the hypotheses of WagonAndFrameEvents. -/
theorem wit_WagonAndFrameEvents :
    (∃ s : State, ∃ w : Nat, (s.f.released.contains w = true) ∧ (smGet 0 s.f.readers w = 0) ∧ (wagonIdle (dropWagonUse s w) w = true)) ∧
    (∃ s : State, ∃ f : Nat, ∃ sd : Nat, ∃ l : List (Nat × Nat), ∃ e : Nat, (s.f.zeroing = (f, sd) :: l) ∧ (freeFe s = some e)) ∧
    (∃ s : State, ∃ e : Nat, ∃ f : Nat, ∃ sd : Nat, ∃ k : Nat, (s.f.fes.find? (fun p => p.1 = e) = some (e, .zero f sd k)) ∧ (arrived s k = true)) ∧
    (∃ s : State, ∃ sd : Nat, ∃ f : Nat, (sd < 26) ∧ (siding s sd).contains f = true) ∧
    (∃ s : State, ∃ w : Nat, (w ∈ s.f.wagons)) ∧
    (∃ f : Nat, ∃ sd : Nat, (sd < 16) ∧ (regionOf (f * 16384) = .hbm)) ∧
    (∃ f : Nat, ∃ sd : Nat, (sd < 16) ∧ (regionOf (f * 16384) = .hbm)) ∧
    (∃ s : State, ∃ w : Nat, (w < 8192) ∧ (wagonKnown s w = false)) ∧
    (∃ s : State, ∃ w : Nat, (w < 8192) ∧ (wagonKnown s w = false)) :=
  ⟨⟨({ stF with f := { (stF).f with released := [7, 20], readers := [] } }), 20, by decide +kernel⟩,
   ⟨({ stF with f := { (stF).f with zeroing := [(8, 0), (9, 1)] } }), 8, 0, ([(9, 1)]), 0, by decide +kernel⟩,
   ⟨({ stF with f := { (stF).f with fes := [(3, .zero 8 0 44)] } }), 3, 8, 0, 44, by decide +kernel⟩,
   ⟨({ stF with f := { (stF).f with sidings := [(0, [5, 8, 8]), (1, [8])] } }), 0, 8, by decide +kernel⟩,
   ⟨stF, 21, by decide +kernel⟩,
   ⟨0xBFFFF, 15, by decide +kernel⟩,
   ⟨9, 0, by decide +kernel⟩,
   ⟨stF, 8191, by decide +kernel⟩,
   ⟨stF, 0, by decide +kernel⟩⟩

/-- States and operands that meet the hypotheses of QueueRegisterEvents. -/
theorem wit_QueueRegisterEvents :
    (∃ s : State, ∃ w : Writer, ∃ q : Nat, ∃ v : BitVec 16, (q < 96) ∧ (mayRing w (getQ s q) = true) ∧ (v.toNat % 8 = 0)) ∧
    (∃ s : State, ∃ w : Writer, ∃ q : Nat, ∃ v : BitVec 16, (q < 96) ∧ (mayRing w (getQ s q) = true) ∧ (v.toNat % 8 = 0)) ∧
    (∃ s : State, ∃ w : Writer, ∃ q : Nat, ∃ v : BitVec 16, (96 ≤ q ∨ mayRing w (getQ s q) = false ∨ v.toNat % 8 ≠ 0)) ∧
    (∃ s : State, ∃ w : Writer, ∃ q : Nat, ∃ v : BitVec 16, (96 ≤ q ∨ mayRing w (getQ s q) = false ∨ v.toNat % 8 ≠ 0)) ∧
    (∃ s : State, ∃ q : Nat, ∃ o : Nat, ∃ n : Nat, ∃ k : Nat, ∃ l : List (Nat × Nat × Nat), (getQ s q).lines = (o, n, k) :: l ∧ (arrived s k = true) ∧ (n ≤ 128) ∧ (s.c.versions = [])) ∧
    (∃ s : State, ∃ q : Nat, ∃ o : Nat, ∃ n : Nat, ∃ k : Nat, ∃ l : List (Nat × Nat × Nat), (getQ s q).lines = (o, n, k) :: l ∧ (arrived s k = true) ∧ (n ≤ 128) ∧ (s.c.versions = [])) ∧
    (∃ s : State, ∃ w : Writer, ∃ q : Nat, (q < 96) ∧ (mayRing w (getQ s q) = true)) ∧
    (∃ s : State, ∃ w : Writer, ∃ q : Nat, (q < 96) ∧ (mayRing w (getQ s q) = true) ∧ (Room s)) ∧
    (∃ s : State, ∃ q : Nat, (q < 96) ∧ (getQ s q).en = false) ∧
    (∃ s : State, ∃ q : Nat, (q < 96) ∧ (getQ s q).en = false) ∧
    (∃ s : State, ∃ q : Nat, (q < 96) ∧ ((getQ s q).st = .idle ∨ (getQ s q).st = .faulted ∨ (getQ s q).st = .ended ∨ (getQ s q).st = .off)) ∧
    (∃ s : State, ∃ q : Nat, (q < 96) ∧ ((getQ s q).st = .idle ∨ (getQ s q).st = .faulted ∨ (getQ s q).st = .ended ∨ (getQ s q).st = .off)) ∧
    (∃ s : State, ∃ q : Nat, ((getQ s q).st = .mapped ∨ (getQ s q).st = .runnable)) ∧
    (∃ s : State, ∃ q : Nat, ((getQ s q).st = .mapped ∨ (getQ s q).st = .runnable)) ∧
    (∃ s : State, ∃ q : Nat, (q < 96) ∧ (getQ s q).st = .faulted) ∧
    (∃ s : State, ∃ q : Nat, (q < 96) ∧ (getQ s q).st = .faulted) :=
  ⟨⟨stF, Writer.firmware, 3, 8, by decide +kernel⟩,
   ⟨stF, Writer.firmware, 95, 0xFFF8, by decide +kernel⟩,
   ⟨stF, Writer.firmware, 96, 0, by decide +kernel⟩,
   ⟨stF, Writer.firmware, 3, 4, by decide +kernel⟩,
   ⟨({ { { stF with f := { (stF).f with queues := [(3, { qT with lines := [(65500, 128, 44)], filled := 65500 })] } } with creg := [(queueReg 3 0x18, 0x40000 + 1)] } with c := { ({ { stF with f := { (stF).f with queues := [(3, { qT with lines := [(65500, 128, 44)], filled := 65500 })] } } with creg := [(queueReg 3 0x18, 0x40000 + 1)] }).c with mem := wrNat memT (0x40000 + 65530) 0x0102030405 6 } }), 3, 65500, 128, 44, ([]), by decide +kernel⟩,
   ⟨({ stF with f := { (stF).f with queues := [(3, { qT with lines := [(0, 128, 44), (128, 5, 45)], filled := 0 })] } }), 3, 0, 128, 44, ([(128, 5, 45)]), by decide +kernel⟩,
   ⟨({ stF with f := { (stF).f with queues := [(3, { qT with ns := true })] } }), (Writer.app false), 3, by decide +kernel⟩,
   ⟨({ stF with f := { (stF).f with queues := [(3, { qT with ns := true })] } }), (Writer.app false), 3, by decide +kernel⟩,
   ⟨stF, 95, by decide +kernel⟩,
   ⟨({ { stF with f := { (stF).f with queues := [(3, { qT with en := false, st := .off })] } } with creg := [(queueReg 3 0x10, 0x7F)] }), 3, by decide +kernel⟩,
   ⟨({ stF with f := { (stF).f with queues := [(3, { qT with st := .idle, eng := none })] } }), 3, by decide +kernel⟩,
   ⟨({ stF with f := { (stF).f with queues := [(3, { qT with st := .off, eng := none })] } }), 3, by decide +kernel⟩,
   ⟨({ stF with f := { (stF).f with queues := [(3, { qT with st := .mapped })] } }), 3, by decide +kernel⟩,
   ⟨({ stF with f := { (stF).f with queues := [(3, { qT with st := .runnable })] } }), 3, by decide +kernel⟩,
   ⟨({ stF with f := { (stF).f with queues := [(3, { qT with st := .faulted })] } }), 3, by decide +kernel⟩,
   ⟨({ stF with f := { (stF).f with queues := [(3, { qT with st := .faulted, wake := true })] } }), 3, by decide +kernel⟩⟩

/-- States and operands that meet the hypotheses of MappingEvents. -/
theorem wit_MappingEvents :
    (∃ s : State, ∃ e : Nat, ∃ q : Nat, let s1 := updateRemap s
      (List.range 24).find? (engineFree s1) = some e ∧ (leastBy (candKey s1) s1.f.remap = some q)) ∧
    (∃ s : State, ∃ e : Nat, ∃ q : Nat, let s1 := updateRemap s
      (List.range 24).find? (engineFree s1) = some e ∧ (leastBy (candKey s1) s1.f.remap = some q)) ∧
    (∃ s : State, ∃ e : Nat, ∃ q : Nat, ∃ u : Nat, (OnEngine s e q) ∧ (getQ s q).loadDue = some u ∧ (u ≤ s.t.now + 1)) ∧
    (∃ s : State, ∃ e : Nat, ∃ q : Nat, ∃ u : Nat, (OnEngine s e q) ∧ (updateRemap s).f.remap = [] ∧ (getQ (updateRemap s) q).sliceEnd = some u ∧ (u ≤ timebase s) ∧ (getQ (updateRemap s) q).unmapDue = none) ∧
    (∃ s : State, ∃ e : Nat, ∃ q : Nat, ∃ u : Nat, ∃ c : Nat, let s1 := updateRemap s
      (OnEngine s e q) ∧ (c ∈ s1.f.remap) ∧ (getQ s1 c).part = (getQ s1 q).part ∧ (basePri s1 (getQ s1 q) ≤ waitPri s1 (getQ s1 c)) ∧ (getQ s1 q).eng = some e ∧ (getQ s1 q).sliceEnd = some u ∧ (u ≤ timebase s) ∧ (getQ s1 q).unmapDue = none) ∧
    (∃ s : State, ∃ e : Nat, ∃ q : Nat, (e < 24) ∧ (OnEngine s e q) ∧ (getQ s q).unmapDue = none) ∧
    (∃ s : State, ∃ e : Nat, ∃ q : Nat, ∃ d : Nat, (OnEngine s e q) ∧ (getQ s q).unmapDue = some d ∧ (s.t.now + 8194 = d)) ∧
    (∃ s : State, ∃ e : Nat, ∃ q : Nat, ∃ d : Nat, (OnEngine s e q) ∧ (getQ s q).unmapDue = some d ∧ (s.t.now + 1 = d)) ∧
    (∃ s : State, ∃ e : Nat, ∃ q : Nat, ∃ d : Nat, (OnEngine s e q) ∧ (getQ s q).unmapDue = some d ∧ (d ≤ s.t.now)) ∧
    (∃ s : State, ∃ e : Nat, ∃ q : Nat, ∃ d : Nat, (OnEngine s e q) ∧ (getQ s q).unmapDue = some d ∧ (d ≤ s.t.now)) :=
  ⟨⟨({ stF with f := { (stF).f with queues := [(3, { qT with tailb := 64 }), (5, { en := true, st := .idle, wake := true, pri := 2 })] } }), 1, 5, by dsimp only; decide +kernel⟩,
   ⟨({ stF with f := { (stF).f with queues := [(3, { qT with st := .idle, eng := none, coaches := [] }), (5, { en := true, st := .runnable, wake := true, pri := 2 })] } }), 0, 3, by dsimp only; decide +kernel⟩,
   ⟨({ { stF with f := { (stF).f with queues := [(3, { qT with loadDue := some 6 })] } } with t := { ({ stF with f := { (stF).f with queues := [(3, { qT with loadDue := some 6 })] } }).t with now := 5 } }), 0, 3, 6, by decide +kernel⟩,
   ⟨({ stF with f := { (stF).f with queues := [(3, { qT with sliceEnd := some 0 })] } }), 0, 3, 0, by decide +kernel⟩,
   ⟨({ stF with f := { (stF).f with queues := [(3, { qT with sliceEnd := some 0 }), (5, { en := true, st := .idle, wake := true, pri := 2 })] } }), 0, 3, 0, 5, by dsimp only; decide +kernel⟩,
   ⟨({ stF with f := { (stF).f with queues := [(3, { qT with sliceEnd := some 0 }), (5, { en := true, st := .idle, wake := true, pri := 2 })] } }), 0, 3, by decide +kernel⟩,
   ⟨({ stF with f := { (stF).f with queues := [(3, { qT with unmapDue := some 8194, wake := true })] } }), 0, 3, 8194, by decide +kernel⟩,
   ⟨({ stF with f := { (stF).f with queues := [(3, { qT with unmapDue := some 1, resW := [40, 41], resF := [50] })] } }), 0, 3, 1, by decide +kernel⟩,
   ⟨({ { stF with f := { (stF).f with queues := [(3, { qT with unmapDue := some 5, wake := true }), (5, { en := true, st := .runnable, wake := true, pri := 2 })] } } with t := { ({ stF with f := { (stF).f with queues := [(3, { qT with unmapDue := some 5, wake := true }), (5, { en := true, st := .runnable, wake := true, pri := 2 })] } }).t with now := 5 } }), 0, 3, 5, by decide +kernel⟩,
   ⟨({ { stF with f := { (stF).f with queues := [(3, { qT with unmapDue := some 5, wake := false }), (5, { en := true, st := .runnable, wake := true, pri := 2 })] } } with t := { ({ stF with f := { (stF).f with queues := [(3, { qT with unmapDue := some 5, wake := false }), (5, { en := true, st := .runnable, wake := true, pri := 2 })] } }).t with now := 5 } }), 0, 3, 5, by decide +kernel⟩⟩

/-- States and operands that meet the hypotheses of FirmwareEventsWatchdogAndOwnership. -/
theorem wit_FirmwareEventsWatchdogAndOwnership :
    (∃ s : State, ∃ w : Nat, ∃ i : Nat, ∃ e : Event, (takesEvents s w = true) ∧ (∀ p ∈ s.w.taken, p.1 ≠ w) ∧ (freeEvent s = some i) ∧ (s.w.events[i]? = some e)) ∧
    (∃ s : State, ∃ w : Nat, (takesEvents s w = true) ∧ (∀ p ∈ s.w.taken, p.1 ≠ w) ∧ (freeEvent s = none)) ∧
    (∃ s : State, ∃ w : Nat, (takesEvents s w = true)) ∧
    (∃ s : State, ∃ w : Nat, (takesEvents s w = true)) ∧
    (∃ s : State, ∃ p : Nat, (p < 6) ∧ (s.w.fwmode = true) ∧ (s.w.fwStopped.contains p = false)) ∧
    (∃ s : State, ∃ p : Nat, (p < 6) ∧ (s.w.fwmode = true) ∧ (s.w.fwStopped.contains p = false)) ∧
    (∃ s : State, ∃ q : Nat, (wdDue s q 1 = true) ∧ (Room s)) ∧
    (∃ s : State, ∃ q : Nat, (wdDue s q 1 = true) ∧ (Room s)) ∧
    (∃ s : State, ∃ q : Nat, ∃ c : Coach, ∃ l : List Coach, (wdDue s q 2 = true) ∧ (getQ s q).coaches = c :: l ∧ (c.fault = none) ∧ (c.job = none) ∧ (Room s)) ∧
    (∃ s : State, ∃ q : Nat, ∃ c : Coach, ∃ l : List Coach, ∃ j : Nat, ∃ k : Nat, (wdDue s q 3 = true) ∧ (getQ s q).coaches = c :: l ∧ (c.job = some j) ∧ (onCores (getJob s j) = true) ∧ (k ∈ jobCores (getJob s j)) ∧ (getCtx s k (getJob s j).ctx).status = .running ∧ (getCtx s k (getJob s j).ctx).j.job = some j ∧ (Room s)) ∧
    (∃ s : State, ∃ n : Nat, (n < 10) ∧ (getCl s n).moveTo = none) ∧
    (∃ s : State, ∃ n : Nat, ∃ o : BitVec 4, (getCl s n).moveTo = some o ∧ (getCl s n).moveSwapped = false ∧ (clusterEmpty s n = true) ∧ (getCl s n).sweep = none ∧ (getCl s n).wayNew = none) ∧
    (∃ s : State, ∃ n : Nat, ∃ o : BitVec 4, (getCl s n).moveTo = some o ∧ (getCl s n).moveSwapped = false ∧ (clusterEmpty s n = true) ∧ (getCl s n).sweep = none ∧ (getCl s n).wayNew = none) ∧
    (∃ s : State, ∃ n : Nat, ∃ o : BitVec 4, (n < 10) ∧ (getCl s n).moveTo = some o ∧ (getCl s n).moveSwapped = true ∧ (getCl s n).sweep = none ∧ (getCl s n).wayNew = none ∧ (∀ p ∈ (getCl s n).tags, p.2.part ≠ (getCl s n).owner.toNat) ∧ (getCl s n).wb = [] ∧ (getCl s n).moveCommit = none) ∧
    (∃ s : State, ∃ n : Nat, ∃ o : BitVec 4, ∃ b : Nat, (getCl s n).moveTo = some o ∧ (getCl s n).moveSwapped = true ∧ (getCl s n).sweep = none ∧ (getCl s n).wayNew = none ∧ (∀ p ∈ (getCl s n).tags, p.2.part ≠ (getCl s n).owner.toNat) ∧ (getCl s n).wb = [] ∧ (getCl s n).moveCommit = some b ∧ (b ≤ s.t.now) ∧ (getCl s n).commitAt = none) :=
  ⟨⟨({ stF with w := { (stF).w with events := [{ type := 2, key := some 3, part := 1, time := 4, data := 77 }, { type := 2, key := some 4, part := 1, time := 4, data := 77 }], taken := [(5, { type := 2, key := some 3, part := 1, time := 4, data := 77 })] } }), 0, 1, ({ type := 2, key := some 4, part := 1, time := 4, data := 77 }), by decide +kernel⟩,
   ⟨({ stF with w := { (stF).w with events := [{ type := 2, key := some 3, part := 1, time := 4, data := 77 }], taken := [(5, { type := 2, key := some 3, part := 1, time := 4, data := 77 })] } }), 0, by decide +kernel⟩,
   ⟨({ stF with w := { (stF).w with events := [{ type := 2, key := some 3, part := 1, time := 4, data := 77 }, { type := 2, key := some 4, part := 1, time := 4, data := 77 }], taken := [(5, { type := 2, key := some 3, part := 1, time := 4, data := 77 })] } }), 5, by decide +kernel⟩,
   ⟨({ stF with w := { (stF).w with events := [{ type := 2, key := some 3, part := 1, time := 4, data := 77 }, { type := 2, key := some 4, part := 1, time := 4, data := 77 }], taken := [(5, { type := 2, key := some 3, part := 1, time := 4, data := 77 })] } }), 0, by decide +kernel⟩,
   ⟨({ stF with w := { (stF).w with fwmode := true, fwStopped := [0,1,2,3,4] } }), 5, by decide +kernel⟩,
   ⟨({ stF with w := { (stF).w with fwmode := true, taken := [(4, { type := 2, key := some 3, part := 1, time := 4, data := 77 }), (5, { type := 2, key := some 4, part := 1, time := 4, data := 77 })] } }), 2, by decide +kernel⟩,
   ⟨({ { { { stF with f := { (stF).f with sidings := [(0, List.range 400)] } } with f := { ({ stF with f := { (stF).f with sidings := [(0, List.range 400)] } }).f with queues := [(3, { qT with coaches := [{ num := 4, taddr := 0, task := none, st := .issued, job := some 60 }], wdStage := 0 })], jobs := [(60, { id := 60, queue := 3, coach := 4, st := .running, members := [0], ctx := 0 })] } } with creg := [(queueReg 3 0x48, 1 + 2 * 2 ^ 16 + 3 * 2 ^ 32)] } with t := { ({ { { stF with f := { (stF).f with sidings := [(0, List.range 400)] } } with f := { ({ stF with f := { (stF).f with sidings := [(0, List.range 400)] } }).f with queues := [(3, { qT with coaches := [{ num := 4, taddr := 0, task := none, st := .issued, job := some 60 }], wdStage := 0 })], jobs := [(60, { id := 60, queue := 3, coach := 4, st := .running, members := [0], ctx := 0 })] } } with creg := [(queueReg 3 0x48, 1 + 2 * 2 ^ 16 + 3 * 2 ^ 32)] }).t with now := 50000000000 } }), 3, by decide +kernel⟩,
   ⟨({ { { stF with f := { (stF).f with queues := [(3, { qT with coaches := [{ num := 4, taddr := 0, task := none, st := .issued }], wdStage := 0 })], jobs := [] } } with creg := [(queueReg 3 0x48, 1 + 2 * 2 ^ 16 + 3 * 2 ^ 32)] } with t := { ({ { stF with f := { (stF).f with queues := [(3, { qT with coaches := [{ num := 4, taddr := 0, task := none, st := .issued }], wdStage := 0 })], jobs := [] } } with creg := [(queueReg 3 0x48, 1 + 2 * 2 ^ 16 + 3 * 2 ^ 32)] }).t with now := 50000000000 } }), 3, by decide +kernel⟩,
   ⟨({ { { stF with f := { (stF).f with queues := [(3, { qT with coaches := [{ num := 4, taddr := 0, task := none, st := .issued }], wdStage := 1 })], jobs := [] } } with creg := [(queueReg 3 0x48, 1 + 2 * 2 ^ 16 + 3 * 2 ^ 32)] } with t := { ({ { stF with f := { (stF).f with queues := [(3, { qT with coaches := [{ num := 4, taddr := 0, task := none, st := .issued }], wdStage := 1 })], jobs := [] } } with creg := [(queueReg 3 0x48, 1 + 2 * 2 ^ 16 + 3 * 2 ^ 32)] }).t with now := 50000000000 } }), 3, ({ num := 4, taddr := 0, task := none, st := .issued }), ([]), by decide +kernel⟩,
   ⟨({ { { modCtx stF 0 0 (fun v => { v with j := { v.j with job := some 60 } }) with f := { (modCtx stF 0 0 (fun v => { v with j := { v.j with job := some 60 } })).f with queues := [(3, { qT with coaches := [{ num := 4, taddr := 0, task := none, st := .issued, job := some 60 }], wdStage := 2 })], jobs := [(60, { id := 60, queue := 3, coach := 4, st := .running, members := [0], ctx := 0 })] } } with creg := [(queueReg 3 0x48, 1 + 2 * 2 ^ 16 + 3 * 2 ^ 32)] } with t := { ({ { modCtx stF 0 0 (fun v => { v with j := { v.j with job := some 60 } }) with f := { (modCtx stF 0 0 (fun v => { v with j := { v.j with job := some 60 } })).f with queues := [(3, { qT with coaches := [{ num := 4, taddr := 0, task := none, st := .issued, job := some 60 }], wdStage := 2 })], jobs := [(60, { id := 60, queue := 3, coach := 4, st := .running, members := [0], ctx := 0 })] } } with creg := [(queueReg 3 0x48, 1 + 2 * 2 ^ 16 + 3 * 2 ^ 32)] }).t with now := 50000000000 } }), 3, ({ num := 4, taddr := 0, task := none, st := .issued, job := some 60 }), ([]), 60, 0, by decide +kernel⟩,
   ⟨stF, 9, by decide +kernel⟩,
   ⟨({ stF with cores := [], clusters := [(9, { moveTo := some 5, present := 0 })] }), 9, 5, by decide +kernel⟩,
   ⟨({ stF with cores := [], clusters := [(9, { moveTo := some 5, present := 4 })] }), 9, 5, by decide +kernel⟩,
   ⟨({ stF with cores := [], clusters := [(9, { moveTo := some 5, moveSwapped := true })] }), 9, 5, by decide +kernel⟩,
   ⟨({ stF with cores := [], clusters := [(9, { moveTo := some 5, moveSwapped := true, moveCommit := some 0 })] }), 9, 5, 0, by decide +kernel⟩⟩

/-- States and operands that meet the hypotheses of CrossbarOperationEvents. -/
theorem wit_CrossbarOperationEvents :
    (∃ s : State, ∃ c : Nat, ∃ id : Nat, ∃ o : XOp, ∃ k : Nat, (tickIn s.t.now = some k) ∧ (xbOf s c).xq.find? (fun o => o.id = id) = some o ∧ (mayStart (xbOf s c) o k s.t.now = true)) ∧
    (∃ s : State, ∃ c : Nat, ∃ id : Nat, ∃ o : XOp, ∃ k : Nat, (tickIn s.t.now = some k) ∧ (xbOf s c).xq.find? (fun o => o.id = id) = some o ∧ (mayStart (xbOf s c) o k s.t.now = true)) ∧
    (∃ s : State, ∃ c : Nat, ∃ id : Nat, ∃ o : XOp, ∃ k : Nat, (xbOf s c).xq.find? (fun o => o.id = id) = some o ∧ (o.start = some k) ∧ (o.kind = .xmvm) ∧ (tickCycle (k + 136) ≤ s.t.now)) ∧
    (∃ s : State, ∃ c : Nat, ∃ id : Nat, ∃ o : XOp, ∃ k : Nat, (xbOf s c).xq.find? (fun o => o.id = id) = some o ∧ (o.start = some k) ∧ (o.kind ≠ .xmvm) ∧ (tickCycle (k + o.kind.dur) ≤ s.t.now)) ∧
    (∃ s : State, ∃ c : Nat, ∃ id : Nat, ∃ o : XOp, ∃ k : Nat, (xbOf s c).xq.find? (fun o => o.id = id) = some o ∧ (o.start = some k) ∧ (o.kind ≠ .xmvm) ∧ (tickCycle (k + o.kind.dur) ≤ s.t.now)) ∧
    (∃ s : State, ∃ c : Nat, (xbOf s c).monper ≠ 0 ∧ (xbOf s c).bank = .on ∧ (xbOf s c).lastMon + (xbOf s c).monper.toNat ≤ timebase s) :=
  ⟨⟨({ modCore (stF) 0 (fun k => { k with xb := { k.xb with xq := [{ id := 89, kind := .xmon, arr := 5, ch := 0, issued := 0, ctx := 0, vec := 5 }, { id := 90, kind := .xmvm, arr := 3, ch := 0, issued := 0, ctx := 0, vec := 5, holds := 1 }] } }) with t := { (modCore (stF) 0 (fun k => { k with xb := { k.xb with xq := [{ id := 89, kind := .xmon, arr := 5, ch := 0, issued := 0, ctx := 0, vec := 5 }, { id := 90, kind := .xmvm, arr := 3, ch := 0, issued := 0, ctx := 0, vec := 5, holds := 1 }] } })).t with now := 8 } }), 0, 90, ({ id := 90, kind := .xmvm, arr := 3, ch := 0, issued := 0, ctx := 0, vec := 5, holds := 1 }), 5, by decide +kernel⟩,
   ⟨({ modCore (stF) 0 (fun k => { k with xb := { k.xb with xq := [{ id := 89, kind := .xmon, arr := 5, ch := 0, issued := 0, ctx := 0, vec := 5 }, { id := 90, kind := .xcalmon, arr := 3, ch := 0, issued := 0, ctx := 0, vec := 5, holds := 1 }] } }) with t := { (modCore (stF) 0 (fun k => { k with xb := { k.xb with xq := [{ id := 89, kind := .xmon, arr := 5, ch := 0, issued := 0, ctx := 0, vec := 5 }, { id := 90, kind := .xcalmon, arr := 3, ch := 0, issued := 0, ctx := 0, vec := 5, holds := 1 }] } })).t with now := 8 } }), 0, 90, ({ id := 90, kind := .xcalmon, arr := 3, ch := 0, issued := 0, ctx := 0, vec := 5, holds := 1 }), 5, by decide +kernel⟩,
   ⟨({ modCore (stF) 0 (fun k => { k with xb := { k.xb with xq := [{ id := 90, kind := .xmvm, arr := 3, ch := 0, issued := 0, ctx := 0, vec := 5, start := some 0, entries := [{ n := 256, q := 5, e := 0 }] }], results := [{ op := 90 }] } }) with t := { (modCore (stF) 0 (fun k => { k with xb := { k.xb with xq := [{ id := 90, kind := .xmvm, arr := 3, ch := 0, issued := 0, ctx := 0, vec := 5, start := some 0, entries := [{ n := 256, q := 5, e := 0 }] }], results := [{ op := 90 }] } })).t with now := 2000 } }), 0, 90, ({ id := 90, kind := .xmvm, arr := 3, ch := 0, issued := 0, ctx := 0, vec := 5, start := some 0, entries := [{ n := 256, q := 5, e := 0 }] }), 0, by decide +kernel⟩,
   ⟨({ modCore (stF) 0 (fun k => { k with xb := { k.xb with xq := [{ id := 90, kind := .xver, arr := 3, ch := 0, issued := 0, ctx := 0, vec := 5, start := some 0 }] } }) with t := { (modCore (stF) 0 (fun k => { k with xb := { k.xb with xq := [{ id := 90, kind := .xver, arr := 3, ch := 0, issued := 0, ctx := 0, vec := 5, start := some 0 }] } })).t with now := 1000000 } }), 0, 90, ({ id := 90, kind := .xver, arr := 3, ch := 0, issued := 0, ctx := 0, vec := 5, start := some 0 }), 0, by decide +kernel⟩,
   ⟨({ modCore (stF) 0 (fun k => { k with xb := { k.xb with xq := [{ id := 90, kind := .xmon, arr := 3, ch := 0, issued := 0, ctx := 0, vec := 5, start := some 0 }] } }) with t := { (modCore (stF) 0 (fun k => { k with xb := { k.xb with xq := [{ id := 90, kind := .xmon, arr := 3, ch := 0, issued := 0, ctx := 0, vec := 5, start := some 0 }] } })).t with now := 1000000 } }), 0, 90, ({ id := 90, kind := .xmon, arr := 3, ch := 0, issued := 0, ctx := 0, vec := 5, start := some 0 }), 0, by decide +kernel⟩,
   ⟨({ modCore (stF) 0 (fun k => { k with xb := { k.xb with xq := [], monper := 1, lastMon := 0 } }) with t := { (modCore (stF) 0 (fun k => { k with xb := { k.xb with xq := [], monper := 1, lastMon := 0 } })).t with now := 60000 } }), 0, by decide +kernel⟩⟩

/-- States and operands that meet the hypotheses of DumpAndTraceEvents. -/
theorem wit_DumpAndTraceEvents :
    (∃ s : State, ∃ a : Nat, (a < 320) ∧ (getCtx s (agentCore a) (agentCtx a)).status ≠ .free ∧ (s.w.dump = none) ∧ (s.w.dumpq.length < 16)) ∧
    (∃ s : State, ∃ a : Nat, (a < 320) ∧ (getCtx s (agentCore a) (agentCtx a)).status ≠ .free ∧ (s.w.dump = none) ∧ (s.w.dumpq.length < 16)) ∧
    (∃ s : State, ∃ a : Nat, ∃ r : Nat, ∃ l : List (Nat × Nat), (s.w.dump = none) ∧ (s.w.dumpq = (a, r) :: l) ∧ (getCtx s (agentCore a) (agentCtx a)).status ≠ .free) ∧
    (∃ s : State, ∃ a : Nat, ∃ r : Nat, ∃ l : List TrapRec, ∃ k : Nat, (s.w.dump = some (a, r, l, k)) ∧ (arrived s k = true) ∧ (dumpFault s a l.length = none)) ∧
    (∃ s : State, ∃ a : Nat, ∃ r : Nat, ∃ l : List TrapRec, ∃ k : Nat, (s.w.dump = some (a, r, l, k)) ∧ (s.w.ondie.length < 1023)) ∧
    (∃ s : State, (s.d.bvEn = false)) ∧
    (∃ s : State, (s.d.bvEn = true)) ∧
    (∃ s : State, (s.d.bvEn = true) ∧ (s.d.bvStopped = false)) ∧
    (∃ s : State, ∃ src : Nat, ∃ kind : Nat, ∃ q : Option Nat, ∃ payload : Nat, (s.d.bvNow = [(src, kind, q, payload)]) ∧ (s.d.bvFifo.length < 4096)) ∧
    (∃ s : State, ∃ src : Nat, ∃ kind : Nat, ∃ q : Option Nat, ∃ payload : Nat, (s.d.bvNow = [(src, kind, q, payload)]) ∧ (s.d.bvFifo.length < 4096)) ∧
    (∃ s : State, ∃ r : BitVec 128, ∃ l : List (BitVec 128), (s.d.bvFifo = r :: l)) ∧
    (∃ a : Nat, (a < 320)) :=
  ⟨⟨({ { modCtx stF 79 3 (fun v => { v with status := .running }) with creg := [(0x230200, 0x2000000 + 10 * 2 ^ 56), (0x230210, 500), (0x400008, 0xC0000000)] } with w := { ({ modCtx stF 79 3 (fun v => { v with status := .running }) with creg := [(0x230200, 0x2000000 + 10 * 2 ^ 56), (0x230210, 500), (0x400008, 0xC0000000)] }).w with  } }), 319, by decide +kernel⟩,
   ⟨({ { { modCtx stF 79 3 (fun v => { v with status := .running }) with creg := [(0x230200, 0x2000000 + 10 * 2 ^ 56), (0x230210, 500), (0x400008, 0xC0000000)] } with w := { ({ modCtx stF 79 3 (fun v => { v with status := .running }) with creg := [(0x230200, 0x2000000 + 10 * 2 ^ 56), (0x230210, 500), (0x400008, 0xC0000000)] }).w with  } } with w := { ({ { modCtx stF 79 3 (fun v => { v with status := .running }) with creg := [(0x230200, 0x2000000 + 10 * 2 ^ 56), (0x230210, 500), (0x400008, 0xC0000000)] } with w := { ({ modCtx stF 79 3 (fun v => { v with status := .running }) with creg := [(0x230200, 0x2000000 + 10 * 2 ^ 56), (0x230210, 500), (0x400008, 0xC0000000)] }).w with  } }).w with dumpq := List.replicate 15 (3, 0) } }), 0, by decide +kernel⟩,
   ⟨({ { { modCtx stF 79 3 (fun v => { v with status := .running }) with creg := [(0x230200, 0x2000000 + 10 * 2 ^ 56), (0x230210, 500), (0x400008, 0xC0000000)] } with w := { ({ modCtx stF 79 3 (fun v => { v with status := .running }) with creg := [(0x230200, 0x2000000 + 10 * 2 ^ 56), (0x230210, 500), (0x400008, 0xC0000000)] }).w with  } } with w := { ({ { modCtx stF 79 3 (fun v => { v with status := .running }) with creg := [(0x230200, 0x2000000 + 10 * 2 ^ 56), (0x230210, 500), (0x400008, 0xC0000000)] } with w := { ({ modCtx stF 79 3 (fun v => { v with status := .running }) with creg := [(0x230200, 0x2000000 + 10 * 2 ^ 56), (0x230210, 500), (0x400008, 0xC0000000)] }).w with  } }).w with dumpq := [(319, 2), (0, 0)] } }), 319, 2, ([(0, 0)]), by decide +kernel⟩,
   ⟨({ { { modCtx stF 79 3 (fun v => { v with status := .running }) with creg := [(0x230200, 0x2000000 + 10 * 2 ^ 56), (0x230210, 500), (0x400008, 0xC0000000)] } with w := { ({ modCtx stF 79 3 (fun v => { v with status := .running }) with creg := [(0x230200, 0x2000000 + 10 * 2 ^ 56), (0x230210, 500), (0x400008, 0xC0000000)] }).w with  } } with w := { ({ { modCtx stF 79 3 (fun v => { v with status := .running }) with creg := [(0x230200, 0x2000000 + 10 * 2 ^ 56), (0x230210, 500), (0x400008, 0xC0000000)] } with w := { ({ modCtx stF 79 3 (fun v => { v with status := .running }) with creg := [(0x230200, 0x2000000 + 10 * 2 ^ 56), (0x230210, 500), (0x400008, 0xC0000000)] }).w with  } }).w with dump := some (319, 0, [], 44), dumpTail := 1023 } }), 319, 0, ([]), 44, by decide +kernel⟩,
   ⟨({ { { modCtx stF 79 3 (fun v => { v with status := .running }) with creg := [(0x230200, 0x2000000 + 10 * 2 ^ 56), (0x230210, 500), (0x400008, 0xC0000000)] } with w := { ({ modCtx stF 79 3 (fun v => { v with status := .running }) with creg := [(0x230200, 0x2000000 + 10 * 2 ^ 56), (0x230210, 500), (0x400008, 0xC0000000)] }).w with  } } with w := { ({ { modCtx stF 79 3 (fun v => { v with status := .running }) with creg := [(0x230200, 0x2000000 + 10 * 2 ^ 56), (0x230210, 500), (0x400008, 0xC0000000)] } with w := { ({ modCtx stF 79 3 (fun v => { v with status := .running }) with creg := [(0x230200, 0x2000000 + 10 * 2 ^ 56), (0x230210, 500), (0x400008, 0xC0000000)] }).w with  } }).w with dump := some (319, 0, [], 44) } }), 319, 0, ([]), 44, by decide +kernel⟩,
   ⟨stT, by decide +kernel⟩,
   ⟨({ stT with d := { (stT).d with bvEn := true } }), by decide +kernel⟩,
   ⟨({ stT with d := { (stT).d with bvEn := true } }), by decide +kernel⟩,
   ⟨({ stT with d := { (stT).d with bvNow := [(320, 6, some 3, 77)], bvFifo := List.replicate 0 1 } }), 320, 6, (some 3), 77, by decide +kernel⟩,
   ⟨({ stT with d := { (stT).d with bvNow := [(320, 6, some 3, 77)], bvFifo := List.replicate 4095 1 } }), 320, 6, (some 3), 77, by decide +kernel⟩,
   ⟨({ { stT with creg := [(0x400008, 0xC0000000)] } with d := { ({ stT with creg := [(0x400008, 0xC0000000)] }).d with bvFifo := [0x0102030405060708090A0B0C0D0E0F10, 3], bvHead := 67108863 } }), 0x0102030405060708090A0B0C0D0E0F10, ([3]), by decide +kernel⟩,
   ⟨319, by decide +kernel⟩⟩

/-- States and operands that meet the hypotheses of ControlSpaceEvents. -/
theorem wit_ControlSpaceEvents :
    (∃ s : State, ∃ k : Nat, ∃ v : BitVec 512, (s.h.boot = .running) ∧ (k < 16) ∧ (v.toNat < 2 ^ 53)) ∧
    (∃ s : State, ∃ k : Nat, ∃ v : BitVec 512, (s.h.boot = .running) ∧ (k < 16) ∧ (v.toNat < 2 ^ 53)) ∧
    (∃ s : State, ∃ k : Nat, ∃ v : BitVec 512, (s.h.boot = .running) ∧ (k < 8) ∧ (v.toNat < 2 ^ 256)) ∧
    (∃ s : State, (s.h.boot = .running)) ∧
    (∃ off : Nat, (regAt off = none)) ∧
    (∃ off : Nat, (regAt off = none)) ∧
    (∃ s : State, ∃ app : Nat, ∃ a : MemOp, (app < 16) ∧ (a.addr = controlBase + 0x10018) ∧ (a.lw = 3) ∧ (a.kind = .load) ∧ (s.h.boot = .running)) ∧
    (∃ app : Nat, ∃ a : MemOp, (app < 16) ∧ (a.addr % 2 ^ a.lw.toNat = 0) ∧ (regionOf a.addr = .hbm)) ∧
    (∃ app : Nat, ∃ a : MemOp, (app < 16) ∧ (a.addr % 2 ^ a.lw.toNat = 0) ∧ (regionOf a.addr = .hbm)) ∧
    (∃ s : State, ∃ w : Nat, ∃ a : MemOp, (w < 12) ∧ (s.h.fwRun = true) ∧ (s.w.fwmode = false ∨ s.w.fwStopped.contains (w / 2) = false) ∧ (a.addr % 2 ^ a.lw.toNat = 0) ∧ (regionOf a.addr = .hbm)) ∧
    (∃ s : State, ∃ w : Nat, ∃ a : MemOp, (w < 12) ∧ (s.h.fwRun = true) ∧ (s.w.fwmode = false ∨ s.w.fwStopped.contains (w / 2) = false) ∧ (a.addr % 2 ^ a.lw.toNat = 0) ∧ (regionOf a.addr = .hbm)) ∧
    (∃ s : State, ∃ o : Outside, ∃ a : MemOp, ∃ k : Nat, let p := performAccess (dropTicket s k) o.agent (agentClock s o.agent) a.addr a.lw.toNat a.kind 0
      (s.x.outside.find? (fun p => p.agent = o.agent) = some o) ∧ (o.op = .word a) ∧ (o.agent < 348) ∧ (o.tick = some k) ∧ (arrived s k = true) ∧ (smGet {} s.x.tickets k).met = []) ∧
    (∃ s : State, ∃ o : Outside, ∃ a : MemOp, ∃ k : Nat, let p := performAccess (dropTicket s k) o.agent (agentClock s o.agent) a.addr a.lw.toNat a.kind 0
      (s.x.outside.find? (fun p => p.agent = o.agent) = some o) ∧ (o.op = .word a) ∧ (o.agent < 348) ∧ (o.tick = some k) ∧ (arrived s k = true) ∧ (smGet {} s.x.tickets k).met = []) ∧
    (∃ s : State, ∃ app : Nat, ∃ sec : Bool, ∃ a : MemOp, (16 ≤ app ∨ (a.addr % 2 ^ a.lw.toNat ≠ 0 ∧ regionOf a.addr ≠ .reserved) ∨ (sec = false ∧ regionOf a.addr = .hbm ∧ secureFrame s (a.addr / 16384) = true))) ∧
    (∃ s : State, ∃ app : Nat, ∃ sec : Bool, ∃ a : MemOp, (16 ≤ app ∨ (a.addr % 2 ^ a.lw.toNat ≠ 0 ∧ regionOf a.addr ≠ .reserved) ∨ (sec = false ∧ regionOf a.addr = .hbm ∧ secureFrame s (a.addr / 16384) = true))) ∧
    (∃ s : State, ∃ w : Nat, ∃ a : MemOp, (12 ≤ w ∨ s.h.fwRun = false ∨ (a.addr % 2 ^ a.lw.toNat ≠ 0 ∧ regionOf a.addr ≠ .reserved))) ∧
    (∃ s : State, ∃ w : Nat, ∃ a : MemOp, (12 ≤ w ∨ s.h.fwRun = false ∨ (a.addr % 2 ^ a.lw.toNat ≠ 0 ∧ regionOf a.addr ≠ .reserved))) ∧
    (∃ app : Nat, ∃ w : Nat, ∃ a : MemOp, (app < 16) ∧ (w < 12) ∧ (regionOf a.addr = .reserved)) ∧
    (∃ app : Nat, ∃ w : Nat, ∃ a : MemOp, (app < 16) ∧ (w < 12) ∧ (regionOf a.addr = .reserved)) ∧
    (∃ app : Nat, ∃ a : MemOp, (app < 16) ∧ (regionOf a.addr = .control) ∧ (a.addr % 2 ^ a.lw.toNat = 0) ∧ (2 ≤ a.lw.toNat) ∧ (a.kind = .load) ∧ (regAt (a.addr - controlBase) = none)) ∧
    (∃ app : Nat, ∃ a : MemOp, (app < 16) ∧ (regionOf a.addr = .control) ∧ (a.addr % 2 ^ a.lw.toNat = 0) ∧ (2 ≤ a.lw.toNat) ∧ (a.kind = .load) ∧ (regAt (a.addr - controlBase) = none)) :=
  ⟨⟨stT, 15, (2 ^ 53 - 1), by decide +kernel⟩,
   ⟨stT, 0, (2 ^ 53 - 1), by decide +kernel⟩,
   ⟨stT, 7, (2 ^ 256 - 1), by decide +kernel⟩,
   ⟨stT, by decide +kernel⟩,
   ⟨0xB0000, by decide +kernel⟩,
   ⟨0x7000000, by decide +kernel⟩,
   ⟨stT, 15, ({ addr := controlBase + 0x10018, lw := 3, kind := .load }), by decide +kernel⟩,
   ⟨15, ({ addr := 147456, lw := 3, kind := .load }), by decide +kernel⟩,
   ⟨15, ({ addr := 147456, lw := 2, kind := .aadd 3 }), by decide +kernel⟩,
   ⟨stT, 11, ({ addr := 147456, lw := 3, kind := .load }), by decide +kernel⟩,
   ⟨({ stT with w := { (stT).w with fwmode := true, fwStopped := [4] } }), 11, ({ addr := 147456, lw := 3, kind := .load }), by decide +kernel⟩,
   ⟨({ stF with x := { stF.x with outside := [{ id := 70, agent := 335, part := 0, op := .word { addr := 147456, lw := 3, kind := .load }, tick := some 5 }], tickets := [(5, {})] } }), ({ id := 70, agent := 335, part := 0, op := .word { addr := 147456, lw := 3, kind := .load }, tick := some 5 }), ({ addr := 147456, lw := 3, kind := .load }), 5, by dsimp only; decide +kernel⟩,
   ⟨({ stF with x := { stF.x with outside := [{ id := 70, agent := 347, part := 0, op := .word { addr := 147456, lw := 2, kind := .aadd 3 }, tick := some 5 }], tickets := [(5, {})] } }), ({ id := 70, agent := 347, part := 0, op := .word { addr := 147456, lw := 2, kind := .aadd 3 }, tick := some 5 }), ({ addr := 147456, lw := 2, kind := .aadd 3 }), 5, by dsimp only; decide +kernel⟩,
   ⟨stT, 16, true, ({ addr := 0, lw := 0, kind := .load }), by decide +kernel⟩,
   ⟨({ stT with creg := [(0x100, 2 ^ 127 + 9 + 9 * 2 ^ 64)] }), 3, false, ({ addr := 147456, lw := 0, kind := .load }), by decide +kernel⟩,
   ⟨stT, 12, ({ addr := 0, lw := 0, kind := .load }), by decide +kernel⟩,
   ⟨stT, 3, ({ addr := 1, lw := 1, kind := .load }), by decide +kernel⟩,
   ⟨15, 11, ({ addr := 0x0F00000000000001, lw := 3, kind := .load }), by decide +kernel⟩,
   ⟨15, 11, ({ addr := 0x0F00000000000001, lw := 3, kind := .store 0x99 }), by decide +kernel⟩,
   ⟨15, ({ addr := controlBase + 0xB0000, lw := 3, kind := .load }), by decide +kernel⟩,
   ⟨0, ({ addr := controlBase + 0xFFFFFFC, lw := 2, kind := .load }), by decide +kernel⟩⟩

end Sys2Proof.Tests
end

section
/-! PROOF. Control space and the accesses of application and firmware cores (R5, R20, R24, R38, R77, R100, R389). The routes that an access takes
are stated once for each kind of core; an access that arrives is split into what it does at its lines' home, which changes
nothing but the coherent state, and the clocks that follow, which change neither memory nor what is under way. -/

namespace Sys2Proof.Proofs.ControlSpace

open Sys2Proof Sys2Proof.Machine Sys2Proof.Claims Sys2Proof.Laws

/-! ## Writes of registers (R5, R20, R24) -/

theorem exec_controlRegisterWrite (s : State) (w : Writer) (off : Nat) (v : BitVec 512) :
    exec (.controlRegisterWrite w off v) s = execControlRegisterWrite w off v s := rfl

/-- A write that fits a register at its first offset reaches it. -/
theorem controlRegisterWrite_reaches {s : State} {w : Writer} {off bytes : Nat} {r : CtrlReg} {v : BitVec 512}
    (hr : regAt off = some ⟨r, off, bytes⟩) (hw : mayWrite s w r = true) (hv : v.toNat < 2 ^ (8 * bytes)) :
    exec (.controlRegisterWrite w off v) s = .next (writeReg s w r (v.setWidth 2048)) := by
  simp [exec_controlRegisterWrite, execControlRegisterWrite, hr, hw, hv]

theorem controlRegisterWrite_reserved (s : State) (w : Writer) {off : Nat} (v : BitVec 512) (hr : regAt off = none) :
    exec (.controlRegisterWrite w off v) s = .next (respond s .error) := by
  simp [exec_controlRegisterWrite, execControlRegisterWrite, hr]

/-- A place whose register refuses every value refuses every write. -/
theorem controlRegisterWrite_readOnly {s : State} {w : Writer} {off : Nat} {r : RegAt} (v : BitVec 512) (hr : regAt off = some r)
    (hro : ∀ x, writeReg s w r.reg x = respond s .error) :
    exec (.controlRegisterWrite w off v) s = .next (respond s .error) := by
  simp [exec_controlRegisterWrite, execControlRegisterWrite, hr, hro]

theorem answers_of_running {s : State} (h : s.h.boot = .running) (r : CtrlReg) : Machine.answers s r = true := by
  simp [Machine.answers, h]

theorem mayWrite_firmware {s : State} (h : s.h.boot = .running) (r : CtrlReg) : mayWrite s .firmware r = true := by
  simp [mayWrite, answers_of_running h]

theorem mayRead_secure {s : State} (h : s.h.boot = .running) (r : CtrlReg) : mayRead s (.app true) r = true := by
  simp [mayRead, answers_of_running h]

/-- A value of `n + 1` bits has only the bits of the field from `n` down to 0. -/
theorem onlyBits_low {v n : Nat} (h : v < 2 ^ (n + 1)) : onlyBits v [(n, 0)] = true := by
  simp [onlyBits, bitsN, Nat.mod_eq_of_lt h]

/-- The value of a control register goes through the width of the register file unchanged. -/
theorem ofNat_setWidth_wide (v : BitVec 512) : BitVec.ofNat 512 (v.setWidth 2048).toNat = v := by
  apply BitVec.eq_of_toNat_eq
  have hv := v.isLt
  simp only [BitVec.toNat_ofNat, BitVec.toNat_setWidth]
  omega

/-- The register holds the value; every other register, the coherent state and the cores stand as before. -/
abbrev Stored (s : State) (off : Nat) (v : BitVec 512) (t : State) : Prop :=
  creg t off = v ∧ (∀ o, o ≠ off → creg t o = creg s o) ∧ t.c = s.c ∧ t.cores = s.cores

theorem storeReg_stores (s : State) (off n : Nat) :
    (storeReg s off n true).resp = .ok ∧ Stored s off (BitVec.ofNat 512 n) (storeReg s off n true) := by
  have hc (o : Nat) : creg (storeReg s off n true) o = if off = o then BitVec.ofNat 512 n else creg s o :=
    creg_setCreg s off o (BitVec.ofNat 512 n)
  exact ⟨rfl, by simp [hc], fun o ho => by simp [hc, Ne.symm ho], rfl, rfl⟩

/-- A write of a register whose meaning is only to store is accepted and stores. -/
theorem controlRegisterWrite_stores {s : State} {off bytes : Nat} {r : CtrlReg} {v : BitVec 512} (hb : s.h.boot = .running)
    (hr : regAt off = some ⟨r, off, bytes⟩) (hv : v.toNat < 2 ^ (8 * bytes))
    (hs : writeReg s .firmware r (v.setWidth 2048) = storeReg s off (v.setWidth 2048).toNat true) :
    Accepts (.controlRegisterWrite .firmware off v) s (Stored s off v) := by
  have hstored := storeReg_stores s off (v.setWidth 2048).toNat
  rw [ofNat_setWidth_wide] at hstored
  exact ⟨_, by rw [controlRegisterWrite_reaches hr (mayWrite_firmware hb r) hv, hs], hstored⟩

theorem regAt_bpctl : ∀ k < 16, regAt (0x400100 + 8 * k) = some ⟨.bpctl k, 0x400100 + 8 * k, 8⟩ := by decide

theorem regAt_wfmask : ∀ k < 8, regAt (0x401020 + 64 * k) = some ⟨.wfmask k, 0x401020 + 64 * k, 32⟩ := by decide

theorem regAt_freeze : regAt 0x400300 = some ⟨.freeze, 0x400300, 8⟩ := by decide

theorem regAt_fcyc : regAt 0x10018 = some ⟨.fcyc, 0x10018, 8⟩ := by decide

theorem bpctlWrite_stores {s : State} {k : Nat} {v : BitVec 512} (hb : s.h.boot = .running) (hk : k < 16) (hv : v.toNat < 2 ^ 53) :
    Accepts (.controlRegisterWrite .firmware (0x400100 + 8 * k) v) s (Stored s (0x400100 + 8 * k) v) := by
  have hw : (v.setWidth 2048).toNat < 2 ^ (52 + 1) := by simp only [BitVec.toNat_setWidth]; omega
  exact controlRegisterWrite_stores hb (regAt_bpctl k hk) (by omega) (by simp only [writeReg, onlyBits_low hw])

theorem wfmaskWrite_stores {s : State} {k : Nat} {v : BitVec 512} (hb : s.h.boot = .running) (hk : k < 8) (hv : v.toNat < 2 ^ 256) :
    Accepts (.controlRegisterWrite .firmware (0x401020 + 64 * k) v) s (Stored s (0x401020 + 64 * k) v) :=
  controlRegisterWrite_stores hb (regAt_wfmask k hk) hv rfl

/-- A write of 1 to FREEZE runs the command. -/
theorem writeReg_freeze {s : State} {w : Writer} {v : Wide} (hv : v.toNat = 1) :
    writeReg s w .freeze v = outState s (execFreeze w s) := by
  have hok : onlyBits 1 [(0, 0)] = true := by decide
  have hbit : bitN 1 0 = true := by decide
  simp [writeReg, command, hv, hok, hbit]

theorem freezeWrite_freezes {s : State} (hb : s.h.boot = .running) :
    exec (.controlRegisterWrite .firmware 0x400300 1) s = exec (.freeze .firmware) s := by
  have hone : (1 : BitVec 512).toNat = 1 := BitVec.toNat_one (by decide)
  have hwide : ((1 : BitVec 512).setWidth 2048).toNat = 1 := by rw [BitVec.toNat_setWidth_of_le (by decide), hone]
  rw [controlRegisterWrite_reaches regAt_freeze (mayWrite_firmware hb _) (by rw [hone]; decide), writeReg_freeze hwide]
  rfl

/-! ## Routes of an access (R20, R24, R38) -/

section Routes

variable {s : State} {a : MemOp}

theorem exec_hostDeviceAccess (s : State) (app : Nat) (sec : Bool) (a : MemOp) :
    exec (.hostDeviceAccess app sec a) s = execHostDeviceAccess app sec a s := rfl

theorem exec_firmwareCoreAccess (s : State) (w : Nat) (a : MemOp) :
    exec (.firmwareCoreAccess w a) s = execFirmwareCoreAccess w a s := rfl

theorem absentWindow_outside (h : regionOf a.addr ≠ .window) : absentWindow s a.addr = false := by
  simp [absentWindow, h]

theorem hostDeviceAccess_noCore {app : Nat} (sec : Bool) (h : 16 ≤ app) :
    exec (.hostDeviceAccess app sec a) s = .next (respond s .error) := by
  simp [exec_hostDeviceAccess, execHostDeviceAccess, h]

theorem hostDeviceAccess_reserved {app : Nat} (sec : Bool) (happ : app < 16) (hr : regionOf a.addr = .reserved) :
    exec (.hostDeviceAccess app sec a) s = .next (reservedAccess s a) := by
  simp [exec_hostDeviceAccess, execHostDeviceAccess, Nat.not_le.2 happ, hr]

theorem hostDeviceAccess_misaligned (app : Nat) (sec : Bool) (hm : a.addr % 2 ^ a.lw.toNat ≠ 0) (hr : regionOf a.addr ≠ .reserved) :
    exec (.hostDeviceAccess app sec a) s = .next (respond s .error) := by
  simp [exec_hostDeviceAccess, execHostDeviceAccess, hm, hr]

theorem hostDeviceAccess_control {app : Nat} (sec : Bool) (happ : app < 16) (hr : regionOf a.addr = .control)
    (ha : a.addr % 2 ^ a.lw.toNat = 0) :
    exec (.hostDeviceAccess app sec a) s = .next (controlAccess s (.app sec) none a) := by
  simp [exec_hostDeviceAccess, execHostDeviceAccess, Nat.not_le.2 happ, hr, ha, absentWindow_outside]

theorem hostDeviceAccess_secureFrame (app : Nat) (hr : regionOf a.addr = .hbm) (hf : secureFrame s (a.addr / frameBytes) = true) :
    exec (.hostDeviceAccess app false a) s = .next (respond s .error) := by
  simp [exec_hostDeviceAccess, execHostDeviceAccess, hr, hf]

/-- A secure access to HBM counts on the core's clock and sets out. -/
theorem hostDeviceAccess_hbm {app : Nat} (happ : app < 16) (hr : regionOf a.addr = .hbm) (ha : a.addr % 2 ^ a.lw.toNat = 0) :
    exec (.hostDeviceAccess app true a) s =
      .next (setOut (setAgentClock s (320 + app) (agentClock s (320 + app) + 1)) (320 + app) (outsidePart s a.addr) (.word a)) := by
  simp [exec_hostDeviceAccess, execHostDeviceAccess, Nat.not_le.2 happ, hr, ha, absentWindow_outside]

theorem firmwareCoreAccess_stopped {w : Nat} (h : firmwareRuns s w = false) :
    exec (.firmwareCoreAccess w a) s = .next (respond s .error) := by
  simp [exec_firmwareCoreAccess, execFirmwareCoreAccess, h]

theorem firmwareCoreAccess_misaligned (w : Nat) (hm : a.addr % 2 ^ a.lw.toNat ≠ 0) (hr : regionOf a.addr ≠ .reserved) :
    exec (.firmwareCoreAccess w a) s = .next (respond s .error) := by
  simp [exec_firmwareCoreAccess, execFirmwareCoreAccess, hm, hr]

theorem firmwareCoreAccess_reserved {w : Nat} (h : firmwareRuns s w = true) (hr : regionOf a.addr = .reserved) :
    exec (.firmwareCoreAccess w a) s = .next (reservedAccess s a) := by
  simp [exec_firmwareCoreAccess, execFirmwareCoreAccess, h, hr]

theorem firmwareCoreAccess_hbm {w : Nat} (h : firmwareRuns s w = true) (hr : regionOf a.addr = .hbm) (ha : a.addr % 2 ^ a.lw.toNat = 0) :
    exec (.firmwareCoreAccess w a) s = .next (setOut s (336 + w) (outsidePart s a.addr) (.word a)) := by
  simp [exec_firmwareCoreAccess, execFirmwareCoreAccess, h, hr, ha, absentWindow_outside]

/-- A firmware core runs when firmware runs and its pair has not stopped (R355). -/
theorem firmwareRuns_iff (w : Nat) :
    firmwareRuns s w = true ↔ w < 12 ∧ s.h.fwRun = true ∧ (s.w.fwmode = false ∨ s.w.fwStopped.contains (w / 2) = false) := by
  simp [firmwareRuns, and_assoc]

/-- A load of a word of control space reads its register. -/
theorem controlAccess_load (w : Writer) (fw : Option Nat) (hlw : 2 ≤ a.lw.toNat) (hk : a.kind = .load) :
    controlAccess s w fw a = readWord s w fw (a.addr - controlBase) (2 ^ a.lw.toNat) := by
  have hn : ¬ 2 ^ a.lw.toNat < 4 := Nat.not_lt.2 (Nat.pow_le_pow_right (n := 2) (by decide) hlw)
  simp [controlAccess, hn, hk]

theorem readWord_reserved (w : Writer) (fw : Option Nat) {off : Nat} (n : Nat) (hr : regAt off = none) :
    readWord s w fw off n = respond s (.errorRead 0) := by
  simp [readWord, hr]

/-- FCYC reads as the cycle, modulo 2^64. -/
theorem readWord_fcyc (w : Writer) (fw : Option Nat) (h : mayRead s w .fcyc = true) :
    readWord s w fw 0x10018 8 = respond s (.value (BitVec.ofNat 2048 (s.t.now % 2 ^ 64))) := by
  have hfit : s.t.now % 2 ^ 64 / 256 ^ 0 % 256 ^ 8 = s.t.now % 2 ^ 64 := by omega
  simp only [readWord, regAt_fcyc, h, regValue, Nat.sub_self, hfit]
  rfl

theorem hostDeviceAccess_fcyc {app : Nat} (happ : app < 16) (haddr : a.addr = controlBase + 0x10018) (hlw : a.lw = 3)
    (hk : a.kind = .load) (hb : s.h.boot = .running) :
    exec (.hostDeviceAccess app true a) s = .next (respond s (.value (BitVec.ofNat 2048 (s.t.now % 2 ^ 64)))) := by
  have hr : regionOf a.addr = .control := by rw [haddr]; decide
  have ha : a.addr % 2 ^ a.lw.toNat = 0 := by rw [haddr, hlw]; decide
  have hword : readWord s (.app true) none (a.addr - controlBase) (2 ^ a.lw.toNat) = readWord s (.app true) none 0x10018 8 := by
    rw [haddr, hlw]; rfl
  rw [hostDeviceAccess_control true happ hr ha, controlAccess_load _ _ (by rw [hlw]; decide) hk, hword,
    readWord_fcyc _ _ (mayRead_secure hb _)]

theorem hostDeviceAccess_control_reserved {app : Nat} (sec : Bool) (happ : app < 16) (hr : regionOf a.addr = .control)
    (ha : a.addr % 2 ^ a.lw.toNat = 0) (hlw : 2 ≤ a.lw.toNat) (hk : a.kind = .load) (hreg : regAt (a.addr - controlBase) = none) :
    exec (.hostDeviceAccess app sec a) s = .next (respond s (.errorRead 0)) := by
  rw [hostDeviceAccess_control sec happ hr ha, controlAccess_load _ _ hlw hk, readWord_reserved _ _ _ hreg]

end Routes

/-! ## An access sets out (R77, R100) -/

/-- An access that sets out is answered with a number under which it stands last among those under way. -/
theorem setOut_begins (s : State) (agent part : Nat) (o : OutsideOp) :
    ∃ k, (setOut s agent part o).resp = .begun k ∧
      (setOut s agent part o).x.outside = s.x.outside ++ [{ id := k, agent, part, op := o }] :=
  ⟨s.t.nextId, rfl, rfl⟩

theorem setOut_c (s : State) (agent part : Nat) (o : OutsideOp) : (setOut s agent part o).c = s.c := rfl

theorem agentClock_setOut (s : State) (agent part : Nat) (o : OutsideOp) {m : Nat} (h : 320 ≤ m) (h' : m < 348) :
    agentClock (setOut s agent part o) m = agentClock s m := by
  simp only [agentClock, Nat.not_lt.2 h, h', if_true, if_false, setOut_c]

/-- The clocks of application and firmware cores stand in a table of the coherent state. -/
theorem setAgentClock_outer (s : State) {m : Nat} (v : Nat) (h : 320 ≤ m) (h' : m < 348) :
    setAgentClock s m v = { s with c := { s.c with agentClk := smPut s.c.agentClk m v } } := by
  simp only [setAgentClock, Nat.not_lt.2 h, h', if_true, if_false]

theorem agentClock_setAgentClock_outer (s : State) {m : Nat} (v : Nat) (h : 320 ≤ m) (h' : m < 348) :
    agentClock (setAgentClock s m v) m = v := by
  simp only [setAgentClock_outer s v h h', agentClock, Nat.not_lt.2 h, h', if_true, if_false, smGet_smPut]

theorem hostDeviceAccess_begins {s : State} {app : Nat} {a : MemOp} (happ : app < 16) (ha : a.addr % 2 ^ a.lw.toNat = 0)
    (hr : regionOf a.addr = .hbm) :
    Gives (.hostDeviceAccess app true a) s (fun t =>
      ∃ k, t.resp = .begun k ∧ t.x.outside = s.x.outside ++ [{ id := k, agent := 320 + app, part := outsidePart s a.addr, op := .word a }] ∧
        agentClock t (320 + app) = agentClock s (320 + app) + 1 ∧ t.c.mem = s.c.mem) := by
  have hlo : 320 ≤ 320 + app := by omega
  have hhi : 320 + app < 348 := by omega
  have hset := setAgentClock_outer s (agentClock s (320 + app) + 1) hlo hhi
  obtain ⟨k, hresp, hout⟩ := setOut_begins (setAgentClock s (320 + app) (agentClock s (320 + app) + 1)) (320 + app)
    (outsidePart s a.addr) (.word a)
  refine ⟨_, hostDeviceAccess_hbm happ hr ha, k, hresp, ?_, ?_, ?_⟩
  · rw [hout, hset]
  · rw [agentClock_setOut _ _ _ _ hlo hhi, agentClock_setAgentClock_outer _ _ hlo hhi]
  · rw [setOut_c, hset]

theorem firmwareCoreAccess_begins {s : State} {w : Nat} {a : MemOp} (h : firmwareRuns s w = true) (ha : a.addr % 2 ^ a.lw.toNat = 0)
    (hr : regionOf a.addr = .hbm) :
    Gives (.firmwareCoreAccess w a) s (fun t =>
      ∃ k, t.resp = .begun k ∧ t.x.outside = s.x.outside ++ [{ id := k, agent := 336 + w, part := outsidePart s a.addr, op := .word a }] ∧
        t.c = s.c) := by
  obtain ⟨k, hresp, hout⟩ := setOut_begins s (336 + w) (outsidePart s a.addr) (.word a)
  exact ⟨_, firmwareCoreAccess_hbm h hr ha, k, hresp, hout, setOut_c ..⟩

/-! ## What an access does at its lines' home (R101 to R103) -/

/-- Nothing but the coherent state differs. -/
def OnlyCoherent (s t : State) : Prop := t = { s with c := t.c }

theorem OnlyCoherent.trans {s t u : State} (h : OnlyCoherent s t) (h' : OnlyCoherent t u) : OnlyCoherent s u := by
  unfold OnlyCoherent at *
  rw [h', h]

theorem OnlyCoherent.x {s t : State} (h : OnlyCoherent s t) : t.x = s.x := by rw [h]

theorem OnlyCoherent.answers {s t : State} (h : OnlyCoherent s t) : t.answers = s.answers := by rw [h]

theorem OnlyCoherent.foldl {α : Type} {f : State → α → State} (hf : ∀ s i, OnlyCoherent s (f s i)) (l : List α) (s : State) :
    OnlyCoherent s (l.foldl f s) := by
  induction l generalizing s with
  | nil => rfl
  | cons i l ih => exact (hf s i).trans (ih (f s i))

theorem reKey_onlyCoherent (s : State) (mat : BitVec 512) (line : Nat) : OnlyCoherent s (reKey s mat line) := by
  unfold reKey
  repeat' split
  all_goals rfl

theorem mergeVersion_onlyCoherent (s : State) (id : Nat) : OnlyCoherent s (mergeVersion s id) := by
  unfold mergeVersion
  split <;> rfl

/-- The versions that hold bytes of a word become published to every agent. -/
def mergeBytes (s : State) (a n : Nat) : State :=
  (List.range n).foldl (fun s i =>
    match s.c.versions.reverse.find? (fun v => v.bytes.any (fun b => b.1 = a + i)) with
    | some v => mergeVersion s v.id
    | none => s) s

theorem mergeBytes_onlyCoherent (s : State) (a n : Nat) : OnlyCoherent s (mergeBytes s a n) := by
  refine OnlyCoherent.foldl (fun s i => ?_) _ s
  split
  · exact mergeVersion_onlyCoherent s _
  · rfl

theorem storeStamp_onlyCoherent (s : State) (lc line : Nat) : OnlyCoherent s (storeStamp s lc line).2 := rfl

theorem storeAll_onlyCoherent (s : State) (bs : List Host.Cell) : OnlyCoherent s (storeAll s bs) := rfl

theorem grantLease_onlyCoherent (s : State) (agent line rts : Nat) : OnlyCoherent s (grantLease s agent line rts).2 := rfl

theorem loadLines_onlyCoherent (s : State) (agent lc : Nat) (met : List Met) (lines : List Nat) :
    OnlyCoherent s (loadLines s agent lc met lines).2.2 :=
  OnlyCoherent.foldl (fun s n => grantLease_onlyCoherent s agent n _) _ s

/-- The write of a word's bytes as a new version of its line. -/
theorem storeWord_onlyCoherent (s : State) (lc line : Nat) (bs : List Host.Cell) :
    OnlyCoherent s (storeAll (storeStamp s lc line).2 bs) :=
  (storeStamp_onlyCoherent s lc line).trans (storeAll_onlyCoherent _ bs)

theorem performAccess_onlyCoherent (s : State) (agent lc a lw : Nat) (k : AccKind) (mat : BitVec 512) (met : List Met) :
    OnlyCoherent s (performAccess s agent lc a lw k mat met).2.2 := by
  have hatomic (bs : List Host.Cell) :
      OnlyCoherent s (storeAll (storeStamp (mergeBytes (reKey s mat (lineOf a)) a (2 ^ lw)) lc (lineOf a)).2 bs) :=
    ((reKey_onlyCoherent s mat _).trans (mergeBytes_onlyCoherent _ _ _)).trans (storeWord_onlyCoherent _ _ _ _)
  cases k with
  | load => exact loadLines_onlyCoherent s agent lc met _
  | store v => exact (reKey_onlyCoherent s mat _).trans (storeWord_onlyCoherent _ _ _ _)
  | aadd v => exact hatomic _
  | aswap v => exact hatomic _
  | acas c v => exact hatomic _
  | amin v => exact hatomic _
  | amax v => exact hatomic _
  | aand v => exact hatomic _
  | aor v => exact hatomic _

/-! ## The clocks after an access (R103, R106) -/

/-- Memory, what is under way and the answers given stand; clocks, events and a rollover's request may differ. -/
structure ClocksOnly (s t : State) : Prop where
  mem : t.c.mem = s.c.mem
  x : t.x = s.x
  answers : t.answers = s.answers

theorem ClocksOnly.trans {s t u : State} (h : ClocksOnly s t) (h' : ClocksOnly t u) : ClocksOnly s u :=
  ⟨h'.mem.trans h.mem, h'.x.trans h.x, h'.answers.trans h.answers⟩

theorem setAgentClock_clocksOnly (s : State) (agent v : Nat) : ClocksOnly s (setAgentClock s agent v) := by
  unfold setAgentClock
  split
  · exact ⟨rfl, rfl, rfl⟩
  split
  · exact ⟨rfl, rfl, rfl⟩
  split <;> exact ⟨rfl, rfl, rfl⟩

theorem noteTs_clocksOnly (s : State) (agent v : Nat) : ClocksOnly s (noteTs s agent v) := by
  unfold noteTs
  split <;> exact ⟨rfl, rfl, rfl⟩

/-- The event that the largest clock reaching 2^46 posts once (R106). -/
def postClock (s : State) (m : Nat) : State :=
  if m ≥ 2 ^ 46 ∧ ¬ s.c.clkPosted then postEvent { s with c := { s.c with clkPosted := true } } 5 none 0 m else s

/-- The rollover that the largest clock reaching 2^47 requests (R106). -/
def askRollover (s : State) (m : Nat) : State :=
  if m ≥ 2 ^ 47 ∧ s.c.rollReq = none ∧ s.c.rollEnd = none then
    { s with c := { s.c with rollReq := some (s.t.now + 64 - s.t.now % 64) } }
  else s

theorem clockEvent_eq (s : State) : clockEvent s = askRollover (postClock s (clkMax s)) (clkMax s) := rfl

theorem postClock_clocksOnly (s : State) (m : Nat) : ClocksOnly s (postClock s m) := by
  unfold postClock
  split
  · exact ⟨by rw [postEvent_c], postEvent_x .., postEvent_answers ..⟩
  · exact ⟨rfl, rfl, rfl⟩

theorem askRollover_clocksOnly (s : State) (m : Nat) : ClocksOnly s (askRollover s m) := by
  unfold askRollover
  split <;> exact ⟨rfl, rfl, rfl⟩

theorem clockEvent_clocksOnly (s : State) : ClocksOnly s (clockEvent s) := by
  rw [clockEvent_eq]
  exact (postClock_clocksOnly _ _).trans (askRollover_clocksOnly _ _)

/-- An agent's access is what it does at the home, at the agent's clock, and the clocks after it. -/
theorem agentAccess_spec (s : State) (agent a lw : Nat) (k : AccKind) (mat : BitVec 512) (met : List Met) :
    let p := performAccess s agent (agentClock s agent) a lw k mat met
    (agentAccess s agent a lw k mat met).1 = p.1 ∧ ClocksOnly p.2.2 (agentAccess s agent a lw k mat met).2 :=
  ⟨rfl, ((setAgentClock_clocksOnly _ _ _).trans (noteTs_clocksOnly _ _ _)).trans (clockEvent_clocksOnly _)⟩

/-! ## An access arrives (R77, R102) -/

theorem agentClock_dropTicket (s : State) (k : Nat) {agent : Nat} (h : agent < 348) :
    agentClock (dropTicket s k) agent = agentClock s agent := by
  simp only [agentClock, h, if_true]
  rfl

/-- The first access of its agent, once its path is over with no leased copy met, is performed: it leaves those under way and is
answered under its number. -/
theorem stepOutside_performs {s : State} {o : Outside} {k : Nat} (hfirst : s.x.outside.find? (fun p => p.agent = o.agent) = some o)
    (ht : o.tick = some k) (harr : arrived s k = true) (hmet : (smGet {} s.x.tickets k).met = []) :
    let r := performOutside (dropTicket s k) o.agent o.op []
    stepOutside s o = { r.2 with
      x := { r.2.x with outside := r.2.x.outside.filter (fun p => p.id ≠ o.id) }, answers := r.2.answers ++ [(o.id, r.1)] } := by
  have hfresh (s : State) (clk : Nat) (ls : List Nat) : metStale s clk [] ls = false := rfl
  simp [stepOutside, hfirst, ht, harr, hmet, hfresh]

theorem stepOutside_word {s : State} {o : Outside} {a : MemOp} {k : Nat}
    (hfirst : s.x.outside.find? (fun p => p.agent = o.agent) = some o) (hop : o.op = .word a) (hagent : o.agent < 348)
    (ht : o.tick = some k) (harr : arrived s k = true) (hmet : (smGet {} s.x.tickets k).met = []) :
    let p := performAccess (dropTicket s k) o.agent (agentClock s o.agent) a.addr a.lw.toNat a.kind 0
    let t := stepOutside s o
    t.answers = s.answers ++ [(o.id, .value (BitVec.ofNat 2048 p.1))] ∧ t.c.mem = p.2.2.c.mem ∧
      t.x.outside = s.x.outside.filter (fun p => p.id ≠ o.id) := by
  have hhome := performAccess_onlyCoherent (dropTicket s k) o.agent (agentClock s o.agent) a.addr a.lw.toNat a.kind 0 []
  obtain ⟨hval, hclk⟩ := agentAccess_spec (dropTicket s k) o.agent a.addr a.lw.toNat a.kind 0 []
  rw [agentClock_dropTicket s k hagent] at hval hclk
  simp only [stepOutside_performs hfirst ht harr hmet, hop, performOutside]
  refine ⟨?_, hclk.mem, ?_⟩
  · rw [hval, hclk.answers, hhome.answers]; rfl
  · rw [hclk.x, hhome.x]; rfl

/-! ## Refusals (R20, R38) -/

theorem hostDeviceAccess_refused {s : State} {app : Nat} {sec : Bool} {a : MemOp}
    (h : 16 ≤ app ∨ (a.addr % 2 ^ a.lw.toNat ≠ 0 ∧ regionOf a.addr ≠ .reserved) ∨
      (sec = false ∧ regionOf a.addr = .hbm ∧ secureFrame s (a.addr / 16384) = true)) :
    exec (.hostDeviceAccess app sec a) s = .next (respond s .error) := by
  obtain happ | ⟨hm, hr⟩ | ⟨rfl, hr, hf⟩ := h
  · exact hostDeviceAccess_noCore sec happ
  · exact hostDeviceAccess_misaligned app sec hm hr
  · exact hostDeviceAccess_secureFrame app hr hf

theorem firmwareCoreAccess_refused {s : State} {w : Nat} {a : MemOp}
    (h : 12 ≤ w ∨ s.h.fwRun = false ∨ (a.addr % 2 ^ a.lw.toNat ≠ 0 ∧ regionOf a.addr ≠ .reserved)) :
    exec (.firmwareCoreAccess w a) s = .next (respond s .error) := by
  obtain hw | hf | ⟨hm, hr⟩ := h
  · exact firmwareCoreAccess_stopped (by simp [firmwareRuns, Nat.not_lt.2 hw])
  · exact firmwareCoreAccess_stopped (by simp [firmwareRuns, hf])
  · exact firmwareCoreAccess_misaligned w hm hr

/-- Settles O56, clause by clause: writes of registers, the routes of accesses, their setting out and their arrival, and the
refusals. -/
theorem controlSpaceEvents : Obligations.ControlSpaceEvents := by
  unfold Obligations.ControlSpaceEvents
  refine ⟨?bpctl, ?wfmask, ?freeze, ?reservedWrite, ?readOnly, ?fcyc, ?appBegins, ?firmwareBegins, ?arrives, ?appRefused,
    ?firmwareRefused, ?reserved, ?controlReserved⟩
  case bpctl => exact fun s k v hb hk hv => bpctlWrite_stores hb hk hv
  case wfmask => exact fun s k v hb hk hv => wfmaskWrite_stores hb hk hv
  case freeze => exact fun s hb => freezeWrite_freezes hb
  case reservedWrite => exact fun s w off v hr => controlRegisterWrite_reserved s w v hr
  case readOnly => exact fun s w v => controlRegisterWrite_readOnly v regAt_fcyc (fun _ => rfl)
  case fcyc => exact fun s app a happ haddr hlw hk hb => ⟨_, hostDeviceAccess_fcyc happ haddr hlw hk hb, rfl⟩
  case appBegins => exact fun s app a happ ha hr => hostDeviceAccess_begins happ ha hr
  case firmwareBegins =>
    exact fun s w a hw hrun hpair ha hr => firmwareCoreAccess_begins ((firmwareRuns_iff w).2 ⟨hw, hrun, hpair⟩) ha hr
  case arrives => exact fun s o a k hfirst hop hagent ht harr hmet => stepOutside_word hfirst hop hagent ht harr hmet
  case appRefused => exact fun s app sec a h => hostDeviceAccess_refused h
  case firmwareRefused => exact fun s w a h => firmwareCoreAccess_refused h
  case reserved =>
    exact fun s app sec w a happ hw hr => ⟨hostDeviceAccess_reserved sec happ hr,
      fun hrun hmode => firmwareCoreAccess_reserved ((firmwareRuns_iff w).2 ⟨hw, hrun, .inl hmode⟩) hr⟩
  case controlReserved =>
    exact fun s app sec a happ hr ha hlw hk hreg => hostDeviceAccess_control_reserved sec happ hr ha hlw hk hreg

end Sys2Proof.Proofs.ControlSpace
end

section
/-! PROOF. The state after power-on (R78, R121, R363, R394, R401). -/

namespace Sys2Proof.Proofs.Reset

open Sys2Proof Sys2Proof.Machine Sys2Proof.Claims Sys2Proof.Laws

/-- A number of bytes side by side, the first lowest. -/
def packBytes (f : Nat → Nat) (l : List Nat) : Nat := l.foldr (fun i acc => f i + 256 * acc) 0

theorem packBytes_lt {f : Nat → Nat} (hf : ∀ i, f i < 256) (l : List Nat) : packBytes f l < 2 ^ (8 * l.length) := by
  induction l with
  | nil => simp [packBytes]
  | cons a l ih =>
    have ha := hf a
    simp only [packBytes, List.foldr_cons, List.length_cons, Nat.mul_add, Nat.pow_add] at ih ⊢
    omega

theorem packBytes_byte {f : Nat → Nat} (hf : ∀ i, f i < 256) {l : List Nat} {k : Nat} (hk : k < l.length) :
    packBytes f l / 256 ^ k % 256 = f l[k] := by
  induction l generalizing k with
  | nil => simp at hk
  | cons a l ih =>
    have ha := hf a
    rw [show packBytes f (a :: l) = f a + 256 * packBytes f l from rfl]
    cases k with
    | zero => simp; omega
    | succ k =>
      rw [Nat.pow_succ, Nat.mul_comm (256 ^ k), ← Nat.div_div_eq_div_mul, Nat.add_mul_div_left _ _ (by decide), Nat.div_eq_of_lt ha, Nat.zero_add,
        ih (by simpa using hk)]
      rfl

/-- A number of few bits stands unchanged in a wider vector. -/
theorem toNat_ofNat_of_lt_two_pow {n k w : Nat} (hn : n < 2 ^ k) (hk : k ≤ w) : (BitVec.ofNat w n).toNat = n := by
  rw [BitVec.toNat_ofNat, Nat.mod_eq_of_lt (Nat.lt_of_lt_of_le hn (Nat.pow_le_pow_right (by decide) hk))]

/-- A timetable packed from owner bytes gives each cycle of the period its own. -/
theorem timetable_byte {f : Nat → Nat} (hf : ∀ i, f i < 256) {i : Nat} (hi : i < 64) :
    bitsN (BitVec.ofNat 512 (packBytes f (List.range 64))).toNat (8 * i + 7) (8 * i) = f i := by
  have hlt := packBytes_lt hf (List.range 64)
  have hbyte := packBytes_byte hf (l := List.range 64) (k := i) (by simpa using hi)
  have hwidth : 8 * i + 7 + 1 - 8 * i = 8 := by omega
  rw [toNat_ofNat_of_lt_two_pow hlt (by simp), bitsN, hwidth, Nat.shiftRight_eq_div_pow, Nat.pow_mul]
  rwa [List.getElem_range] at hbyte

theorem tblOf_eq_packBytes (b : Nat) : tblOf b = BitVec.ofNat 512 (packBytes (fun _ => b) (List.range 64)) := rfl

/-- Refresh owns cycles 0 and 32 of a pseudo-channel's period and nobody the others (R78). -/
def refreshOwner (i : Nat) : Nat := if i = 0 ∨ i = 32 then 0x10 else 0x1F

theorem httReset_eq_packBytes : httReset = BitVec.ofNat 512 (packBytes refreshOwner (List.range 64)) := rfl

theorem refreshOwner_lt (i : Nat) : refreshOwner i < 256 := by
  unfold refreshOwner
  split <;> decide

/-- Every cycle of a port belongs to nobody. -/
theorem portOwner_reset {p i : Nat} (hp : p < 80) (hi : i < 64) :
    bitsN (liveOf State.reset p).toNat (8 * i + 7) (8 * i) = 0x1F := by
  have hlive : liveOf State.reset p = tblOf 0x1F := if_pos (by omega)
  rw [hlive, tblOf_eq_packBytes, timetable_byte (fun _ => by decide) hi]

theorem channelOwner_reset (c : Nat) {i : Nat} (hi : i < 64) :
    bitsN (liveOf State.reset (1000 + c)).toNat (8 * i + 7) (8 * i) = refreshOwner i := by
  have hlive : liveOf State.reset (1000 + c) = httReset := if_neg (by omega)
  rw [hlive, httReset_eq_packBytes, timetable_byte refreshOwner_lt hi]

theorem dthr_reset {n : Nat} (hn : n < 10) : dthr State.reset n = 32 := by
  have h : cregReset (0x10000 + 0x10000 * n + 0x30) = 32 := by
    rw [cregReset, if_neg (by omega), if_neg (by omega), if_neg (by omega), if_neg (by omega), if_pos (by omega)]
  have hd : dthr State.reset n = bitsN (cregReset (0x10000 + 0x10000 * n + 0x30)).toNat 5 0 := rfl
  have h32 : (32 : BitVec 512).toNat = 32 := toNat_ofNat_of_lt_two_pow (k := 6) (by decide) (by decide)
  rw [hd, h, h32]
  decide

/-- Settles O58: every part is read off the state after power-on, the timetables byte by byte. -/
theorem resetState : Obligations.ResetState := by
  unfold Obligations.ResetState
  exact ⟨rfl, rfl, rfl, rfl, rfl, rfl, rfl, fun _ _ => rfl, fun _ => ⟨rfl, rfl, rfl⟩, fun _ => ⟨rfl, rfl, rfl, rfl, rfl⟩,
    fun c _ i hi => channelOwner_reset c hi, fun p hp i hi => portOwner_reset hp hi, rfl, rfl, rfl, fun n hn => dthr_reset hn,
    rfl, rfl, rfl, rfl, rfl, fun _ => rfl, fun _ => rfl, wf_reset⟩

end Sys2Proof.Proofs.Reset
end

section
/-! PROOF. Tables and cores whose entries are changed one after the other, and tables filtered by their keys. -/

namespace Sys2Proof.Proofs.Consecutive

open Sys2Proof Sys2Proof.Machine Sys2Proof.Laws

/-- Keys kept by a test of the key read as before, and the others as the default. -/
theorem smGet_filter_key {β : Type} (d : β) (m : SMap β) (g : Nat → Bool) (i : Nat) :
    smGet d (m.filter (fun p => g p.1)) i = if g i = true then smGet d m i else d := by
  induction m with
  | nil => simp
  | cons p m ih =>
    obtain ⟨k, v⟩ := p
    by_cases hk : g k = true
    · rw [List.filter_cons_of_pos (by simpa using hk), smGet_cons, smGet_cons, ih]
      by_cases hi : k = i
      · subst hi; simp [hk]
      · simp [hi]
    · rw [List.filter_cons_of_neg (by simpa using hk), ih, smGet_cons]
      by_cases hi : k = i
      · subst hi; simp [hk]
      · simp [hi]

/-- Changing the first `n` entries of a table changes each by itself. -/
theorem smGet_foldl_smPut {β : Type} (d : β) (f : Nat → β → β) (m : SMap β) (n i : Nat) :
    smGet d ((List.range n).foldl (fun m k => smPut m k (f k (smGet d m k))) m) i = if i < n then f i (smGet d m i) else smGet d m i := by
  induction n with
  | zero => simp
  | succ n ih =>
    rw [List.range_succ, List.foldl_append, List.foldl_cons, List.foldl_nil, smGet_smPut]
    by_cases hi : n = i
    · subst hi
      -- the entry itself has not been changed yet
      have hn : smGet d ((List.range n).foldl (fun m k => smPut m k (f k (smGet d m k))) m) n = smGet d m n := by
        rw [ih, if_neg (Nat.lt_irrefl n)]
      rw [if_pos rfl, if_pos (Nat.lt_succ_self n), hn]
    · have hlt : i < n + 1 ↔ i < n := by omega
      simp only [if_neg hi, ih, hlt]

/-- Changing consecutive cores changes each by itself. -/
theorem getCore_foldl_modCore (s : State) (f : Core → Core) (b n k : Nat) :
    getCore ((List.range n).foldl (fun s p => modCore s (b + p) f) s) k = if b ≤ k ∧ k < b + n then f (getCore s k) else getCore s k := by
  induction n with
  | zero => rw [if_neg (by omega)]; rfl
  | succ n ih =>
    rw [List.range_succ, List.foldl_append, List.foldl_cons, List.foldl_nil, getCore_modCore]
    by_cases hk : b + n = k
    · rw [if_pos hk, hk, ih, if_neg (by omega), if_pos (by omega)]
    · have hlt : (b ≤ k ∧ k < b + (n + 1)) ↔ (b ≤ k ∧ k < b + n) := by omega
      simp only [if_neg hk, ih, hlt]

theorem ofCluster_h (s : State) (c : Nat) (f : Core → Core) : (ofCluster s c f).h = s.h := by
  unfold ofCluster
  split
  · exact foldl_keeps State.h (fun s p => modCore s (8 * c + p) f) (fun _ _ => rfl) _ s
  · rfl

/-- Each core of a cluster changes by itself. -/
theorem getCore_ofCluster (s : State) {c p : Nat} (f : Core → Core) (hc : c < 10) (hp : p < 8) :
    getCore (ofCluster s c f) (8 * c + p) = f (getCore s (8 * c + p)) := by
  rw [ofCluster, if_pos hc, getCore_foldl_modCore, if_pos (by omega)]

end Sys2Proof.Proofs.Consecutive
end

section
/-! PROOF. Power-on, warm reset, self-test, boot, freeze and the temperatures (R78, R373, R387, R394, R395, R400, R431). -/

namespace Sys2Proof.Proofs.Boot

open Sys2Proof Sys2Proof.Machine Sys2Proof.Claims Sys2Proof.Laws Sys2Proof.Proofs.ControlSpace
  Sys2Proof.Proofs.Consecutive

/-! ## Power-on (R394, R78, R401) -/

theorem rdByte_hostCells (m : List Host.Cell) (a : Nat) : rdByte (hostCells m) a = if regionOf a = .host then rdByte m a else 0 := by
  simpa [hostCells, rdByte] using smGet_filter_key 0 m (fun k => decide (regionOf k = .host)) a

/-- The timebase of the cycle from which it counts. -/
theorem timebase_eq_tbl {s : State} (h : s.t.tbAt = s.t.now) : timebase s = s.t.tbl := by
  simp [timebase, h]

/-- The part as after power-on, but for the application cores' memory and what the outside world does. -/
theorem powerOn_resets (s : State) :
    Gives .powerOn s (fun t => t.t.now = 0 ∧ timebase t = 0 ∧ t.h.boot = .selfTest ∧ t.h.bootCnt = 0 ∧ t.h.fwRun = false ∧
      t.h.kvalid = 0 ∧ t.cores = [] ∧ t.clusters = [] ∧ t.f = {} ∧ t.x = {} ∧
      ∀ a, rdByte t.c.mem a = if regionOf a = .host then rdByte s.c.mem a else 0) :=
  ⟨_, rfl, rfl, timebase_eq_tbl rfl, rfl, rfl, rfl, rfl, rfl, rfl, rfl, rfl, rdByte_hostCells s.c.mem⟩

/-! ## The warm reset (R394) -/

/-- Nothing but memory and the brake van differs. -/
def OnlyMemoryAndVan (s t : State) : Prop := t = { s with c := t.c, d := t.d }

theorem OnlyMemoryAndVan.trans {s t u : State} (h : OnlyMemoryAndVan s t) (h' : OnlyMemoryAndVan t u) : OnlyMemoryAndVan s u := by
  unfold OnlyMemoryAndVan at *
  rw [h', h]

theorem OnlyMemoryAndVan.foldl {α : Type} {f : State → α → State} (hf : ∀ s i, OnlyMemoryAndVan s (f s i)) (l : List α) (s : State) :
    OnlyMemoryAndVan s (l.foldl f s) := by
  induction l generalizing s with
  | nil => rfl
  | cons i l ih => exact (hf s i).trans (ih (f s i))

theorem onlyMemoryAndVan_of_onlyCoherent {s t : State} (h : OnlyCoherent s t) : OnlyMemoryAndVan s t := by
  unfold OnlyCoherent at h
  unfold OnlyMemoryAndVan
  rw [h]

theorem bvEnter_onlyVan (s : State) (kind : Nat) (queue : Option Nat) (payload : Nat) :
    bvEnter s kind queue payload = { s with d := (bvEnter s kind queue payload).d } := by
  unfold bvEnter
  split <;> rfl

/-- Records that enter the merge FIFO change the brake van alone. -/
theorem bvSettle_onlyVan (s : State) : bvSettle s = { s with d := (bvSettle s).d } := by
  have hfold (l : List (Nat × Nat × Option Nat × Nat)) (s : State) :
      l.foldl (fun s r => bvEnter s r.2.1 r.2.2.1 r.2.2.2) s =
        { s with d := (l.foldl (fun s r => bvEnter s r.2.1 r.2.2.1 r.2.2.2) s).d } := by
    induction l generalizing s with
    | nil => rfl
    | cons r l ih => rw [List.foldl_cons, ih, bvEnter_onlyVan]
  exact hfold _ _

theorem bvFlush_onlyMemoryAndVan (s : State) : OnlyMemoryAndVan s (bvFlush s) := by
  have hsettle : OnlyMemoryAndVan s (bvSettle s) := by
    unfold OnlyMemoryAndVan
    rw [bvSettle_onlyVan]
  unfold bvFlush
  extract_lets u base v
  have hwrites : OnlyMemoryAndVan u v := by
    refine .foldl (fun s r => ?_) _ u
    rfl
  have hlast : OnlyMemoryAndVan v { v with d := { v.d with bvFifo := [] } } := rfl
  exact (hsettle.trans hwrites).trans hlast

/-- The state whose merge FIFO and versions are in memory, from which a warm reset takes what stays. -/
def flushed (s : State) : State := (bvFlush s).c.versions.foldl (fun s v => mergeVersion s v.id) (bvFlush s)

theorem flushed_onlyMemoryAndVan (s : State) : OnlyMemoryAndVan s (flushed s) :=
  (bvFlush_onlyMemoryAndVan s).trans (.foldl (fun s (v : Version) => onlyMemoryAndVan_of_onlyCoherent (mergeVersion_onlyCoherent s v.id)) _ _)

/-- What a warm reset leaves of the state that it starts from, but for memory and the brake van. -/
structure WarmReset (s t : State) : Prop where
  cores : t.cores = smMap (fun _ k => keptCore k) s.cores
  clusters : t.clusters = smMap (fun _ c => keptCluster c) s.clusters
  front : t.f = {}
  clock : t.t = { now := s.t.now, tbl := timebase s, tbAt := s.t.now, free := s.t.free, inputs := s.t.inputs, nextId := s.t.nextId }
  translation : t.x = { bias := s.x.bias, invseq := s.x.invseq }
  firmware : t.w = { ondie := s.w.ondie, ondieOver := s.w.ondieOver, fwmode := s.w.fwmode }
  host : t.h = { s.h with
    bootDue := s.t.now, keys := [], kvalid := 0, kclr := none, boot := .selfTest, bootCnt := s.h.bootCnt + 1, fwRun := false
    attest := none, attestDue := 0 }

theorem warmReset_spec (s : State) : WarmReset s (warmReset s) := by
  have h := flushed_onlyMemoryAndVan s
  have hspec : WarmReset (flushed s) (warmReset s) := ⟨rfl, rfl, rfl, rfl, rfl, rfl, rfl⟩
  rw [h] at hspec
  exact ⟨hspec.cores, hspec.clusters, hspec.front, hspec.clock, hspec.translation, hspec.firmware, hspec.host⟩

section WarmReset

variable {s t : State} (h : WarmReset s t)
include h

theorem WarmReset.getCore (c : Nat) : getCore t c = keptCore (getCore s c) := by
  rw [Machine.getCore, h.cores]
  exact smGet_smMap {} {} (fun _ k => keptCore k) s.cores c (fun _ => rfl)

theorem WarmReset.getCl (n : Nat) : getCl t n = keptCluster (getCl s n) := by
  rw [Machine.getCl, h.clusters]
  exact smGet_smMap {} {} (fun _ k => keptCluster k) s.clusters n (fun _ => rfl)

theorem WarmReset.getGrp (c g : Nat) : getGrp (Machine.getCore t c) g = keptGroup (getGrp (Machine.getCore s c) g) := by
  rw [h.getCore]
  exact smGet_smMap {} {} (fun _ v => keptGroup v) (Machine.getCore s c).sp.groups g (fun _ => rfl)

theorem WarmReset.free (c x : Nat) : (getCtx t c x).status = .free := by
  rw [getCtx, h.getCore]
  rfl

theorem WarmReset.timebase : Machine.timebase t = Machine.timebase s := by
  rw [timebase_eq_tbl (by rw [h.clock]), h.clock]

end WarmReset

theorem warmReset_resets (s : State) {w : Writer} (hw : secureWriter w = true) :
    Gives (.warmReset w) s (fun t => t.resp = .ok ∧ t.h.boot = .selfTest ∧ t.h.bootCnt = s.h.bootCnt + 1 ∧
      t.h.fwRun = false ∧ t.h.kvalid = 0 ∧ t.h.keys = [] ∧ t.t.fast = false ∧ t.t.frozen = false ∧ t.t.now = s.t.now ∧
      timebase t = timebase s ∧ t.f = {} ∧ t.x.reqs = [] ∧ t.x.park = [] ∧ t.w.events = [] ∧ t.x.bias = s.x.bias ∧ t.w.ondie = s.w.ondie ∧
      (∀ c x, (getCtx t c x).status = .free) ∧
      (∀ n, (getCl t n).cmap = (getCl s n).cmap ∧ (getCl t n).cmapn = (getCl s n).cmapn) ∧
      (∀ c g, (getGrp (getCore t c) g).ret = (getGrp (getCore s c) g).ret ∧ (getGrp (getCore t c) g).dis = (getGrp (getCore s c) g).dis)) := by
  have h : WarmReset s (respond (warmReset s) .ok) := by
    obtain ⟨hcores, hclusters, hfront, hclock, hx, hfw, hhost⟩ := warmReset_spec s
    exact ⟨hcores, hclusters, hfront, hclock, hx, hfw, hhost⟩
  have hexec : exec (.warmReset w) s = .next (respond (warmReset s) .ok) := if_pos hw
  refine ⟨_, hexec, rfl, ?_⟩
  generalize respond (warmReset s) .ok = t at h
  simp [h.host, h.clock, h.front, h.translation, h.firmware, h.timebase, h.free, h.getCl, h.getGrp, keptCluster, keptGroup]

/-! ## Self-test and boot (R373, R394, R395) -/

/-- A cluster after self-test `n`: its pass bits and spare way, and the mapping that was due. -/
def testedCluster (n i : Nat) (c : Cluster) : Cluster :=
  let way := BitVec.ofNat 17 (passBits n 1 (17 * i) 17)
  { c with
    cmap := c.cmapn, sitePass := BitVec.ofNat 9 (passBits n 0 (9 * i) 9), wayPass := way
    spareWay := c.spareWay || (way.getLsbD 16 && (List.range 16).any (fun w => !way.getLsbD w)) }

/-- How the position of a core stands after self-test. -/
def coreCase (clusters : SMap Cluster) (g : Nat) : SiteCase :=
  let cl := smGet ({} : Cluster) clusters (g / 8)
  siteCase cl.cmap cl.sitePass (g % 8)

/-- What self-test leaves (R373, R394 step 3). -/
structure SelfTested (s t : State) : Prop where
  boot : t.h.boot = if s.h.bootCnt = 0 then .waiting else .verifying
  kvalid : t.h.kvalid = 0
  keys : t.h.keys = []
  clusters : t.clusters = (List.range 10).foldl (fun m i => smPut m i (testedCluster s.t.free i (smGet {} m i))) s.clusters
  cores : t.cores = (List.range 80).foldl (fun m g => smPut m g (testedCore (smGet {} m g) (coreCase t.clusters g))) s.cores

theorem selfTestComplete_spec {s : State} (hb : s.h.boot = .selfTest) (hdue : s.h.bootDue + 12000000 ≤ s.t.now) :
    Gives .selfTestComplete s (SelfTested s) := by
  have hlen : selfTestLen s.h.bootCnt ≤ 12000000 := Nat.min_le_right _ _
  have hgo : ¬ (s.h.boot ≠ .selfTest ∨ s.t.now < s.h.bootDue + selfTestLen s.h.bootCnt) := by
    rintro (hne | hlt)
    · exact hne hb
    · omega
  refine ⟨_, if_neg hgo, ?_⟩
  split
  · next hcnt => exact ⟨(if_pos hcnt).symm, rfl, rfl, by simp [testedCluster], by simp [coreCase]⟩
  · next hcnt => exact ⟨(if_neg hcnt).symm, rfl, rfl, by simp [testedCluster], by simp [coreCase]⟩

theorem SelfTested.cmap {s t : State} (h : SelfTested s t) {n : Nat} (hn : n < 10) : (getCl t n).cmap = (getCl s n).cmapn := by
  rw [getCl, h.clusters, smGet_foldl_smPut, if_pos hn]
  rfl

theorem SelfTested.getCore {s t : State} (h : SelfTested s t) {c : Nat} (hc : c < 80) :
    getCore t c = testedCore (getCore s c) (coreCase t.clusters c) := by
  rw [Machine.getCore, h.cores, smGet_foldl_smPut {} (fun g k => testedCore k (coreCase t.clusters g)), if_pos hc]
  rfl

/-- A position without a site keeps its set and bank; any other's rows are zero and its bank is as after power-on. -/
theorem testedCore_contents (k : Core) (c : SiteCase) :
    if (testedCore k c).disabled = true then (testedCore k c).sp = k.sp ∧ (testedCore k c).xb = k.xb
    else (testedCore k c).sp.rows = [] ∧ (testedCore k c).xb = {} := by
  by_cases hc : c = .disabled <;> simp [testedCore, hc]

theorem selfTestComplete_tests {s : State} (hb : s.h.boot = .selfTest) (hdue : s.h.bootDue + 12000000 ≤ s.t.now) :
    Gives .selfTestComplete s (fun t =>
      t.h.boot = (if s.h.bootCnt = 0 then .waiting else .verifying) ∧ t.h.kvalid = 0 ∧ t.h.keys = [] ∧
      (∀ c, c < 80 → if (getCore t c).disabled = true then (getCore t c).sp = (getCore s c).sp ∧ (getCore t c).xb = (getCore s c).xb
        else (getCore t c).sp.rows = [] ∧ (getCore t c).xb = {}) ∧
      ∀ n, n < 10 → (getCl t n).cmap = (getCl s n).cmapn) := by
  obtain ⟨t, hexec, h⟩ := selfTestComplete_spec hb hdue
  refine ⟨t, hexec, h.boot, h.kvalid, h.keys, fun c hc => ?_, fun n hn => h.cmap hn⟩
  rw [h.getCore hc]
  exact testedCore_contents _ _

theorem bootGo_verifies {s : State} {w : Writer} (hw : secureWriter w = true) (hb : s.h.boot = .waiting) :
    Gives (.bootGo w) s (fun t => t.h.boot = .verifying ∧ t.resp = .ok) := by
  have hgo : ¬ (secureWriter w = false ∨ s.h.boot ≠ .waiting) := by simp [hw, hb]
  exact ⟨_, if_neg hgo, rfl, rfl⟩

/-- Verification ends the boot with a code, or the clock changes and firmware runs. -/
theorem bootVerifyComplete_ends {s : State} (hb : s.h.boot = .verifying) (hdue : s.h.bootDue ≤ s.t.now) :
    Gives .bootVerifyComplete s (fun t =>
      (∃ k, k ≠ 0 ∧ t = { s with h := { s.h with boot := .failed k } }) ∨
      (t.h.boot = .running ∧ t.h.fwRun = true ∧ t.t.fast = true ∧ timebase t = timebase s ∧ t.c = s.c)) := by
  have hgo : ¬ (s.h.boot ≠ .verifying ∨ s.t.now < s.h.bootDue) := by simp [hb, hdue]
  have hexec : exec .bootVerifyComplete s = execBootVerifyComplete s := rfl
  have htime : timebase (bvSettle s) = timebase s := by rw [bvSettle_onlyVan]; rfl
  have hc : (bvSettle s).c = s.c := by rw [bvSettle_onlyVan]
  rw [Gives, hexec, execBootVerifyComplete, if_neg hgo]
  extract_lets a len n img bad code
  by_cases hcode : code = 0
  · refine ⟨_, if_neg (fun hne => hne hcode), .inr ⟨rfl, rfl, rfl, ?_, hc⟩⟩
    exact (timebase_eq_tbl rfl).trans htime
  · exact ⟨_, if_pos hcode, .inl ⟨code, hcode, rfl⟩⟩

/-! ## Freeze and temperatures (R387, R400) -/

theorem freeze_freezes {s : State} {w : Writer} (hw : ∀ b, w ≠ .app b) :
    Gives (.freeze w) s (fun t => t.t.frozen = true ∧ t.resp = .ok ∧ t.c = s.c ∧ t.cores = s.cores) := by
  cases w with
  | firmware => exact ⟨_, rfl, rfl, rfl, rfl, rfl⟩
  | tap => exact ⟨_, rfl, rfl, rfl, rfl, rfl⟩
  | app b => exact absurd rfl (hw b)

/-- An event posted while the queue has room stands last in it. -/
theorem posts_of_room {s t : State} (hroom : Room s) (type : Nat) (key : Option Nat) (part : BitVec 4) (data : Nat)
    (ht : t.w = (postEvent s type key part data).w) : Posts s t type := by
  refine ⟨{ type, key, part, time := timebase s, data := BitVec.ofNat 128 data }, ?_, rfl⟩
  rw [ht, postEvent, if_pos hroom]

theorem temps_setTemp (s : State) (c : Nat) (v : BitVec 12) : smGet 0 (setTemp s c v).h.temps c = v := by
  simp [setTemp, smGet_smPut]

theorem reached_setTemp (s : State) (c i : Nat) (v u : BitVec 12) : reached (setTemp s c v) i u = reached s i u := rfl

theorem thermalWarning_warns {s : State} {c : Nat} (v : BitVec 12) (hc : c ≤ 10) (hroom : Room s) :
    Gives (.thermalWarning c v) s (fun t => smGet 0 t.h.temps c = v ∧
      (reached s 0 v = true → Posts s t 12) ∧ (reached s 0 v = false → t.w = s.w)) := by
  refine ⟨_, if_neg (Nat.not_lt.2 hc), ?_⟩
  rw [reached_setTemp]
  by_cases hr : reached s 0 v = true
  · rw [if_pos hr]
    refine ⟨by rw [postEvent_h, temps_setTemp], fun _ => ?_, fun hf => absurd (hr.symm.trans hf) (by decide)⟩
    exact posts_of_room (s := setTemp s c v) hroom 12 none 0 _ rfl
  · rw [if_neg hr]
    exact ⟨temps_setTemp s c v, fun h => absurd h hr, fun _ => rfl⟩

theorem thermalCritical_throttles {s : State} {c : Nat} (v : BitVec 12) (hc : c < 10) :
    Gives (.thermalCritical c v) s (fun t => smGet 0 t.h.temps c = v ∧
      ∀ p, p < 8 → if reached s 1 v then (getCore t (8 * c + p)).thrl = 7 ∧ (getCore t (8 * c + p)).hot = true
        else getCore t (8 * c + p) = getCore s (8 * c + p)) := by
  refine ⟨_, if_neg (by omega), ?_⟩
  rw [reached_setTemp]
  by_cases hr : reached s 1 v = true
  · simp only [if_pos hr]
    refine ⟨by rw [ofCluster_h, temps_setTemp], fun p hp => ?_⟩
    rw [getCore_ofCluster _ _ hc hp]
    exact ⟨rfl, rfl⟩
  · simp only [if_neg hr]
    exact ⟨temps_setTemp s c v, fun _ _ => rfl⟩

theorem thermalShutdown_stops {s : State} {c : Nat} (v : BitVec 12) (hc : c ≤ 10) :
    Gives (.thermalShutdown c v) s (fun t => smGet 0 t.h.temps c = v ∧
      (reached s 2 v = true → t.t.frozen = true ∧ t.t.supplies = false) ∧ (reached s 2 v = false → t.t = s.t)) := by
  refine ⟨_, if_neg (Nat.not_lt.2 hc), ?_⟩
  rw [reached_setTemp]
  by_cases hr : reached s 2 v = true
  · rw [if_pos hr]
    exact ⟨temps_setTemp s c v, fun _ => ⟨rfl, rfl⟩, fun hf => absurd (hr.symm.trans hf) (by decide)⟩
  · rw [if_neg hr]
    exact ⟨temps_setTemp s c v, fun h => absurd h hr, fun _ => rfl⟩

theorem readingBelowTwarn_cools {s : State} {c : Nat} (v : BitVec 12) (hc : c < 10) :
    Gives (.readingBelowTwarn c v) s (fun t => smGet 0 t.h.temps c = v ∧
      (reached s 0 v = false → ∀ p, p < 8 → (getCore t (8 * c + p)).hot = false)) := by
  refine ⟨_, if_neg (by omega), ?_⟩
  rw [reached_setTemp]
  by_cases hr : reached s 0 v = true
  · rw [if_pos hr]
    exact ⟨temps_setTemp s c v, fun hf => absurd (hr.symm.trans hf) (by decide)⟩
  · rw [if_neg hr]
    refine ⟨by rw [ofCluster_h, temps_setTemp], fun _ p hp => ?_⟩
    rw [getCore_ofCluster _ _ hc hp]

/-- Settles O38, clause by clause: power-on and warm reset, self-test and boot, freeze, and the readings of the temperatures. -/
theorem resetBootAndTemperatureEvents : Obligations.ResetBootAndTemperatureEvents := by
  unfold Obligations.ResetBootAndTemperatureEvents
  refine ⟨?powerOn, ?warmReset, ?selfTest, ?bootGo, ?verified, ?freeze, ?warning, ?critical, ?shutdown, ?below⟩
  case powerOn => exact powerOn_resets
  case warmReset => exact fun s w hw => warmReset_resets s hw
  case selfTest => exact fun s hb hdue => selfTestComplete_tests hb hdue
  case bootGo => exact fun s w hw hb => bootGo_verifies hw hb
  case verified => exact fun s hb hdue => bootVerifyComplete_ends hb hdue
  case freeze => exact fun s w hw => freeze_freezes hw
  case warning => exact fun s c v hc hroom => thermalWarning_warns v hc hroom
  case critical => exact fun s c v hc => thermalCritical_throttles v hc
  case shutdown => exact fun s c v hc => thermalShutdown_stops v hc
  case below => exact fun s c v hc => readingBelowTwarn_cools v hc

end Sys2Proof.Proofs.Boot
end

section
/-! PROOF. A shrink sweep and the bytes that its visits clear (R20, R75). -/

namespace Sys2Proof.Proofs.Shrink

open Sys2Proof Sys2Proof.Machine Sys2Proof.Claims Sys2Proof.Laws

/-- The line of the window that visit `i` of a shrink of cluster `n` down to `q` ways clears. -/
def shrinkLine (n q i : Nat) : Nat := windowBase + 0x1000000 * n + 0x100000 * (q + i / 8192) + 128 * (i % 8192)

/-- The end of BUSY of a shrink changes no memory: the lines were cleared when visited. -/
theorem busyClear_shrink_c {s : State} {n p q i : Nat} (h : (getCl s n).sweep = some (.shrink p q i)) : (busyClear s n).c = s.c := by
  simp only [busyClear, h]
  split <;> rfl

/-- A visit clears its line of the window and changes no other byte. -/
theorem windowShrinkVisit_clears {s : State} {n p q i : Nat} (hsweep : (getCl s n).sweep = some (.shrink p q i)) (hi : i < 8192 * (p - q))
    (hat : (getCl s n).sweepAt < s.t.now) (hbusy : i ≠ 0 ∨ windowBusy s n q p = false) :
    Gives (.windowShrinkVisit n) s (fun t => ∀ b, rdByte t.c.mem b =
      if shrinkLine n q i ≤ b ∧ b < shrinkLine n q i + 128 then 0 else rdByte s.c.mem b) := by
  have hgo : i < 8192 * (p - q) ∧ (getCl s n).sweepAt < s.t.now ∧ (i ≠ 0 ∨ windowBusy s n q p = false) := ⟨hi, hat, hbusy⟩
  let u := clearMemory (setCl s n { getCl s n with sweep := some (.shrink p q (i + 1)) }) (shrinkLine n q i) 128
  have hexec : exec (.windowShrinkVisit n) s = .next (busyClear u n) := by
    have hrun : exec (.windowShrinkVisit n) s = execWindowShrinkVisit n s := rfl
    rw [hrun, execWindowShrinkVisit]
    simp only [hsweep, if_pos hgo]
    rfl
  have hu : (getCl u n).sweep = some (.shrink p q (i + 1)) := by
    have hcl : getCl u n = getCl (setCl s n { getCl s n with sweep := some (.shrink p q (i + 1)) }) n := rfl
    simp [hcl]
  refine ⟨_, hexec, fun b => ?_⟩
  rw [busyClear_shrink_c hu]
  exact rdByte_clearRange s.c.mem (shrinkLine n q i) 128 b

/-- Cluster 0 has just begun to shrink from four window ways to none, and the first byte of its window holds 1. -/
def shrinkingState : State :=
  { State.reset with
    clusters := [(0, { sweep := some (.shrink 4 0 0) })]
    t := { State.reset.t with now := 1 }
    c := { State.reset.c with mem := [(windowBase, 1)] } }

/-- Refutes O41: its clause of WINDOW_SHRINK_VISIT puts the line that a visit clears at 0x3000000000, where nothing is mapped, while
the windows start at 0x1_0000_0000_0000 (R20). In `shrinkingState` the first visit clears the first byte of the window of cluster 0, and
the clause says that this byte stays 1. -/
theorem not_clusterAndMigrationEvents : ¬ Obligations.ClusterAndMigrationEvents := by
  unfold Obligations.ClusterAndMigrationEvents ClusterEvents
  rintro ⟨⟨_, _, _, hclause, _⟩, _⟩
  have hsweep : (getCl shrinkingState 0).sweep = some (.shrink 4 0 0) := rfl
  obtain ⟨t, ht, hstays, _⟩ := hclause shrinkingState 0 4 0 0 hsweep (by decide) (by decide) (.inr rfl)
  obtain ⟨u, hu, hclears⟩ := windowShrinkVisit_clears hsweep (by decide) (by decide) (.inr rfl)
  have htu : t = u := Host.Outcome.next.inj (ht.symm.trans hu)
  have hone : rdByte t.c.mem windowBase = 1 := hstays windowBase
  have hzero : rdByte u.c.mem windowBase = 0 := hclears windowBase
  rw [htu, hzero] at hone
  exact absurd hone (by decide)

end Sys2Proof.Proofs.Shrink
end

section
/-! PROOF. A step takes the head of its phase's list, or goes on to the next phase; nothing that settles when a cycle is over touches
the cycle count, so the next cycle is numbered one more (R79, R387; the phases and their lists are log entry 6). -/

namespace Sys2Proof.Proofs.Phases

open Sys2Proof Sys2Proof.Machine Sys2Proof.Laws Sys2Proof.Proofs.ControlSpace

/-! ## The head of the list -/

theorem step_of_todo_cons {s : State} {q : Nat} {i : Instr} {r : List (Nat × Instr)} (htodo : s.t.todo = (q, i) :: r) (hwf : wellFormed i = true) :
    step s = exec i { s with t := { s.t with todo := r, fqueue := q } } := by
  simp only [step, htodo, hwf, if_true]

theorem step_of_todo_nil {s : State} (htodo : s.t.todo = []) : step s = .next (refill s) := by
  simp only [step, htodo]

/-- Settles O4: the list's head is what `step` looks at first (that a phase holds such a list is log entry 6). -/
theorem stepRunsTheListedInstruction : Obligations.StepRunsTheListedInstruction := by
  unfold Obligations.StepRunsTheListedInstruction
  intro s q i r htodo hwf
  exact step_of_todo_cons htodo hwf

/-! ## Accesses from outside the clusters keep the cycle count (R77, R102)

An access that sets out on a path draws a number for its ticket, so the clock's record changes, but not its cycle. -/

theorem onlyCoherent_t {s t : State} (h : OnlyCoherent s t) : t.t = s.t := by rw [h]

@[simp] theorem setAgentClock_t (s : State) (agent v : Nat) : (setAgentClock s agent v).t = s.t := by
  unfold setAgentClock
  split
  · exact modCtx_t ..
  split
  · rfl
  split
  · exact modQ_t ..
  · rfl

@[simp] theorem noteTs_t (s : State) (agent v : Nat) : (noteTs s agent v).t = s.t := by
  unfold noteTs
  split
  · exact modCtx_t ..
  · rfl

@[simp] theorem clockEvent_t (s : State) : (clockEvent s).t = s.t := by
  have hask (s : State) (m : Nat) : (askRollover s m).t = s.t := by unfold askRollover; split <;> rfl
  have hpost (s : State) (m : Nat) : (postClock s m).t = s.t := by
    unfold postClock
    split
    · exact postEvent_t ..
    · rfl
  rw [clockEvent_eq, hask, hpost]

@[simp] theorem agentAccess_t (s : State) (agent a lw : Nat) (k : AccKind) (mat : BitVec 512) (met : List Met) :
    (agentAccess s agent a lw k mat met).2.t = s.t := by
  have hperform := onlyCoherent_t (performAccess_onlyCoherent s agent (agentClock s agent) a lw k mat met)
  simp [agentAccess, raiseClock, hperform]

/-- A chunk published to all is a change of the coherent state and the clocks' events alone. -/
@[simp] theorem chunkWrite_t (s : State) (v : Version) (clk frame : Nat) (bytes : SMap (BitVec 16)) (mat : BitVec 512) :
    (chunkWrite s v clk frame bytes mat true).2.t = s.t := by
  have hstamp (s : State) (l : Nat) (x : Stamp) : (setStamp (reKey s mat l) l x).t = s.t :=
    (onlyCoherent_t (reKey_onlyCoherent s mat l) :)
  simp only [chunkWrite, if_true, clockEvent_t]
  exact foldl_keeps (·.t) _ (fun s l => hstamp s l _) _ s

@[simp] theorem performOutside_t (s : State) (agent : Nat) (o : OutsideOp) (met : List Met) : (performOutside s agent o met).2.t = s.t := by
  cases o with
  | word a => exact agentAccess_t ..
  | bytes q key =>
    simp only [performOutside]
    split
    · exact chunkWrite_t s { ts := 0, bytes := [] } ..
    · exact (clockEvent_t _).trans (onlyCoherent_t (loadLines_onlyCoherent ..))

@[simp] theorem stepOutside_now (s : State) (o : Outside) : (stepOutside s o).t.now = s.t.now := by
  unfold stepOutside
  split
  · rfl
  split
  · rfl
  split
  · rfl
  extract_lets put met u clk
  split
  · rfl
  · exact congrArg (·.now) (performOutside_t u o.agent o.op met)

@[simp] theorem stepOutsides_now (s : State) : (stepOutsides s).t.now = s.t.now :=
  foldl_keeps (·.t.now) _ stepOutside_now _ _

/-! ## What else settles when the cycle is over keeps the clock's record -/

@[simp] theorem takeWaypart_t (s : State) (n : Nat) : (takeWaypart s n).t = s.t := by
  unfold takeWaypart
  extract_lets c d
  split
  · rfl
  split
  · exact setCl_t ..
  split <;> exact setCl_t ..

@[simp] theorem countIdle_t (s : State) : (countIdle s).t = s.t := by
  refine foldl_keeps (·.t) _ (fun s c => ?_) _ s
  dsimp only
  split
  · split <;> rfl
  · rfl

@[simp] theorem markPairs_t (s : State) : (markPairs s).t = s.t := by
  refine foldl_keeps (·.t) _ (fun s p => ?_) _ s
  split <;> rfl

@[simp] theorem releaseGroups_t (s : State) (c : Nat) : (releaseGroups s c).t = s.t :=
  foldl_keeps (·.t) _ (fun s _ => modCore_t s c _) _ s

@[simp] theorem replayDone_t (s : State) : (replayDone s).t = s.t := by
  unfold replayDone
  split <;> rfl

@[simp] theorem dropDescs_t (s : State) : (dropDescs s).t = s.t := by
  unfold dropDescs
  split <;> rfl

@[simp] theorem dropIdle_t (s : State) : (dropIdle s).t = s.t := by
  unfold dropIdle
  split
  · rfl
  refine (foldl_keeps (·.t) _ (fun s p => foldl_keeps (·.t) _ (fun s e => ?_) _ s) _ _).trans (dropDescs_t s)
  split <;> rfl

@[simp] theorem askPreempt_t (s : State) (id : Nat) (who : Preemptor) : (askPreempt s id who).t = s.t := by
  unfold askPreempt
  dsimp only
  split
  · rfl
  split
  · exact modJob_t ..
  split <;> rfl

@[simp] theorem clearOut_t (s : State) (cl : Nat) : (clearOut s cl).t = s.t := by
  unfold clearOut
  extract_lets u v
  have hfaults : u.t = s.t := by
    refine foldl_keeps (·.t) _ (fun s p => ?_) _ s
    split <;> rfl
  have hasks : v.t = u.t := by
    refine foldl_keeps (·.t) _ (fun s p => ?_) _ u
    split
    · rfl
    · exact askPreempt_t ..
  rw [modCl_t, hasks, hfaults]

@[simp] theorem bvSettle_t (s : State) : (bvSettle s).t = s.t := by rw [Boot.bvSettle_onlyVan]

/-! ## From one phase to the next -/

@[simp] theorem closeCycle_now (s : State) : (closeCycle s).t.now = s.t.now := by
  unfold closeCycle
  extract_lets ways groups idle outsides d halts moves
  have hways : ways.t = s.t := by
    rw [markPairs_t, countIdle_t]
    exact foldl_keeps (·.t) takeWaypart takeWaypart_t _ s
  have hgroups : groups.t = ways.t := foldl_keeps (·.t) releaseGroups releaseGroups_t _ ways
  have hidle : idle.t = s.t := by
    calc idle.t = groups.t := (dropIdle_t _).trans (replayDone_t groups)
      _ = s.t := hgroups.trans hways
  -- the states so far stay opaque: only their cycle count matters from here on
  clear_value idle
  have houtsides : outsides.t.now = s.t.now := (stepOutsides_now idle).trans (congrArg (·.now) hidle)
  clear_value outsides
  have hmoves : moves.t = halts.t := by
    refine foldl_keeps (·.t) _ (fun s c => ?_) _ halts
    split
    · exact clearOut_t ..
    · rfl
  have hnow : moves.t.now = s.t.now := (congrArg (·.now) hmoves).trans houtsides
  split
  · exact hnow
  · rw [bvSettle_t, hnow]

theorem nextCycle_phase (s : State) : (nextCycle s).t.phase = 3 := rfl

@[simp] theorem nextCycle_now (s : State) : (nextCycle s).t.now = s.t.now + 1 := congrArg (· + 1) (closeCycle_now s)

section Refill
variable {s : State}

theorem refill_after_inputs (h : s.t.phase = 3) : (refill s).t.phase = 2 := by simp only [refill, h]

theorem refill_after_decodes (h : s.t.phase = 2) : (refill s).t.phase = 1 := by simp only [refill, h]

theorem refill_after_engines (h : s.t.phase = 1) : (refill s).t.phase = 0 := by simp only [refill, h]

theorem refill_after_end (h : s.t.phase = 0) (hrun : s.t.frozen = false) : refill s = nextCycle s := by
  simp only [refill, h, hrun, Bool.false_eq_true, if_false]

end Refill

/-- Settles O7, phase by phase; at the end of the cycle because what settles there keeps the cycle count. -/
theorem stepsGoThroughThePhases : Obligations.StepsGoThroughThePhases := by
  unfold Obligations.StepsGoThroughThePhases
  intro s htodo
  refine ⟨refill s, step_of_todo_nil htodo, refill_after_inputs, refill_after_decodes, refill_after_engines, fun hend hrun => ?_⟩
  rw [refill_after_end hend hrun]
  exact ⟨nextCycle_phase s, nextCycle_now s⟩

end Sys2Proof.Proofs.Phases
end
